-- ==== Sys2Proof/Word.lean ====
section
/-! DEFINITION. Word types of the NG5120 and the sparse maps that hold its register files and memories.
Multi-byte values are little-endian everywhere (R58). -/

namespace Sys2Proof

/-- One byte of memory. -/
abbrev Byte := BitVec 8
/-- A register of any block (every register is 32 bits, spec 00_scope "Registers"). -/
abbrev Word32 := BitVec 32
/-- A Yuben scalar register (R155). -/
abbrev Word64 := BitVec 64
/-- A vector register: 128 lanes of 32 bits, which is exactly one wide row of 512 bytes (R155, R184).
Lane `l` is bits `32 l + 31 : 32 l`. -/
abbrev Vec := BitVec 4096
/-- A predicate register: one bit a lane (R155). -/
abbrev Pred := BitVec 128
/-- A stored accumulator word (R105). -/
abbrev AccWord := BitVec 128
/-- Ticks of the timebase, 1 ns each. -/
abbrev Tick := Nat

/-- A sparse map: the entries that differ from the default, keys strictly rising. -/
abbrev SMap (α : Type) := List (Nat × α)

/-- The value listed under `k`, if any. -/
def SMap.find? {α : Type} : SMap α → Nat → Option α
  | [], _ => none
  | (k', v) :: m, k => if k = k' then some v else SMap.find? m k

/-- Read with a default that may depend on the key. -/
def SMap.get {α : Type} (d : Nat → α) (m : SMap α) (k : Nat) : α :=
  (SMap.find? m k).getD (d k)

/-- Drop the entry of `k`. -/
def SMap.erase {α : Type} (m : SMap α) (k : Nat) : SMap α :=
  m.filter (fun c => c.1 != k)

/-- Put an entry before the first larger key. -/
def SMap.insert {α : Type} : SMap α → Nat → α → SMap α
  | [], k, v => [(k, v)]
  | (k', v') :: m, k, v =>
    if k < k' then (k, v) :: (k', v') :: m else (k', v') :: SMap.insert m k v

/-- Write, keeping the canonical form: a value equal to the default is not listed. -/
def SMap.set {α : Type} [DecidableEq α] (d : Nat → α) (m : SMap α) (k : Nat) (v : α) : SMap α :=
  if v = d k then SMap.erase m k else SMap.insert (SMap.erase m k) k v

/-- The canonical form: keys strictly rising, no entry equal to the default. -/
abbrev SMap.wf {α : Type} (d : Nat → α) (m : SMap α) : Prop :=
  m.Pairwise (fun a b => a.1 < b.1) ∧ ∀ c ∈ m, c.2 ≠ d c.1

/-- Bits `hi : lo` of a number. -/
def bitsOf (v hi lo : Nat) : Nat := (v >>> lo) % 2 ^ (hi + 1 - lo)

/-- `v` with bits `hi : lo` replaced by the low bits of `x`. -/
def withBits (v hi lo x : Nat) : Nat :=
  v - (bitsOf v hi lo) <<< lo + (x % 2 ^ (hi + 1 - lo)) <<< lo

/-- The low `w` bits of `v` read as two's complement. -/
def signedOf (w v : Nat) : Int :=
  if (v % 2 ^ w) < 2 ^ (w - 1) then Int.ofNat (v % 2 ^ w) else Int.ofNat (v % 2 ^ w) - Int.ofNat (2 ^ w)

/-- An integer reduced to its low `w` bits. -/
def wrapTo (w : Nat) (x : Int) : Nat := (x % (2 ^ w : Nat)).toNat

/-- The little-endian number of a list of bytes. -/
def leNat : List Byte → Nat
  | [] => 0
  | b :: r => b.toNat + 256 * leNat r

/-- The `n` little-endian bytes of a number. -/
def leBytes : Nat → Nat → List Byte
  | 0, _ => []
  | n + 1, v => BitVec.ofNat 8 v :: leBytes n (v / 256)

/-- Build a vector register from a function of the lane number. -/
def vecOfAux (f : Nat → Nat) : Nat → Nat
  | 0 => 0
  | n + 1 => vecOfAux f n + (f n % 4294967296) <<< (32 * n)

/-- A vector register whose lane `l` holds `f l`. -/
def Vec.ofLanes (f : Nat → Nat) : Vec := BitVec.ofNat 4096 (vecOfAux f 128)

/-- Lane `l` of a vector register. -/
def Vec.lane (v : Vec) (l : Nat) : Nat := (v.toNat >>> (32 * l)) % 4294967296

/-- Build a predicate from a function of the lane number. -/
def predOfAux (f : Nat → Bool) : Nat → Nat
  | 0 => 0
  | n + 1 => predOfAux f n + (f n).toNat <<< n

/-- A predicate whose bit `l` is `f l`. -/
def Pred.ofBits (f : Nat → Bool) : Pred := BitVec.ofNat 128 (predOfAux f 128)

/-- Set bits among the low `n` bits of `v`. -/
def countBits (v : Nat) : Nat → Nat
  | 0 => 0
  | n + 1 => countBits v n + (v.testBit n).toNat

/-- Ceiling division. -/
def ceilDiv (a b : Nat) : Nat := (a + b - 1) / b

end Sys2Proof
end

