-- ==== Sys2Proof/Syntax.lean ====
section
/-! DEFINITION. The commands of the block: one constructor for every row of the opcode table, with its operands. -/

namespace Sys2Proof

/-- The two contexts of a vector core (R155). -/
inductive CtxId where
  | line | batch
deriving DecidableEq, Repr

/-- What the check bits of a fetched or read word say (R121, R156). -/
inductive EccResult where
  | clean | corrected | uncorrectable
deriving DecidableEq, Repr

/-- An instruction issued by a context: the core, the context, what the check bits of its instruction word say, and
the bit errors that struck memory words since the previous step (word address / 8, and whether two bits flipped). -/
structure Issue where
  core : Nat
  ctx : CtxId
  fetch : EccResult
  upsets : List (Nat × Bool)
deriving DecidableEq, Repr

/-- The operand fields of the 64-bit instruction word; op and fn are the command itself. -/
structure YWord where
  d : BitVec 5
  a : BitVec 5
  b : BitVec 5
  c : BitVec 5
  p : BitVec 3
  pn : Bool
  ty : BitVec 4
  imm : BitVec 24
deriving DecidableEq, Repr

/-- The link classes of R13. -/
inductive DlClass where
  | mark | raster | reg | halo | adapt | batch | host
deriving DecidableEq, Repr

/-- A flit on a die-link module (R13, R16): its direction; whether it is sent again from the replay buffer, or is a new one of a class that has one
`ready`; whether its CRC is good. -/
structure DlFlit where
  toRaster : Bool
  again : Bool
  ready : List DlClass
  crcOk : Bool
deriving DecidableEq, Repr

/-- A RASTER flit at its delivery (R15, R16): the tick at which it was accepted, and whether the link delivers it late. -/
structure RasterFlit where
  accepted : Nat
  late : Bool
deriving DecidableEq, Repr

/-- What a mark's action finds (R53, R440): the modules whose copy has not arrived, and the words found uncorrectable in the turn, by ledger item
and index. -/
structure MarkFind where
  lost : List Nat
  words : List (Nat × Nat)
deriving DecidableEq, Repr

/-- A scrub of accumulator memory (R108): the column banks whose PERIOD idle cycles have passed, and the bits that have flipped: word and bit. -/
structure ScrubFind where
  banks : List Nat
  flips : List (Nat × Nat)
deriving DecidableEq, Repr

/-- Who makes a register access: the host through BAR0, the Rulebook, the tiling control core, or a vector core or mover
with its number (R8, R120, R420). -/
inductive Requester where
  | host
  | rulebook
  | tcc
  | unit (n : Nat)
deriving DecidableEq, Repr


/-- A Pelex flit that a port receives (R331, R332): its port, whether its CRC is good, SEQ, ACK and NAK, its class, coordinates,
hops, ARG and payload; its type is the command. -/
structure FlitIn where
  port : Nat
  crcOk : Bool
  seq : Nat
  ack : Nat
  nak : Bool
  cls : Nat
  dx : Nat
  dy : Nat
  sx : Nat
  sy : Nat
  hops : Nat
  arg : Nat
  payload : List Byte
deriving DecidableEq, Repr


/-- What boot finds on a part and its board in the step that ends (R433): entropy tests, PCI Express width and generation, die-link
modules trained, variant, DRAM channels, data rate, GiB a channel and ECC kinds, cores and quarters that pass self-test, lanes of
the fabric and DisplayPort links. -/
structure BootFind where
  rngOk : Bool
  pcieWidth : Nat
  pcieGen : Nat
  modules : Nat
  variantC : Bool
  channels : Nat
  rate : Nat
  gib : Nat
  lecc : Bool
  odecc : Bool
  iecc : Bool
  cores : Nat
  quarters : Nat
  whole : Bool
  fab : List Nat
  dptx : List Nat
  dprx : List Nat
deriving DecidableEq, Repr

/-- What a configuration write changes (R364, R367): Bus Master Enable, the size of BAR2 as a power of two of GiB, MSI-X enable and
function mask. -/
inductive ConfigWrite where
  | busMaster (on : Bool)
  | bar2Size (k : Nat)
  | msix (en mask : Bool)
deriving DecidableEq, Repr

/-- The commands, in the order of the table. -/
inductive Instr where
  | add (k : Issue) (w : YWord)
  | sub (k : Issue) (w : YWord)
  | andR (k : Issue) (w : YWord)
  | orR (k : Issue) (w : YWord)
  | xorR (k : Issue) (w : YWord)
  | sll (k : Issue) (w : YWord)
  | srl (k : Issue) (w : YWord)
  | sra (k : Issue) (w : YWord)
  | slt (k : Issue) (w : YWord)
  | sltu (k : Issue) (w : YWord)
  | minS (k : Issue) (w : YWord)
  | maxS (k : Issue) (w : YWord)
  | minu (k : Issue) (w : YWord)
  | maxu (k : Issue) (w : YWord)
  | addi (k : Issue) (w : YWord)
  | subi (k : Issue) (w : YWord)
  | andi (k : Issue) (w : YWord)
  | ori (k : Issue) (w : YWord)
  | xori (k : Issue) (w : YWord)
  | slli (k : Issue) (w : YWord)
  | srli (k : Issue) (w : YWord)
  | srai (k : Issue) (w : YWord)
  | slti (k : Issue) (w : YWord)
  | sltui (k : Issue) (w : YWord)
  | mini (k : Issue) (w : YWord)
  | maxi (k : Issue) (w : YWord)
  | minui (k : Issue) (w : YWord)
  | maxui (k : Issue) (w : YWord)
  | mul (k : Issue) (w : YWord)
  | mulh (k : Issue) (w : YWord)
  | mulhu (k : Issue) (w : YWord)
  | divS (k : Issue) (w : YWord)
  | divu (k : Issue) (w : YWord)
  | remS (k : Issue) (w : YWord)
  | remu (k : Issue) (w : YWord)
  | clz (k : Issue) (w : YWord)
  | popc (k : Issue) (w : YWord)
  | li (k : Issue) (w : YWord)
  | lim (k : Issue) (w : YWord)
  | rdsr (k : Issue) (w : YWord)
  | lb (k : Issue) (w : YWord)
  | lbu (k : Issue) (w : YWord)
  | lh (k : Issue) (w : YWord)
  | lhu (k : Issue) (w : YWord)
  | lw (k : Issue) (w : YWord)
  | lwu (k : Issue) (w : YWord)
  | ld (k : Issue) (w : YWord)
  | sb (k : Issue) (w : YWord)
  | sh (k : Issue) (w : YWord)
  | sw (k : Issue) (w : YWord)
  | sd (k : Issue) (w : YWord)
  | pcmp (k : Issue) (w : YWord)
  | pcmpi (k : Issue) (w : YWord)
  | pand (k : Issue) (w : YWord)
  | por (k : Issue) (w : YWord)
  | pxor (k : Issue) (w : YWord)
  | pandn (k : Issue) (w : YWord)
  | pnot (k : Issue) (w : YWord)
  | pmov (k : Issue) (w : YWord)
  | pfirst (k : Issue) (w : YWord)
  | pcnt (k : Issue) (w : YWord)
  | pany (k : Issue) (w : YWord)
  | br (k : Issue) (w : YWord)
  | j (k : Issue) (w : YWord)
  | jal (k : Issue) (w : YWord)
  | jr (k : Issue) (w : YWord)
  | jalr (k : Issue) (w : YWord)
  | bp (k : Issue) (w : YWord)
  | loop (k : Issue) (w : YWord)
  | loopi (k : Issue) (w : YWord)
  | nop (k : Issue) (w : YWord)
  | halt (k : Issue) (w : YWord)
  | fence (k : Issue) (w : YWord)
  | trap (k : Issue) (w : YWord)
  | waitc (k : Issue) (w : YWord)
  | waitn (k : Issue) (w : YWord)
  | waitturn (k : Issue) (w : YWord)
  | waitrdy (k : Issue) (w : YWord)
  | waithq (k : Issue) (w : YWord)
  | waitEnd (core : Nat) (ctx : CtxId)
  | tstamp (k : Issue) (w : YWord)
  | vadd (k : Issue) (w : YWord) (sc : Bool)
  | vsub (k : Issue) (w : YWord) (sc : Bool)
  | vmul (k : Issue) (w : YWord) (sc : Bool)
  | vmulh (k : Issue) (w : YWord) (sc : Bool)
  | vand (k : Issue) (w : YWord) (sc : Bool)
  | vor (k : Issue) (w : YWord) (sc : Bool)
  | vxor (k : Issue) (w : YWord) (sc : Bool)
  | vsll (k : Issue) (w : YWord) (sc : Bool)
  | vsrl (k : Issue) (w : YWord) (sc : Bool)
  | vsra (k : Issue) (w : YWord) (sc : Bool)
  | vmin (k : Issue) (w : YWord) (sc : Bool)
  | vmax (k : Issue) (w : YWord) (sc : Bool)
  | vsatadd (k : Issue) (w : YWord) (sc : Bool)
  | vsatsub (k : Issue) (w : YWord) (sc : Bool)
  | vabs (k : Issue) (w : YWord)
  | vfadd (k : Issue) (w : YWord) (sc : Bool)
  | vfsub (k : Issue) (w : YWord) (sc : Bool)
  | vfmul (k : Issue) (w : YWord) (sc : Bool)
  | vfdiv (k : Issue) (w : YWord) (sc : Bool)
  | vfmin (k : Issue) (w : YWord) (sc : Bool)
  | vfmax (k : Issue) (w : YWord) (sc : Bool)
  | vfsqrt (k : Issue) (w : YWord)
  | vfabs (k : Issue) (w : YWord)
  | vfneg (k : Issue) (w : YWord)
  | vfma (k : Issue) (w : YWord)
  | vfms (k : Issue) (w : YWord)
  | vfnma (k : Issue) (w : YWord)
  | vcmp (k : Issue) (w : YWord) (sc : Bool)
  | vmov (k : Issue) (w : YWord)
  | vlane (k : Issue) (w : YWord)
  | vbcast (k : Issue) (w : YWord)
  | vext (k : Issue) (w : YWord)
  | vins (k : Issue) (w : YWord)
  | vperm (k : Issue) (w : YWord)
  | vrot (k : Issue) (w : YWord)
  | vradd (k : Issue) (w : YWord)
  | vrmin (k : Issue) (w : YWord)
  | vrmax (k : Issue) (w : YWord)
  | vrfadd (k : Issue) (w : YWord)
  | vrfmin (k : Issue) (w : YWord)
  | vrfmax (k : Issue) (w : YWord)
  | vpxadd (k : Issue) (w : YWord)
  | vpxsub (k : Issue) (w : YWord)
  | vpxmul (k : Issue) (w : YWord)
  | vpxscl (k : Issue) (w : YWord)
  | vldn (k : Issue) (w : YWord)
  | vstn (k : Issue) (w : YWord)
  | vld (k : Issue) (w : YWord)
  | vst (k : Issue) (w : YWord)
  | vlds (k : Issue) (w : YWord)
  | vldt (k : Issue) (w : YWord)
  | vldh (k : Issue) (w : YWord)
  | vsth (k : Issue) (w : YWord)
  | vldr (k : Issue) (w : YWord)
  | vgth (k : Issue) (w : YWord)
  | vsct (k : Issue) (w : YWord)
  | vcvt (k : Issue) (w : YWord)
  | vqtok (k : Issue) (w : YWord)
  | vqnt (k : Issue) (w : YWord)
  | vdq (k : Issue) (w : YWord)
  | vbscl (k : Issue) (w : YWord)
  | vqblk (k : Issue) (w : YWord)
  | vdqblk (k : Issue) (w : YWord)
  | vhad64 (k : Issue) (w : YWord)
  | vhad256 (k : Issue) (w : YWord)
  | gcmd (k : Issue) (w : YWord)
  | gwait (k : Issue) (w : YWord)
  | mvq (k : Issue) (w : YWord)
  | chain (k : Issue) (w : YWord)
  | mvwait (k : Issue) (w : YWord)
  | rres (k : Issue) (w : YWord)
  | rset (k : Issue) (w : YWord)
  | rchk (k : Issue) (w : YWord)
  | rhead (k : Issue) (w : YWord)
  | rrel (k : Issue) (w : YWord)
  | rvoid (k : Issue) (w : YWord)
  | hpush (k : Issue) (w : YWord)
  | hpop (k : Issue) (w : YWord)
  | hpopt (k : Issue) (w : YWord)
  | hcnt (k : Issue) (w : YWord)
  | tadd (k : Issue) (w : YWord)
  | launchMove (n : Nat)
  | passMove (n : Nat)
  | moveMove (n : Nat)
  | haloMove (n : Nat)
  | voidMove (n : Nat)
  | spanCheck (core : Nat)
  | gridPassAdmit (unit : Nat)
  | gridPassComplete (unit : Nat) (upsets : List (Nat × Bool)) (flips : List (Nat × Nat))
  | rasterTurnBoundary (n : Nat) (lost : List Nat) (upsets : List (Nat × Bool)) (flips : List (Nat × Nat))
  | decisionTick (n : Nat)
  | roundBoundary (n : Nat)
  | markAction (found : MarkFind)
  | dieLinkFlit (module : Nat) (flit : DlFlit)
  | rasterFlitDelivery (toRaster : Bool) (flit : RasterFlit)
  | syncPinEdge (pin : Nat) (rising : Bool) (tick : Nat)
  | dprxLineReceived (port sub line tick depth : Nat) (comps : List Nat)
  | captureLineWritten (n : Nat) (lost : Bool)
  | captureNotice (late : Bool)
  | layerFetchIssue (stream layer : Nat)
  | flipDecision (n : Nat)
  | cvScrubCheck (flips : List (Nat × Nat))
  | gatherEntryWrite (slice block : Nat)
  | eccWriteBack (slice : Nat)
  | spadScrubRead (slice bank : Nat) (upsets : List (Nat × Bool))
  | accScrubRead (found : ScrubFind)
  | bankPowerGate (slice bank : Nat)
  | moverDescriptorStart (m : Nat) (fails : List (Nat × Nat))
  | moverDescriptorComplete (m cls : Nat) (upsets : List (Nat × Bool)) (fails : List (Nat × Nat))
  | chainStage (chain stage : Nat)
  | regulatorRefill
  | cancelBarrierComplete (slot : Nat)
  | channelRetryLimit (ch : Nat)
  | channelRetrainComplete (ch rate : Nat)
  | pauseBarrierComplete (slot : Nat)
  | saveComplete (slot : Nat) (upsets : List (Nat × Bool)) (flips : List (Nat × Nat))
  | restoreComplete (slot : Nat)
  | commandPoll
  | completionWrite
  | hello
  | caps (io : Bool)
  | loadBundle (io : Bool)
  | unload
  | startAt
  | stopAt
  | setStream (io : Bool)
  | flipSet (io : Bool)
  | submitTasks (io : Bool)
  | pauseTask
  | saveTask
  | resumeTask
  | cancel
  | cancelCommand
  | adaptCtrlEnable
  | adaptCtrlDisable
  | adaptCtrlCommit
  | adaptCtrlDiscard
  | adaptCtrlReset
  | adaptCtrlExport (io : Bool)
  | adaptCtrlImport (io : Bool)
  | setClock
  | setPowerRun
  | setPowerHold
  | setPowerStandby
  | setPowerBanks
  | recRead (io : Bool)
  | recClear
  | crcScan
  | attest (io : Bool) (fails : Nat)
  | debugUnlock (io : Bool)
  | debugNonceRequest
  | debugEnd
  | provision (io : Bool)
  | retire (io : Bool)
  | fabricDiscoverFull
  | fabricDiscoverJoin
  | routeSet (io : Bool)
  | fabricForward (io : Bool)
  | beacon (f : FlitIn) (tick frac : Nat) (wall : List Nat)
  | beaconSend (tick : Nat)
  | delayRequest (f : FlitIn) (rx tx : Nat)
  | delayResponse (f : FlitIn) (rx : Nat)
  | haloWrite (f : FlitIn)
  | fabricHello (f : FlitIn)
  | offer (f : FlitIn) (peerPort : Nat)
  | accept (f : FlitIn) (wall : List Nat)
  | fabricCommand (f : FlitIn)
  | fabricCompletion (f : FlitIn)
  | fenceWrite (f : FlitIn)
  | readyFlag (f : FlitIn)
  | bootRequest (f : FlitIn)
  | pixelData (f : FlitIn)
  | bulkWrite (f : FlitIn)
  | readRequest (f : FlitIn)
  | readResponse (f : FlitIn)
  | writeAcknowledgement (f : FlitIn)
  | bootImage (f : FlitIn) (tick : Nat)
  | idle (f : FlitIn)
  | idleSend (p : Nat)
  | replayTimeout (p : Nat)
  | linkTrained (p lanes version : Nat)
  | laneRetrain (p lanes : Nat) (done : Bool)
  | portLost (p cause : Nat)
  | parentAbandon
  | detach
  | discoverySettle
  | offerWindowEnd
  | noOfferTimeout
  | fabricResponseTimeout (m : Nat)
  | forwardTimeout (seq : Nat)
  | dptxHpd (port : Nat) (failure : Bool)
  | dptxTrainingComplete (port rate lanes : Nat) (dsc async mst : Bool)
  | dptxLinkLoss (port : Nat) (unplugged : Bool)
  | dprxLinkLoss (port : Nat) (sub : Option Nat)
  | perstN
  | functionLevelReset
  | pcieRetrain (width gen : Nat)
  | dStateChange (d3 : Bool)
  | bar2Access (o len : Nat) (write : Bool) (data : List Byte) (poisoned : Bool)
  | coldReset (straps : Nat) (fuse : Bool)
  | bootStep (f : BootFind)
  | vddAonLoss (straps : Nat) (fuse : Bool)
  | watchdogExpiry
  | tpwrOkFall
  | tpwrOkTimeout
  | holdClocksStopped
  | standbyEntryComplete
  | wakeComplete (cores quarters modules channels : Nat)
  | thermalWarning (t : Int)
  | thermalCritical
  | thermalTrip
  | ledgerEntryTimer
  | recordWrite
  | crcScanEnd (e passed : Nat)
  | debugSessionExpiry
  | rngTestFail
  | otpCommandComplete (unblown weak : List Nat)
  | secOtpRead
  | secOtpProgram
  | secOtpGensecret
  | domainEnable (v : Word32)
  | domainStop (v : Word32)
  | leadWrite (v : Word32)
  | tbSwtrig (v : Word32)
  | tbDnCfgWrite (n : Nat) (v : Word32)
  | tbDnVtotWrite (n : Nat) (v : Word32)
  | tbDnRoundWrite (n : Nat) (hi : Bool) (v : Word32)
  | tbNowLoRead
  | tbDnRoundLoRead (n : Nat)
  | ttRoundLoRead
  | gridOccLoRead
  | gridCtrlWrite (v : Word32)
  | accInjectWrite (v : Word32)
  | accDiagnosticAccess (row col off len : Nat) (write : Bool) (data : List Byte) (flips : List (Nat × Nat))
  | vcIdataLoRead (n : Nat)
  | vcIdataHiWrite (n : Nat) (v : Word32) (who : Requester)
  | queTallyWrite (n : Nat) (v : Word32)
  | ringEnable (r : Nat) (v : Word32)
  | windowWrite (slice w : Nat) (mask : Bool) (v : Word32) (who : Requester)
  | spadPwrWrite (slice : Nat) (hi : Bool) (v : Word32) (who : Requester)
  | shcInv
  | cmpFenceWrite (k : Nat) (v : Word32) (who : Requester)
  | pwrResetWarm (v : Word32)
  | pwrResetTensor (v : Word32)
  | crcStart (e : Nat) (v : Word32)
  | crcStop (e : Nat)
  | crcValLoRead (e : Nat)
  | dbgHalt (v : Word32)
  | dbgStep (v : Word32)
  | dbgMemDataLoRead
  | dbgMemDataHiWrite (v : Word32)
  | registerWrite (who : Requester) (b : Nat) (data : List Byte) (poisoned : Bool)
  | dprxLinkTrained (port rate lanes subs : Nat) (mst dsc : Bool)
  | rngTestPass
  | bankOnComplete (slice bank : Nat)
  | paddingFillComplete (ring slot : Nat)
  | tpwrOkRise
  | registerRead (who : Requester) (b len : Nat)
  | pcieConfigurationWrite (w : ConfigWrite)
deriving DecidableEq, Repr

end Sys2Proof
end

