-- ==== Sys2Proof/Decode.lean ====
section
/-! DEFINITION. The opcode table gives its rows no bits, so no table word spells a command. The 64-bit instruction word of a vector core
spells one: its fields, and the maps of the major opcodes and minor functions (R164, R165, R187 to R208). -/

namespace Sys2Proof

/-- No row of the table has bits, so no word spells a command. -/
def decodeTableWord (_nbits _w : Nat) : Option Instr := none

/-- The operand fields of an instruction word. -/
def YWord.ofWord (x : Word64) : YWord :=
  ⟨x.extractLsb' 47 5, x.extractLsb' 42 5, x.extractLsb' 37 5, x.extractLsb' 32 5, x.extractLsb' 29 3, x.getLsbD 28, x.extractLsb' 24 4,
   x.extractLsb' 0 24⟩

/-- A command of a vector core, but for its operands. -/
abbrev YCommand := Issue → YWord → Instr
/-- One that takes a vector or a scalar second operand, with the choice made. -/
def withOperand (sc : Bool) (l : List (Issue → YWord → Bool → Instr)) : List YCommand := l.map (fun f k w => f k w sc)

/-- Scalar integer operations that have an immediate form, and the rest (R167). -/
def scalarOps : List YCommand :=
  [.add, .sub, .andR, .orR, .xorR, .sll, .srl, .sra, .slt, .sltu, .minS, .maxS, .minu, .maxu,
   .mul, .mulh, .mulhu, .divS, .divu, .remS, .remu, .clz, .popc]
def immediateOps : List YCommand :=
  [.addi, .subi, .andi, .ori, .xori, .slli, .srli, .srai, .slti, .sltui, .mini, .maxi, .minui, .maxui]
/-- Vector integer operations with two operands (R187). -/
def vectorOps : List (Issue → YWord → Bool → Instr) :=
  [.vadd, .vsub, .vmul, .vmulh, .vand, .vor, .vxor, .vsll, .vsrl, .vsra, .vmin, .vmax, .vsatadd, .vsatsub]
/-- Vector float operations with two operands (R188). -/
def floatOps : List (Issue → YWord → Bool → Instr) := [.vfadd, .vfsub, .vfmul, .vfdiv, .vfmin, .vfmax]

/-- The commands of a major opcode by minor function (R165, R167 to R179). Those from 0x08 to 0x0F and from 0x38 on are reserved, and
others stand in no table. -/
def opTable : Nat → List YCommand
  | 0x00 => scalarOps
  | 0x01 => immediateOps
  | 0x02 => [.li, .lim, .rdsr]
  | 0x04 => [.pcmp, .pcmpi, .pand, .por, .pxor, .pandn, .pnot, .pmov, .pfirst, .pcnt, .pany]
  | 0x05 => [.br, .j, .jal, .jr, .jalr, .bp]
  | 0x06 => [.loop, .loopi]
  | 0x07 => [.nop, .halt, .fence, .trap]
  | 0x10 => withOperand false vectorOps ++ [.vabs]
  | 0x11 => withOperand true vectorOps
  | 0x12 => withOperand false floatOps ++ [.vfsqrt, .vfabs, .vfneg]
  | 0x13 => withOperand true floatOps
  | 0x14 => [.vfma, .vfms, .vfnma]
  | 0x15 => withOperand false [.vcmp] ++ withOperand true [.vcmp]
  | 0x16 => [.vmov, .vlane, .vbcast, .vext, .vins, .vperm, .vrot]
  | 0x17 => [.vradd, .vrmin, .vrmax, .vrfadd, .vrfmin, .vrfmax]
  | 0x18 => [.vpxadd, .vpxsub, .vpxmul, .vpxscl]
  | 0x20 => [.vldn, .vstn]
  | 0x21 => [.vld, .vst]
  | 0x22 => [.vlds]
  | 0x23 => [.vldt]
  | 0x24 => [.vldh, .vsth, .vldr]
  | 0x25 => [.vgth]
  | 0x26 => [.vsct]
  | 0x28 => [.gcmd, .gwait]
  | 0x2C => [.mvq, .chain, .mvwait]
  | 0x2D => [.rres, .rset, .rchk, .rhead, .rrel, .rvoid]
  | 0x2E => [.hpush, .hpop, .hpopt, .hcnt]
  | 0x2F => [.tadd]
  | 0x30 => [.waitc, .waitn]
  | 0x31 => [.waitturn]
  | 0x32 => [.waitrdy, .waithq]
  | 0x33 => [.tstamp]
  | 0x34 => [.vcvt]
  | 0x35 => [.vqtok, .vqnt, .vdq]
  | 0x36 => [.vbscl, .vqblk, .vdqblk]
  | 0x37 => [.vhad64, .vhad256]
  | _ => []
/-- The command of a major opcode and a minor function; none where no table defines them (R164). Loads and stores of op 0x03 leave fn
0x07 out (R171). -/
def yubenOp (op fn : Nat) : Option YCommand :=
  if op = 0x03 then (if fn < 8 then [Instr.lb, .lbu, .lh, .lhu, .lw, .lwu, .ld][fn]? else [Instr.sb, .sh, .sw, .sd][fn - 8]?)
  else (opTable op)[fn]?

/-- The instruction that a word of instruction memory spells, issued as `k` says; none is an illegal instruction (R164). -/
def decodeYuben (k : Issue) (x : Word64) : Option Instr :=
  (yubenOp (x.toNat >>> 58) (x.toNat >>> 52 % 64)).map (fun f => f k (YWord.ofWord x))

end Sys2Proof
end

