-- ==== Sys2Proof/Config.lean ====
section
/-! DEFINITION. What an implementation fixes and the free values: constants without a body, so that no proof can see
what they are. -/

namespace Sys2Proof

/-- FREE VALUE. The value of draw `i` at position `j`: nothing constrains it. -/
opaque Config.freeValue (i j : Nat) : Nat

/-- FREE VALUE. What is fixed for one part and its board and the spec does not give, by name and position: 1 the input pixel
rate of a capture stream, 2 the input lines of a capture stream in 16 turns, 3 the bytes of the SHA-256 of the Rulebook
ROM. Nothing constrains it. -/
opaque Config.partValue (name i : Nat) : Nat

end Sys2Proof
end

