-- ==== Sys2Proof/Machine/Numbers.lean ====
section
/-! DEFINITION. Element types, exact values, the two roundings, conversions and the quantisation arithmetic
(chapter 03_numbers, R57 to R86). Every value is held exactly as a quotient of integers until its one rounding. -/

namespace Sys2Proof.Machine

/-- The element types of R57. -/
inductive ElemType where
  | int8 | uint8 | int16 | uint16 | int32 | uint32 | int4 | e4m3 | e5m2 | fp16 | bf16 | fp32 | px20
deriving DecidableEq, Repr

/-- The element type of a code of R57; 0xD to 0xF are reserved. -/
def ElemType.ofCode : Nat → Option ElemType
  | 0x0 => some .int8 | 0x1 => some .uint8 | 0x2 => some .int16 | 0x3 => some .uint16
  | 0x4 => some .int32 | 0x5 => some .uint32 | 0x6 => some .int4 | 0x7 => some .e4m3
  | 0x8 => some .e5m2 | 0x9 => some .fp16 | 0xA => some .bf16 | 0xB => some .fp32
  | 0xC => some .px20 | _ => none

/-- Bits of one element (R57, R184). -/
def ElemType.bits : ElemType → Nat
  | .int4 => 4
  | .int8 | .uint8 | .e4m3 | .e5m2 => 8
  | .int16 | .uint16 | .fp16 | .bf16 => 16
  | .int32 | .uint32 | .fp32 | .px20 => 32

/-- Elements of one 32-bit lane (R184). -/
def ElemType.perLane (t : ElemType) : Nat := 32 / t.bits

/-- A floating-point format: exponent and fraction bits, bias, the largest finite code without its sign, the infinity
(if the format has one) and the canonical NaN (R59). -/
structure FloatFmt where
  ebits : Nat
  fbits : Nat
  bias : Nat
  maxFinite : Nat
  inf : Option Nat
  nan : Nat
deriving DecidableEq, Repr

def fmtE4M3 : FloatFmt := ⟨4, 3, 7, 0x7E, none, 0x7F⟩
def fmtE5M2 : FloatFmt := ⟨5, 2, 15, 0x7B, some 0x7C, 0x7E⟩
def fmtFP16 : FloatFmt := ⟨5, 10, 15, 0x7BFF, some 0x7C00, 0x7E00⟩
def fmtBF16 : FloatFmt := ⟨8, 7, 127, 0x7F7F, some 0x7F80, 0x7FC0⟩
def fmtFP32 : FloatFmt := ⟨8, 23, 127, 0x7F7FFFFF, some 0x7F800000, 0x7FC00000⟩

/-- The format of a floating-point element type. -/
def ElemType.floatFmt : ElemType → Option FloatFmt
  | .e4m3 => some fmtE4M3 | .e5m2 => some fmtE5M2 | .fp16 => some fmtFP16
  | .bf16 => some fmtBF16 | .fp32 => some fmtFP32 | _ => none

/-- The least and greatest value of an integer element type. -/
def ElemType.intRange : ElemType → Option (Int × Int)
  | .int8 => some (-128, 127) | .uint8 => some (0, 255)
  | .int16 => some (-32768, 32767) | .uint16 => some (0, 65535)
  | .int32 => some (-2147483648, 2147483647) | .uint32 => some (0, 4294967295)
  | .int4 => some (-8, 7) | _ => none

/-- Whether the type's codes are two's complement. -/
def ElemType.isSigned : ElemType → Bool
  | .int8 | .int16 | .int32 | .int4 => true
  | _ => false

/-- An exact rational: numerator over a positive denominator. -/
structure ExactQ where
  num : Int
  den : Nat
deriving DecidableEq, Repr

def ExactQ.ofInt (x : Int) : ExactQ := ⟨x, 1⟩
def ExactQ.add (a b : ExactQ) : ExactQ := ⟨a.num * b.den + b.num * a.den, a.den * b.den⟩
def ExactQ.neg (a : ExactQ) : ExactQ := ⟨-a.num, a.den⟩
def ExactQ.sub (a b : ExactQ) : ExactQ := a.add b.neg
def ExactQ.mul (a b : ExactQ) : ExactQ := ⟨a.num * b.num, a.den * b.den⟩
/-- The quotient by a non-zero rational. -/
def ExactQ.div (a b : ExactQ) : ExactQ :=
  if b.num < 0 then ⟨-(a.num * b.den), a.den * b.num.natAbs⟩ else ⟨a.num * b.den, a.den * b.num.natAbs⟩
def ExactQ.lt (a b : ExactQ) : Bool := decide (a.num * b.den < b.num * a.den)
def ExactQ.le (a b : ExactQ) : Bool := decide (a.num * b.den ≤ b.num * a.den)
def ExactQ.max (a b : ExactQ) : ExactQ := if a.lt b then b else a
def ExactQ.min (a b : ExactQ) : ExactQ := if b.lt a then b else a
def ExactQ.abs (a : ExactQ) : ExactQ := ⟨Int.ofNat a.num.natAbs, a.den⟩
/-- The value `m * 2^e`. -/
def ExactQ.scale2 (m : Int) (e : Int) : ExactQ :=
  if e < 0 then ⟨m, 2 ^ e.natAbs⟩ else ⟨m * (2 ^ e.natAbs : Nat), 1⟩

/-- A value read from an element: a NaN, an infinity, or a finite value with the sign of its zero. -/
inductive FVal where
  | nan
  | inf (neg : Bool)
  | fin (neg : Bool) (q : ExactQ)
deriving DecidableEq, Repr

/-- The value a floating-point code stands for (R59, R60). -/
def decodeFloat (f : FloatFmt) (v : Nat) : FVal :=
  let neg := bitsOf v (f.ebits + f.fbits) (f.ebits + f.fbits) = 1
  let mag := v % 2 ^ (f.ebits + f.fbits)
  if mag > f.maxFinite then (if f.inf = some mag then .inf neg else .nan)
  else
    let e := mag >>> f.fbits
    let m := mag % 2 ^ f.fbits
    let sig : Nat := if e = 0 then m else m + 2 ^ f.fbits
    let ex : Int := (if e = 0 then 1 else (e : Int)) - (f.bias : Int) - (f.fbits : Int)
    let s : Int := if neg then -(sig : Int) else (sig : Int)
    .fin neg (ExactQ.scale2 s ex)

/-- The two roundings of the part: RNA (R71) and RNE (R72). -/
inductive Rounding where
  | rna | rne
deriving DecidableEq, Repr

/-- A non-negative quotient rounded to the nearest integer. -/
def roundNat (r : Rounding) (n d : Nat) : Nat :=
  let k := n / d
  let t := 2 * (n % d)
  if t < d then k
  else if d < t then k + 1
  else match r with
    | .rna => k + 1
    | .rne => if k % 2 = 0 then k else k + 1

/-- An exact value rounded to the nearest integer; RNA rounds ties away from zero. -/
def roundInt (r : Rounding) (q : ExactQ) : Int :=
  if q.num < 0 then -(roundNat r q.num.natAbs q.den : Int) else (roundNat r q.num.natAbs q.den : Int)

/-- floor(log2 (n / d)) for positive `n`, `d`. -/
def floorLog2 (n d : Nat) : Int :=
  let e : Int := (n.log2 : Int) - (d.log2 : Int)
  -- the estimate is right or one too large
  if e < 0 then (if n * 2 ^ e.natAbs < d then e - 1 else e)
  else (if n < d * 2 ^ e.natAbs then e - 1 else e)

/-- The magnitude code of a positive exact value rounded with an unbounded exponent: codes continue upwards past the
largest finite one, so a comparison with `maxFinite` tells a value that left the range. -/
def roundMag (r : Rounding) (f : FloatFmt) (n d : Nat) : Nat :=
  if n = 0 then 0
  else
    let e := floorLog2 n d
    let emin : Int := 1 - (f.bias : Int)
    let q : Int := (if e < emin then emin else e) - (f.fbits : Int)
    let m := if q < 0 then roundNat r (n * 2 ^ q.natAbs) d else roundNat r n (d * 2 ^ q.natAbs)
    if e < emin then m
    else (e - emin).toNat * 2 ^ f.fbits + m

/-- Whether an exact value, rounded with an unbounded exponent, lies outside the format's finite range. -/
def roundsOut (r : Rounding) (f : FloatFmt) (q : ExactQ) : Bool :=
  decide (f.maxFinite < roundMag r f q.num.natAbs q.den)

/-- Put a sign on a magnitude code. -/
def signCode (f : FloatFmt) (neg : Bool) (mag : Nat) : Nat :=
  if neg then mag + 2 ^ (f.ebits + f.fbits) else mag

/-- `round_rna_sat` to a floating-point format: one rounding, saturating at the largest finite value; the sign of a
zero result is given by `negZero` (R69, R73). -/
def roundSat (f : FloatFmt) (negZero : Bool) (q : ExactQ) : Nat :=
  let mag := roundMag .rna f q.num.natAbs q.den
  let mag := if f.maxFinite < mag then f.maxFinite else mag
  if mag = 0 then signCode f negZero 0 else signCode f (decide (q.num < 0)) mag

/-- Saturate an integer to a range. -/
def clampInt (lo hi x : Int) : Int := if x < lo then lo else if hi < x then hi else x

/-- The code of an exact value in an element type: one RNA rounding, saturated (R69, R71). -/
def encodeSat (t : ElemType) (negZero : Bool) (q : ExactQ) : Nat :=
  match t.floatFmt with
  | some f => roundSat f negZero q
  | none =>
    match t.intRange with
    | some (lo, hi) => wrapTo t.bits (clampInt lo hi (roundInt .rna q))
    | none => (clampInt 0 0xFFFFF (roundInt .rna (q.mul ⟨65536, 1⟩))).toNat

/-- The value an element's code stands for: floats by R59, integers by R58, PX20 as c * 2^-16 (R61). -/
def decodeElem (t : ElemType) (v : Nat) : FVal :=
  match t.floatFmt with
  | some f => decodeFloat f v
  | none =>
    match t.intRange with
    | some _ => .fin false (ExactQ.ofInt (if t.isSigned then signedOf t.bits v else ((v % 2 ^ t.bits : Nat) : Int)))
    | none => .fin false ⟨((v % 2 ^ 20 : Nat) : Int), 65536⟩

/-- Whether R73 defines the conversion of a pair of types: every pair of two different types. -/
def convDefined (src dst : ElemType) : Bool := src != dst

/-- The conversion of R73: NaN, infinities, the single RNA rounding, saturation and the sign of zero. -/
def convertElem (src dst : ElemType) (v : Nat) : Nat :=
  let fromFloat := src.floatFmt.isSome
  match decodeElem src v, dst.floatFmt with
  | .nan, some f => f.nan
  | .nan, none => 0
  | .inf neg, some f => signCode f neg (f.inf.getD f.maxFinite)
  | .inf neg, none =>
    match dst.intRange with
    | some (lo, hi) => wrapTo dst.bits (if neg then lo else hi)
    | none => if neg then 0 else 0xFFFFF
  | .fin neg q, _ => encodeSat dst (fromFloat && neg) q

/-! ### IEEE arithmetic of the vector cores (R72) -/

/-- The RNE result of an exact value: overflow gives an infinity, subnormals are kept; `negZero` is the sign of a
zero result. -/
def roundRNE (f : FloatFmt) (negZero : Bool) (q : ExactQ) : Nat :=
  let mag := roundMag .rne f q.num.natAbs q.den
  if q.num = 0 then signCode f negZero 0
  else signCode f (decide (q.num < 0)) (if f.maxFinite < mag then f.inf.getD f.maxFinite else mag)

/-- Encode an infinity. -/
def infCode (f : FloatFmt) (neg : Bool) : Nat := signCode f neg (f.inf.getD f.maxFinite)

/-- IEEE sum of two values. An exact zero sum of unlike signs is +0 under RNE. -/
def fAddVal (f : FloatFmt) : FVal → FVal → Nat
  | .nan, _ => f.nan
  | _, .nan => f.nan
  | .inf a, .inf b => if a = b then infCode f a else f.nan
  | .inf a, .fin _ _ => infCode f a
  | .fin _ _, .inf b => infCode f b
  | .fin na a, .fin nb b => roundRNE f (na && nb) (a.add b)

/-- Negate a value, its zero included. -/
def FVal.negate : FVal → FVal
  | .nan => .nan
  | .inf a => .inf (!a)
  | .fin n q => .fin (!n) q.neg

def fAdd (f : FloatFmt) (a b : Nat) : Nat := fAddVal f (decodeFloat f a) (decodeFloat f b)
def fSub (f : FloatFmt) (a b : Nat) : Nat := fAddVal f (decodeFloat f a) (decodeFloat f b).negate

/-- Exact product of two values. -/
def FVal.times : FVal → FVal → FVal
  | .nan, _ => .nan
  | _, .nan => .nan
  | .inf a, .inf b => .inf (a != b)
  | .inf a, .fin b q => if q.num = 0 then .nan else .inf (a != b)
  | .fin a q, .inf b => if q.num = 0 then .nan else .inf (a != b)
  | .fin a p, .fin b q => .fin (a != b) (p.mul q)

/-- Round a value once, RNE. -/
def encodeRNE (f : FloatFmt) : FVal → Nat
  | .nan => f.nan
  | .inf a => infCode f a
  | .fin n q => roundRNE f n q

def fMul (f : FloatFmt) (a b : Nat) : Nat := encodeRNE f ((decodeFloat f a).times (decodeFloat f b))

/-- IEEE division: 0/0 and inf/inf give NaN, x/0 an infinity (R72). -/
def fDiv (f : FloatFmt) (a b : Nat) : Nat :=
  match decodeFloat f a, decodeFloat f b with
  | .nan, _ => f.nan
  | _, .nan => f.nan
  | .inf _, .inf _ => f.nan
  | .inf x, .fin y _ => infCode f (x != y)
  | .fin x _, .inf y => signCode f (x != y) 0
  | .fin x p, .fin y q =>
    if q.num = 0 then (if p.num = 0 then f.nan else infCode f (x != y))
    else roundRNE f (x != y) (p.div q)

/-- Fused multiply-add of three values: one rounding. `subC` negates the addend and `negP` the product. -/
def fFma (f : FloatFmt) (negP subC : Bool) (a b c : Nat) : Nat :=
  let p := (decodeFloat f a).times (decodeFloat f b)
  let p := if negP then p.negate else p
  let c := decodeFloat f c
  fAddVal f p (if subC then c.negate else c)

/-- The order of R188 on non-NaN codes: a key that rises with the value, -0 below +0. -/
def orderKey (f : FloatFmt) (v : Nat) : Int :=
  let mag : Int := ((v % 2 ^ (f.ebits + f.fbits) : Nat) : Int)
  if v.testBit (f.ebits + f.fbits) then -mag - 1 else mag

def isNaN (f : FloatFmt) (v : Nat) : Bool := decodeFloat f v = .nan

/-- Minimum and maximum of R188: canonical NaN if either operand is NaN. -/
def fMin (f : FloatFmt) (a b : Nat) : Nat :=
  if isNaN f a || isNaN f b then f.nan else if orderKey f b < orderKey f a then b else a
def fMax (f : FloatFmt) (a b : Nat) : Nat :=
  if isNaN f a || isNaN f b then f.nan else if orderKey f a < orderKey f b then b else a

/-- Change only the sign bit of a non-NaN operand (R188). -/
def fAbs (f : FloatFmt) (a : Nat) : Nat :=
  if isNaN f a then f.nan else a % 2 ^ (f.ebits + f.fbits)
def fNeg (f : FloatFmt) (a : Nat) : Nat :=
  if isNaN f a then f.nan else signCode f (!(a.testBit (f.ebits + f.fbits))) (a % 2 ^ (f.ebits + f.fbits))

/-- floor(sqrt v), bit by bit from the top. -/
def isqrtAux (v : Nat) : Nat → Nat → Nat
  | 0, r => r
  | n + 1, r => let t := r + 2 ^ n; isqrtAux v n (if t * t ≤ v then t else r)
def isqrt (v : Nat) : Nat := isqrtAux v (v.log2 / 2 + 1) 0

/-- Correctly rounded square root: the root of the operand scaled by an even power of two, with a sticky bit below, is
rounded once (R188). The root of -0 is -0 and of a negative value NaN (R72). -/
def fSqrt (f : FloatFmt) (a : Nat) : Nat :=
  match decodeFloat f a with
  | .nan => f.nan
  | .inf false => infCode f false
  | .inf true => f.nan
  | .fin neg q =>
    if q.num = 0 then signCode f neg 0
    else if q.num < 0 then f.nan
    else
      -- q.den is a power of two: bring it to an even power and keep fbits + 6 bits of the root
      let k := q.den.log2
      let k' := k + k % 2
      let n := q.num.natAbs * 2 ^ (k' - k) * 2 ^ (2 * (f.fbits + 6))
      let r := isqrt n
      let sticky := if r * r = n then 0 else 1
      roundRNE f false ⟨((2 * r + sticky : Nat) : Int), 2 ^ (k' / 2 + (f.fbits + 6) + 1)⟩

/-! ### The drain (R68 to R70) -/

/-- Two's complement reading of the 112-bit accumulator integer (R62). -/
def lxInt (w : AccWord) : Int := signedOf 112 (w.toNat % 2 ^ 112)

/-- What a drained element of a word with special flags becomes (R70). -/
def specialResult (nan pinf ninf : Bool) (t : ElemType) : Nat :=
  match t.floatFmt with
  | some f => f.nan
  | none =>
    let both := nan || (pinf && ninf)
    match t.intRange with
    | some (lo, hi) => if both then 0 else wrapTo t.bits (if pinf then hi else lo)
    | none => if both then 0 else if pinf then 0xFFFFF else 0

/-- A clamp bound: an infinite bound bounds nothing on its side (R69). -/
def boundBelow (lo : Nat) (v : ExactQ) : ExactQ :=
  match decodeFloat fmtFP32 lo with | .fin _ q => v.max q | _ => v
def boundAbove (hi : Nat) (v : ExactQ) : ExactQ :=
  match decodeFloat fmtFP32 hi with | .fin _ q => v.min q | _ => v

/-- The drain's value before its single rounding: `op` 0 none, 1 ReLU, 2 clamp (R69). -/
def drainExact (n : Int) (p : Nat) (sr : ExactQ) (zr colsum : Int) (sc b : ExactQ) (op lo hi : Nat) : ExactQ :=
  let x := ExactQ.sub ⟨n, 2 ^ p⟩ (ExactQ.ofInt (zr * colsum))
  let v := ((sr.mul sc).mul x).add b
  if op = 1 then v.max ⟨0, 1⟩
  else if op = 2 then boundAbove hi (boundBelow lo v)
  else v

/-! ### Quantisation (R75 to R86) -/

/-- A scale entry of R76 in its four used parts. -/
structure ScaleEntry where
  sat : Bool
  special : Bool
  zp : Int
  scale : Nat
deriving DecidableEq, Repr

def ScaleEntry.ofWord (w : Nat) : ScaleEntry :=
  ⟨w.testBit 25, w.testBit 24, signedOf 8 (bitsOf w 23 16), bitsOf w 15 0⟩

def ScaleEntry.toWord (e : ScaleEntry) : Nat :=
  e.sat.toNat * 2 ^ 25 + e.special.toNat * 2 ^ 24 + wrapTo 8 e.zp * 2 ^ 16 + e.scale % 2 ^ 16

/-- Code range of a quantisation target; FP8 targets have zero point 0 (R75, R77). -/
def ElemType.zpRange (t : ElemType) : Int × Int :=
  match t with
  | .int4 => (-8, 7)
  | .int8 => (-128, 127)
  | .uint8 => (0, 255)
  | _ => (0, 0)

/-- A positive finite FP16 scale as an exact value. -/
def positiveScale? (v : Nat) : Option ExactQ :=
  match decodeFloat fmtFP16 v with
  | .fin _ q => if 0 < q.num then some q else none
  | _ => none

/-- The validity tests of R77. -/
def ScaleEntry.valid (e : ScaleEntry) (t : ElemType) : Bool :=
  (positiveScale? e.scale).isSome && decide (t.zpRange.1 ≤ e.zp) && decide (e.zp ≤ t.zpRange.2)

/-- The scale of R75: `alpha * m` rounded once to FP16, never zero. -/
def tokenScale (alpha m : ExactQ) : Nat :=
  if m.num = 0 then 0x3C00
  else let s := roundSat fmtFP16 false (alpha.mul m); if s = 0 then 1 else s

/-- A finite FP16 value, zero if it is not one. -/
def fp16Q (v : Nat) : ExactQ := match decodeFloat fmtFP16 v with | .fin _ q => q | _ => ⟨0, 1⟩

/-- One element of R75 under scale `s` and zero point `z`: the code and whether it saturated. -/
def quantElem (t : ElemType) (s : ExactQ) (z : Int) (x : ExactQ) : Nat × Bool :=
  match t.floatFmt with
  | some f => (roundSat f false (x.div s), roundsOut .rna f (x.div s))
  | none =>
    let (lo, hi) := t.intRange.getD (0, 0)
    let u := roundInt .rna (x.div s) + z
    (wrapTo t.bits (clampInt lo hi u), decide (u < lo) || decide (hi < u))

/-- The scale entry of a token with least and greatest elements `lo` and `hi` (R75, R198). -/
def tokenEntry (t : ElemType) (alpha : ExactQ) (lo hi : FVal) : ScaleEntry :=
  match lo, hi with
  | .fin _ l, .fin _ h =>
    let s := tokenScale alpha (l.abs.max h.abs)
    let q := fp16Q s
    let (zl, zh) := t.zpRange
    let z : Int :=
      if t.floatFmt.isSome then 0
      else clampInt zl zh (roundInt .rna ((l.add h).neg.div (ExactQ.mul ⟨2, 1⟩ q)))
    ⟨(quantElem t q z l).2 || (quantElem t q z h).2, false, z, s⟩
  | _, _ => ⟨false, true, 0, 0x3C00⟩

/-- Even parity of the bits of `v` below bit `n`. -/
def evenParity (v n : Nat) : Bool := countBits v n % 2 = 0

/-- The exact signed sum of row `i` of the Hadamard mix over a block (R81). -/
def hadamardSum (i : Nat) : Nat → List ExactQ → ExactQ
  | _, [] => ⟨0, 1⟩
  | j, x :: xs =>
    let rest := hadamardSum i (j + 1) xs
    if evenParity (Nat.land i j) 8 then rest.add x else rest.sub x

/-- All values of a list if every one is finite. -/
def allFinite : List FVal → Option (List ExactQ)
  | [] => some []
  | .fin _ q :: r => (allFinite r).map (q :: ·)
  | _ :: _ => none

/-- Output `i` of the mix of one block of FP32 codes; `h` is 8 or 16 (R80, R81). -/
def hadamardOut (h i : Nat) (xs : List Nat) : Nat :=
  match allFinite (xs.map (decodeFloat fmtFP32)) with
  | none => fmtFP32.nan
  | some qs => roundSat fmtFP32 false ((hadamardSum i 0 qs).div ⟨(h : Int), 1⟩)

/-- The greatest magnitude of a list of values, or none if one is not finite. -/
def maxMagnitude : List FVal → Option ExactQ
  | [] => some ⟨0, 1⟩
  | .fin _ q :: r => (maxMagnitude r).map (fun m => m.max q.abs)
  | _ :: _ => none

/-- The block scale of R86 for code type INT8 or UINT8. -/
def blockScale (t : ElemType) (xs : List FVal) : Nat :=
  match maxMagnitude xs with
  | none => 0x7E00
  | some m =>
    if m.num = 0 then 0x3C00
    else
      let s := roundSat fmtFP16 false (m.div ⟨if t = .uint8 then 255 else 127, 1⟩)
      if s = 0 then 1 else s

/-- The drift update of one record group: the new ALPHA code, if the saturated fraction passed the threshold (R84). -/
def driftAlpha (sat elems thresh alpha grow : Nat) : Option Nat :=
  if sat * 65536 > thresh * elems then
    let a := roundSat fmtFP16 false ((fp16Q alpha).mul (fp16Q grow))
    some (if ExactQ.lt ⟨1, 1⟩ (fp16Q a) then 0x3C00 else a)
  else none

/-! ### Check values -/

/-- One bit step of a reflected CRC. -/
def crcBit (poly c : Nat) : Nat := if c % 2 = 1 then (c / 2) ^^^ poly else c / 2
def crcByte (poly c b : Nat) : Nat :=
  let c := c ^^^ b
  crcBit poly (crcBit poly (crcBit poly (crcBit poly (crcBit poly (crcBit poly (crcBit poly (crcBit poly c)))))))
/-- CRC-32C of R132 with a running value, before the final inversion. -/
def crc32cRun (c : Nat) (bs : List Byte) : Nat := bs.foldl (fun c b => crcByte 0x82F63B78 c b.toNat) c
/-- CRC-32C of a list of bytes (R132). -/
def crc32c (bs : List Byte) : Nat := crc32cRun 0xFFFFFFFF bs ^^^ 0xFFFFFFFF

end Sys2Proof.Machine
end

