-- ==== Sys2Proof/Machine/RegTable.lean ====
section
/-! DEFINITION. The register maps of the spec (every heading of the form "`NAME` — device ..." of 00_scope to 18_faults_records):
each register's offset, its replication and its fields with access type and reset value. Offsets count from device
address 0x0011_0000_0000: tensor-die registers (R25) lie below 0x100_0000 and raster-die registers (R26) from there. -/

namespace Sys2Proof.Machine

/-- The access types of R8; reserved bits are the ones no field names. -/
inductive Access where
  | rc | ro | rw | w1c | w1s | wo
deriving DecidableEq, Repr

/-- One field of a register map. -/
structure RegField where
  hi : Nat
  lo : Nat
  acc : Access
  reset : Nat
deriving DecidableEq, Repr

/-- One heading of a register map: offset of the first register, the (stride, count) of each index, and the fields. -/
structure RegRow where
  name : String
  base : Nat
  dims : List (Nat × Nat)
  fields : List RegField
deriving DecidableEq, Repr

/-- A field of one particular register: the register's offset and the bit range. -/
structure Fld where
  off : Nat
  hi : Nat
  lo : Nat
deriving DecidableEq, Repr

/-- `SYS_ID` (00_scope). -/
def R.SYS_ID : Nat := 0x1000000
def F.SYS_ID_PART : Fld := ⟨R.SYS_ID, 31, 16⟩
def F.SYS_ID_STEP_MAJOR : Fld := ⟨R.SYS_ID, 15, 12⟩
def F.SYS_ID_STEP_MINOR : Fld := ⟨R.SYS_ID, 11, 8⟩
/-- `DL_STATUS` (01_architecture). -/
def R.DL_STATUS : Nat := 0x300000
def F.DL_STATUS_DL1_UP : Fld := ⟨R.DL_STATUS, 9, 9⟩
def F.DL_STATUS_DL0_UP : Fld := ⟨R.DL_STATUS, 8, 8⟩
def F.DL_STATUS_SINGLE : Fld := ⟨R.DL_STATUS, 4, 4⟩
def F.DL_STATUS_READY : Fld := ⟨R.DL_STATUS, 0, 0⟩
/-- `DL_LAT` (01_architecture). -/
def R.DL_LAT : Nat := 0x300004
def F.DL_LAT_RASTER_TICKS : Fld := ⟨R.DL_LAT, 31, 16⟩
def F.DL_LAT_MARK_TICKS : Fld := ⟨R.DL_LAT, 15, 0⟩
/-- `DL_RETRY` (01_architecture). -/
def R.DL_RETRY : Nat := 0x300008
def F.DL_RETRY_LATE_CNT : Fld := ⟨R.DL_RETRY, 31, 16⟩
def F.DL_RETRY_REPLAY_CNT : Fld := ⟨R.DL_RETRY, 15, 0⟩
/-- `HUB_ACLK` (01_architecture). -/
def R.HUB_ACLK : Nat := 0x8
def F.HUB_ACLK_LOCK : Fld := ⟨R.HUB_ACLK, 31, 31⟩
def F.HUB_ACLK_MHZ : Fld := ⟨R.HUB_ACLK, 9, 0⟩
/-- `HUB_YUBEN` (01_architecture). -/
def R.HUB_YUBEN : Nat := 0x4
def F.HUB_YUBEN_LEVEL : Fld := ⟨R.HUB_YUBEN, 3, 0⟩
/-- `HUB_CAPGEN` (01_architecture). -/
def R.HUB_CAPGEN : Nat := 0xc
def F.HUB_CAPGEN_GEN : Fld := ⟨R.HUB_CAPGEN, 31, 0⟩
/-- `HUB_CAP0` (01_architecture). -/
def R.HUB_CAP0 : Nat := 0x10
def F.HUB_CAP0_VC_MASK : Fld := ⟨R.HUB_CAP0, 31, 16⟩
def F.HUB_CAP0_WHOLE : Fld := ⟨R.HUB_CAP0, 8, 8⟩
def F.HUB_CAP0_Q_MASK : Fld := ⟨R.HUB_CAP0, 3, 0⟩
/-- `HUB_CAP1` (01_architecture). -/
def R.HUB_CAP1 : Nat := 0x14
def F.HUB_CAP1_CH_MASK : Fld := ⟨R.HUB_CAP1, 31, 16⟩
def F.HUB_CAP1_DRAM_GIB : Fld := ⟨R.HUB_CAP1, 15, 8⟩
def F.HUB_CAP1_IECC : Fld := ⟨R.HUB_CAP1, 1, 1⟩
def F.HUB_CAP1_LECC : Fld := ⟨R.HUB_CAP1, 0, 0⟩
/-- `HUB_CAP2` (01_architecture). -/
def R.HUB_CAP2 : Nat := 0x18
def F.HUB_CAP2_DL_MOD : Fld := ⟨R.HUB_CAP2, 31, 30⟩
def F.HUB_CAP2_FAB_W : Fld := ⟨R.HUB_CAP2, 23, 20⟩
def F.HUB_CAP2_FAB_S : Fld := ⟨R.HUB_CAP2, 19, 16⟩
def F.HUB_CAP2_FAB_E : Fld := ⟨R.HUB_CAP2, 15, 12⟩
def F.HUB_CAP2_FAB_N : Fld := ⟨R.HUB_CAP2, 11, 8⟩
def F.HUB_CAP2_PCIE_W : Fld := ⟨R.HUB_CAP2, 7, 4⟩
def F.HUB_CAP2_PCIE_GEN : Fld := ⟨R.HUB_CAP2, 3, 0⟩
/-- `HUB_CAP3` (01_architecture). -/
def R.HUB_CAP3 : Nat := 0x1c
def F.HUB_CAP3_DPTX3 : Fld := ⟨R.HUB_CAP3, 31, 28⟩
def F.HUB_CAP3_DPTX2 : Fld := ⟨R.HUB_CAP3, 27, 24⟩
def F.HUB_CAP3_DPTX1 : Fld := ⟨R.HUB_CAP3, 23, 20⟩
def F.HUB_CAP3_DPTX0 : Fld := ⟨R.HUB_CAP3, 19, 16⟩
def F.HUB_CAP3_DPRX1 : Fld := ⟨R.HUB_CAP3, 15, 12⟩
def F.HUB_CAP3_DPRX0 : Fld := ⟨R.HUB_CAP3, 11, 8⟩
def F.HUB_CAP3_VARIANT : Fld := ⟨R.HUB_CAP3, 7, 4⟩
def F.HUB_CAP3_DONE : Fld := ⟨R.HUB_CAP3, 0, 0⟩
/-- `TB_CTRL` (02_raster_time). -/
def R.TB_CTRL : Nat := 0x1010000
def F.TB_CTRL_DOM_EN : Fld := ⟨R.TB_CTRL, 7, 4⟩
def F.TB_CTRL_LEAD : Fld := ⟨R.TB_CTRL, 1, 0⟩
/-- `TB_STATUS` (02_raster_time). -/
def R.TB_STATUS : Nat := 0x1010004
def F.TB_STATUS_FAB_TIME : Fld := ⟨R.TB_STATUS, 1, 1⟩
def F.TB_STATUS_LOCK : Fld := ⟨R.TB_STATUS, 0, 0⟩
/-- `TB_NOW_LO` (02_raster_time). -/
def R.TB_NOW_LO : Nat := 0x1010008
def F.TB_NOW_LO_TICKS : Fld := ⟨R.TB_NOW_LO, 31, 0⟩
/-- `TB_NOW_HI` (02_raster_time). -/
def R.TB_NOW_HI : Nat := 0x101000c
def F.TB_NOW_HI_TICKS : Fld := ⟨R.TB_NOW_HI, 31, 0⟩
/-- `TB_SWTRIG` (02_raster_time). -/
def R.TB_SWTRIG : Nat := 0x1010010
def F.TB_SWTRIG_TRIG : Fld := ⟨R.TB_SWTRIG, 3, 0⟩
/-- `TB_Dn_CFG` (02_raster_time). -/
def R.TB_Dn_CFG (n : Nat) : Nat := 0x1010100 + n * 0x100
def F.TB_Dn_CFG_ANNOUNCE (n : Nat) : Fld := ⟨R.TB_Dn_CFG n, 21, 16⟩
def F.TB_Dn_CFG_EDGE (n : Nat) : Fld := ⟨R.TB_Dn_CFG n, 8, 8⟩
def F.TB_Dn_CFG_TRIG_SRC (n : Nat) : Fld := ⟨R.TB_Dn_CFG n, 3, 0⟩
/-- `TB_Dn_TURN` (02_raster_time). -/
def R.TB_Dn_TURN (n : Nat) : Nat := 0x1010104 + n * 0x100
def F.TB_Dn_TURN_LEN (n : Nat) : Fld := ⟨R.TB_Dn_TURN n, 19, 0⟩
/-- `TB_Dn_VTOT` (02_raster_time). -/
def R.TB_Dn_VTOT (n : Nat) : Nat := 0x1010108 + n * 0x100
def F.TB_Dn_VTOT_VT_MAX (n : Nat) : Fld := ⟨R.TB_Dn_VTOT n, 29, 16⟩
def F.TB_Dn_VTOT_VT_MIN (n : Nat) : Fld := ⟨R.TB_Dn_VTOT n, 13, 0⟩
/-- `TB_Dn_CONTENT` (02_raster_time). -/
def R.TB_Dn_CONTENT (n : Nat) : Nat := 0x101010c + n * 0x100
def F.TB_Dn_CONTENT_SUB (n : Nat) : Fld := ⟨R.TB_Dn_CONTENT n, 19, 16⟩
def F.TB_Dn_CONTENT_LINE (n : Nat) : Fld := ⟨R.TB_Dn_CONTENT n, 13, 0⟩
/-- `TB_Dn_ROUND_LO` (02_raster_time). -/
def R.TB_Dn_ROUND_LO (n : Nat) : Nat := 0x1010110 + n * 0x100
def F.TB_Dn_ROUND_LO_ROUND (n : Nat) : Fld := ⟨R.TB_Dn_ROUND_LO n, 31, 0⟩
/-- `TB_Dn_ROUND_HI` (02_raster_time). -/
def R.TB_Dn_ROUND_HI (n : Nat) : Nat := 0x1010114 + n * 0x100
def F.TB_Dn_ROUND_HI_ROUND (n : Nat) : Fld := ⟨R.TB_Dn_ROUND_HI n, 15, 0⟩
/-- `TB_Dn_POS` (02_raster_time). -/
def R.TB_Dn_POS (n : Nat) : Nat := 0x1010118 + n * 0x100
def F.TB_Dn_POS_REPEAT (n : Nat) : Fld := ⟨R.TB_Dn_POS n, 31, 31⟩
def F.TB_Dn_POS_RUN (n : Nat) : Fld := ⟨R.TB_Dn_POS n, 30, 30⟩
def F.TB_Dn_POS_TURN (n : Nat) : Fld := ⟨R.TB_Dn_POS n, 13, 0⟩
/-- `TB_Dn_TICK` (02_raster_time). -/
def R.TB_Dn_TICK (n : Nat) : Nat := 0x101011c + n * 0x100
def F.TB_Dn_TICK_TICK (n : Nat) : Fld := ⟨R.TB_Dn_TICK n, 19, 0⟩
/-- `TB_Dn_LAST` (02_raster_time). -/
def R.TB_Dn_LAST (n : Nat) : Nat := 0x1010120 + n * 0x100
def F.TB_Dn_LAST_REPEAT (n : Nat) : Fld := ⟨R.TB_Dn_LAST n, 31, 31⟩
def F.TB_Dn_LAST_TURNS (n : Nat) : Fld := ⟨R.TB_Dn_LAST n, 13, 0⟩
/-- `TB_Dn_COUNT` (02_raster_time). -/
def R.TB_Dn_COUNT (n : Nat) : Nat := 0x1010124 + n * 0x100
def F.TB_Dn_COUNT_REPEAT (n : Nat) : Fld := ⟨R.TB_Dn_COUNT n, 31, 0⟩
/-- `TB_Dn_LPHASE` (02_raster_time). -/
def R.TB_Dn_LPHASE (n : Nat) : Nat := 0x1010128 + n * 0x100
def F.TB_Dn_LPHASE_VALID (n : Nat) : Fld := ⟨R.TB_Dn_LPHASE n, 31, 31⟩
def F.TB_Dn_LPHASE_PHASE (n : Nat) : Fld := ⟨R.TB_Dn_LPHASE n, 19, 0⟩
/-- `TT_ROUND_LO` (02_raster_time). -/
def R.TT_ROUND_LO : Nat := 0x10000
def F.TT_ROUND_LO_ROUND : Fld := ⟨R.TT_ROUND_LO, 31, 0⟩
/-- `TT_ROUND_HI` (02_raster_time). -/
def R.TT_ROUND_HI : Nat := 0x10004
def F.TT_ROUND_HI_ROUND : Fld := ⟨R.TT_ROUND_HI, 15, 0⟩
/-- `TT_POS` (02_raster_time). -/
def R.TT_POS : Nat := 0x10008
def F.TT_POS_REPEAT : Fld := ⟨R.TT_POS, 31, 31⟩
def F.TT_POS_MARKED : Fld := ⟨R.TT_POS, 30, 30⟩
def F.TT_POS_TURN : Fld := ⟨R.TT_POS, 13, 0⟩
/-- `TT_CYCLE` (02_raster_time). -/
def R.TT_CYCLE : Nat := 0x1000c
def F.TT_CYCLE_BUDGET : Fld := ⟨R.TT_CYCLE, 31, 16⟩
def F.TT_CYCLE_CYCLE : Fld := ⟨R.TT_CYCLE, 15, 0⟩
/-- `TT_MARK` (02_raster_time). -/
def R.TT_MARK : Nat := 0x10010
def F.TT_MARK_MISS : Fld := ⟨R.TT_MARK, 31, 16⟩
def F.TT_MARK_RESYNC : Fld := ⟨R.TT_MARK, 15, 0⟩
/-- `GRID_CTRL` (04_grid). -/
def R.GRID_CTRL : Nat := 0x20000
def F.GRID_CTRL_QUARTER : Fld := ⟨R.GRID_CTRL, 0, 0⟩
/-- `GRID_STATUS` (04_grid). -/
def R.GRID_STATUS : Nat := 0x20004
def F.GRID_STATUS_QUARTER : Fld := ⟨R.GRID_STATUS, 16, 16⟩
def F.GRID_STATUS_PEND : Fld := ⟨R.GRID_STATUS, 12, 8⟩
def F.GRID_STATUS_BUSY : Fld := ⟨R.GRID_STATUS, 4, 0⟩
/-- `GRID_PASSES` (04_grid). -/
def R.GRID_PASSES : Nat := 0x20008
def F.GRID_PASSES_COUNT : Fld := ⟨R.GRID_PASSES, 31, 0⟩
/-- `GRID_DUP` (04_grid). -/
def R.GRID_DUP : Nat := 0x2000c
def F.GRID_DUP_COUNT : Fld := ⟨R.GRID_DUP, 31, 16⟩
def F.GRID_DUP_LAST_TAG : Fld := ⟨R.GRID_DUP, 4, 0⟩
/-- `GRID_FAULT` (04_grid). -/
def R.GRID_FAULT : Nat := 0x20010
def F.GRID_FAULT_VALID : Fld := ⟨R.GRID_FAULT, 31, 31⟩
def F.GRID_FAULT_UNIT : Fld := ⟨R.GRID_FAULT, 29, 24⟩
def F.GRID_FAULT_SRC : Fld := ⟨R.GRID_FAULT, 9, 8⟩
def F.GRID_FAULT_CODE : Fld := ⟨R.GRID_FAULT, 3, 0⟩
/-- `GRID_FAULT_DESC_LO` (04_grid). -/
def R.GRID_FAULT_DESC_LO : Nat := 0x20014
def F.GRID_FAULT_DESC_LO_ADDR : Fld := ⟨R.GRID_FAULT_DESC_LO, 31, 0⟩
/-- `GRID_FAULT_DESC_HI` (04_grid). -/
def R.GRID_FAULT_DESC_HI : Nat := 0x20018
def F.GRID_FAULT_DESC_HI_ADDR : Fld := ⟨R.GRID_FAULT_DESC_HI, 15, 0⟩
/-- `GRID_SCALE_BAD` (04_grid). -/
def R.GRID_SCALE_BAD : Nat := 0x2001c
def F.GRID_SCALE_BAD_COUNT : Fld := ⟨R.GRID_SCALE_BAD, 31, 0⟩
/-- `GRID_OCC_LO` (04_grid). -/
def R.GRID_OCC_LO : Nat := 0x20020
def F.GRID_OCC_LO_QCYC : Fld := ⟨R.GRID_OCC_LO, 31, 0⟩
/-- `GRID_OCC_HI` (04_grid). -/
def R.GRID_OCC_HI : Nat := 0x20024
def F.GRID_OCC_HI_QCYC : Fld := ⟨R.GRID_OCC_HI, 31, 0⟩
/-- `ACC_ROWS` (04_grid). -/
def R.ACC_ROWS : Nat := 0x30000
def F.ACC_ROWS_ROWS : Fld := ⟨R.ACC_ROWS, 10, 0⟩
/-- `ACC_ECC` (04_grid). -/
def R.ACC_ECC : Nat := 0x30004
def F.ACC_ECC_UE_CNT : Fld := ⟨R.ACC_ECC, 31, 16⟩
def F.ACC_ECC_CE_CNT : Fld := ⟨R.ACC_ECC, 15, 0⟩
/-- `ACC_ECC_ADDR` (04_grid). -/
def R.ACC_ECC_ADDR : Nat := 0x30008
def F.ACC_ECC_ADDR_VALID : Fld := ⟨R.ACC_ECC_ADDR, 31, 31⟩
def F.ACC_ECC_ADDR_POISON : Fld := ⟨R.ACC_ECC_ADDR, 30, 30⟩
def F.ACC_ECC_ADDR_ROW : Fld := ⟨R.ACC_ECC_ADDR, 25, 16⟩
def F.ACC_ECC_ADDR_COL : Fld := ⟨R.ACC_ECC_ADDR, 8, 0⟩
/-- `ACC_SCRUB` (04_grid). -/
def R.ACC_SCRUB : Nat := 0x3000c
def F.ACC_SCRUB_EN : Fld := ⟨R.ACC_SCRUB, 31, 31⟩
def F.ACC_SCRUB_PERIOD : Fld := ⟨R.ACC_SCRUB, 15, 0⟩
/-- `ACC_SCRUB_CNT` (04_grid). -/
def R.ACC_SCRUB_CNT : Nat := 0x30010
def F.ACC_SCRUB_CNT_SWEEPS : Fld := ⟨R.ACC_SCRUB_CNT, 31, 0⟩
/-- `ACC_INJECT` (04_grid). -/
def R.ACC_INJECT : Nat := 0x30014
def F.ACC_INJECT_ARM : Fld := ⟨R.ACC_INJECT, 31, 31⟩
def F.ACC_INJECT_KIND : Fld := ⟨R.ACC_INJECT, 29, 28⟩
def F.ACC_INJECT_ROW : Fld := ⟨R.ACC_INJECT, 25, 16⟩
def F.ACC_INJECT_COL : Fld := ⟨R.ACC_INJECT, 8, 0⟩
/-- `SPAD_SLICE_BYTES` (05_scratchpad). -/
def R.SPAD_SLICE_BYTES : Nat := 0x40000
def F.SPAD_SLICE_BYTES_BYTES : Fld := ⟨R.SPAD_SLICE_BYTES, 31, 0⟩
/-- `SPAD_SCRUB` (05_scratchpad). -/
def R.SPAD_SCRUB : Nat := 0x40004
def F.SPAD_SCRUB_EN : Fld := ⟨R.SPAD_SCRUB, 31, 31⟩
def F.SPAD_SCRUB_PERIOD : Fld := ⟨R.SPAD_SCRUB, 15, 0⟩
/-- `SPAD_ECC` (05_scratchpad). -/
def R.SPAD_ECC : Nat := 0x40008
def F.SPAD_ECC_UE_CNT : Fld := ⟨R.SPAD_ECC, 31, 16⟩
def F.SPAD_ECC_CE_CNT : Fld := ⟨R.SPAD_ECC, 15, 0⟩
/-- `SPAD_ECC_ADDR` (05_scratchpad). -/
def R.SPAD_ECC_ADDR : Nat := 0x4000c
def F.SPAD_ECC_ADDR_VALID : Fld := ⟨R.SPAD_ECC_ADDR, 31, 31⟩
def F.SPAD_ECC_ADDR_SLICE : Fld := ⟨R.SPAD_ECC_ADDR, 22, 19⟩
def F.SPAD_ECC_ADDR_WORD : Fld := ⟨R.SPAD_ECC_ADDR, 18, 0⟩
/-- `SPAD_EVT` (05_scratchpad). -/
def R.SPAD_EVT : Nat := 0x40010
def F.SPAD_EVT_UNINIT : Fld := ⟨R.SPAD_EVT, 31, 16⟩
def F.SPAD_EVT_WIN : Fld := ⟨R.SPAD_EVT, 15, 0⟩
/-- `SPAD_n_PWR_LO` (05_scratchpad). -/
def R.SPAD_n_PWR_LO (n : Nat) : Nat := 0x41000 + n * 0x400
def F.SPAD_n_PWR_LO_STATE (n : Nat) : Fld := ⟨R.SPAD_n_PWR_LO n, 31, 0⟩
/-- `SPAD_n_PWR_HI` (05_scratchpad). -/
def R.SPAD_n_PWR_HI (n : Nat) : Nat := 0x41004 + n * 0x400
def F.SPAD_n_PWR_HI_STATE (n : Nat) : Fld := ⟨R.SPAD_n_PWR_HI n, 31, 0⟩
/-- `SPAD_n_BANK` (05_scratchpad). -/
def R.SPAD_n_BANK (n : Nat) : Nat := 0x41008 + n * 0x400
def F.SPAD_n_BANK_INIT (n : Nat) : Fld := ⟨R.SPAD_n_BANK n, 31, 0⟩
/-- `SPAD_n_WIN_w` (05_scratchpad). -/
def R.SPAD_n_WIN_w (n w : Nat) : Nat := 0x41100 + n * 0x400 + w * 0x8
def F.SPAD_n_WIN_w_BOUND (n w : Nat) : Fld := ⟨R.SPAD_n_WIN_w n w, 31, 16⟩
def F.SPAD_n_WIN_w_BASE (n w : Nat) : Fld := ⟨R.SPAD_n_WIN_w n w, 15, 0⟩
/-- `SPAD_n_WIN_w_MASK` (05_scratchpad). -/
def R.SPAD_n_WIN_w_MASK (n w : Nat) : Nat := 0x41104 + n * 0x400 + w * 0x8
def F.SPAD_n_WIN_w_MASK_TOP (n w : Nat) : Fld := ⟨R.SPAD_n_WIN_w_MASK n w, 20, 20⟩
def F.SPAD_n_WIN_w_MASK_HALO (n w : Nat) : Fld := ⟨R.SPAD_n_WIN_w_MASK n w, 19, 16⟩
def F.SPAD_n_WIN_w_MASK_CORE (n w : Nat) : Fld := ⟨R.SPAD_n_WIN_w_MASK n w, 15, 0⟩
/-- `MOV_n_STATUS` (05_scratchpad). -/
def R.MOV_n_STATUS (n : Nat) : Nat := 0x100000 + n * 0x800
def F.MOV_n_STATUS_BUSY (n : Nat) : Fld := ⟨R.MOV_n_STATUS n, 31, 31⟩
def F.MOV_n_STATUS_QUEUED (n : Nat) : Fld := ⟨R.MOV_n_STATUS n, 22, 16⟩
def F.MOV_n_STATUS_OUTST (n : Nat) : Fld := ⟨R.MOV_n_STATUS n, 10, 0⟩
/-- `MOV_n_ERR` (05_scratchpad). -/
def R.MOV_n_ERR (n : Nat) : Nat := 0x100004 + n * 0x800
def F.MOV_n_ERR_VALID (n : Nat) : Fld := ⟨R.MOV_n_ERR n, 31, 31⟩
def F.MOV_n_ERR_CLASS (n : Nat) : Fld := ⟨R.MOV_n_ERR n, 30, 28⟩
def F.MOV_n_ERR_TASK (n : Nat) : Fld := ⟨R.MOV_n_ERR n, 27, 14⟩
def F.MOV_n_ERR_CODE (n : Nat) : Fld := ⟨R.MOV_n_ERR n, 3, 0⟩
/-- `BWR_n_c` (05_scratchpad). -/
def R.BWR_n_c (n c : Nat) : Nat := 0x120000 + n * 0x20 + c * 0x4
def F.BWR_n_c_UNLIM (n c : Nat) : Fld := ⟨R.BWR_n_c n c, 31, 31⟩
def F.BWR_n_c_DEPTH (n c : Nat) : Fld := ⟨R.BWR_n_c n c, 30, 16⟩
def F.BWR_n_c_RATE (n c : Nat) : Fld := ⟨R.BWR_n_c n c, 15, 0⟩
/-- `SHC_CTRL` (05_scratchpad). -/
def R.SHC_CTRL : Nat := 0x130000
def F.SHC_CTRL_EN : Fld := ⟨R.SHC_CTRL, 31, 31⟩
def F.SHC_CTRL_INV : Fld := ⟨R.SHC_CTRL, 0, 0⟩
/-- `SHC_HIT` (05_scratchpad). -/
def R.SHC_HIT : Nat := 0x130004
def F.SHC_HIT_COUNT : Fld := ⟨R.SHC_HIT, 31, 0⟩
/-- `SHC_MISS` (05_scratchpad). -/
def R.SHC_MISS : Nat := 0x130008
def F.SHC_MISS_COUNT : Fld := ⟨R.SHC_MISS, 31, 0⟩
/-- `SHC_WAYS_c` (05_scratchpad). -/
def R.SHC_WAYS_c (c : Nat) : Nat := 0x130010 + c * 0x4
def F.SHC_WAYS_c_MASK (c : Nat) : Fld := ⟨R.SHC_WAYS_c c, 15, 0⟩
/-- `QUE_RING_r_CFG` (05_scratchpad). -/
def R.QUE_RING_r_CFG (r : Nat) : Nat := 0x140000 + r * 0x8
def F.QUE_RING_r_CFG_SLICE (r : Nat) : Fld := ⟨R.QUE_RING_r_CFG r, 31, 28⟩
def F.QUE_RING_r_CFG_SLOTS (r : Nat) : Fld := ⟨R.QUE_RING_r_CFG r, 27, 22⟩
def F.QUE_RING_r_CFG_SIZE (r : Nat) : Fld := ⟨R.QUE_RING_r_CFG r, 21, 14⟩
def F.QUE_RING_r_CFG_BASE (r : Nat) : Fld := ⟨R.QUE_RING_r_CFG r, 13, 1⟩
def F.QUE_RING_r_CFG_EN (r : Nat) : Fld := ⟨R.QUE_RING_r_CFG r, 0, 0⟩
/-- `QUE_RING_r_PTR` (05_scratchpad). -/
def R.QUE_RING_r_PTR (r : Nat) : Nat := 0x140004 + r * 0x8
def F.QUE_RING_r_PTR_HEAD (r : Nat) : Fld := ⟨R.QUE_RING_r_PTR r, 29, 24⟩
def F.QUE_RING_r_PTR_TAIL (r : Nat) : Fld := ⟨R.QUE_RING_r_PTR r, 21, 16⟩
def F.QUE_RING_r_PTR_USED (r : Nat) : Fld := ⟨R.QUE_RING_r_PTR r, 6, 0⟩
/-- `QUE_HQ_q` (05_scratchpad). -/
def R.QUE_HQ_q (q : Nat) : Nat := 0x141000 + q * 0x4
def F.QUE_HQ_q_HEAD (q : Nat) : Fld := ⟨R.QUE_HQ_q q, 29, 24⟩
def F.QUE_HQ_q_TAIL (q : Nat) : Fld := ⟨R.QUE_HQ_q q, 21, 16⟩
def F.QUE_HQ_q_COUNT (q : Nat) : Fld := ⟨R.QUE_HQ_q q, 6, 0⟩
/-- `QUE_TALLY_i` (05_scratchpad). -/
def R.QUE_TALLY_i (i : Nat) : Nat := 0x142000 + i * 0x4
def F.QUE_TALLY_i_VALUE (i : Nat) : Fld := ⟨R.QUE_TALLY_i i, 31, 0⟩
/-- `QUE_STAT` (05_scratchpad). -/
def R.QUE_STAT : Nat := 0x143000
def F.QUE_STAT_STALE : Fld := ⟨R.QUE_STAT, 31, 16⟩
def F.QUE_STAT_BADH : Fld := ⟨R.QUE_STAT, 15, 0⟩
/-- `MC_CFG` (05_scratchpad). -/
def R.MC_CFG : Nat := 0x200000
def F.MC_CFG_RATE : Fld := ⟨R.MC_CFG, 31, 28⟩
def F.MC_CFG_MAP_N : Fld := ⟨R.MC_CFG, 20, 16⟩
def F.MC_CFG_IECC : Fld := ⟨R.MC_CFG, 2, 2⟩
def F.MC_CFG_ODECC : Fld := ⟨R.MC_CFG, 1, 1⟩
def F.MC_CFG_LECC : Fld := ⟨R.MC_CFG, 0, 0⟩
/-- `MC_HASH` (05_scratchpad). -/
def R.MC_HASH : Nat := 0x200004
def F.MC_HASH_KEYSUM : Fld := ⟨R.MC_HASH, 15, 0⟩
/-- `MC_RSV` (05_scratchpad). -/
def R.MC_RSV : Nat := 0x200008
def F.MC_RSV_SHARE : Fld := ⟨R.MC_RSV, 7, 0⟩
/-- `MC_IMB` (05_scratchpad). -/
def R.MC_IMB : Nat := 0x20000c
def F.MC_IMB_COUNT : Fld := ⟨R.MC_IMB, 31, 16⟩
def F.MC_IMB_LAST : Fld := ⟨R.MC_IMB, 15, 8⟩
def F.MC_IMB_THRESH : Fld := ⟨R.MC_IMB, 7, 0⟩
/-- `MC_ECC` (05_scratchpad). -/
def R.MC_ECC : Nat := 0x200010
def F.MC_ECC_UE : Fld := ⟨R.MC_ECC, 31, 16⟩
def F.MC_ECC_CE : Fld := ⟨R.MC_ECC, 15, 0⟩
/-- `MC_CHc_STAT` (05_scratchpad). -/
def R.MC_CHc_STAT (c : Nat) : Nat := 0x200100 + c * 0x4
def F.MC_CHc_STAT_STATE (c : Nat) : Fld := ⟨R.MC_CHc_STAT c, 31, 30⟩
def F.MC_CHc_STAT_RATE (c : Nat) : Fld := ⟨R.MC_CHc_STAT c, 27, 24⟩
/-- `VC_n_CTRL` (06_yuben_core). -/
def R.VC_n_CTRL (n : Nat) : Nat := 0x80000 + n * 0x1000
def F.VC_n_CTRL_BATCH_EN (n : Nat) : Fld := ⟨R.VC_n_CTRL n, 31, 31⟩
def F.VC_n_CTRL_LINE_END (n : Nat) : Fld := ⟨R.VC_n_CTRL n, 13, 0⟩
/-- `VC_n_STATUS` (06_yuben_core). -/
def R.VC_n_STATUS (n : Nat) : Nat := 0x80004 + n * 0x1000
def F.VC_n_STATUS_CTX (n : Nat) : Fld := ⟨R.VC_n_STATUS n, 31, 31⟩
def F.VC_n_STATUS_LINE_RUN (n : Nat) : Fld := ⟨R.VC_n_STATUS n, 30, 30⟩
def F.VC_n_STATUS_LINE_STOP (n : Nat) : Fld := ⟨R.VC_n_STATUS n, 29, 29⟩
def F.VC_n_STATUS_BATCH_RUN (n : Nat) : Fld := ⟨R.VC_n_STATUS n, 28, 28⟩
def F.VC_n_STATUS_PC (n : Nat) : Fld := ⟨R.VC_n_STATUS n, 13, 0⟩
/-- `VC_n_FAULT` (06_yuben_core). -/
def R.VC_n_FAULT (n : Nat) : Nat := 0x80008 + n * 0x1000
def F.VC_n_FAULT_VALID (n : Nat) : Fld := ⟨R.VC_n_FAULT n, 31, 31⟩
def F.VC_n_FAULT_CTX (n : Nat) : Fld := ⟨R.VC_n_FAULT n, 30, 30⟩
def F.VC_n_FAULT_CODE (n : Nat) : Fld := ⟨R.VC_n_FAULT n, 19, 16⟩
def F.VC_n_FAULT_PC (n : Nat) : Fld := ⟨R.VC_n_FAULT n, 13, 0⟩
/-- `VC_n_FAULT_INFO` (06_yuben_core). -/
def R.VC_n_FAULT_INFO (n : Nat) : Nat := 0x8000c + n * 0x1000
def F.VC_n_FAULT_INFO_INFO (n : Nat) : Fld := ⟨R.VC_n_FAULT_INFO n, 31, 0⟩
/-- `VC_n_EVT` (06_yuben_core). -/
def R.VC_n_EVT (n : Nat) : Nat := 0x80010 + n * 0x1000
def F.VC_n_EVT_ICE (n : Nat) : Fld := ⟨R.VC_n_EVT n, 31, 16⟩
def F.VC_n_EVT_LATE (n : Nat) : Fld := ⟨R.VC_n_EVT n, 15, 0⟩
/-- `VC_n_IADDR` (06_yuben_core). -/
def R.VC_n_IADDR (n : Nat) : Nat := 0x80020 + n * 0x1000
def F.VC_n_IADDR_INDEX (n : Nat) : Fld := ⟨R.VC_n_IADDR n, 13, 0⟩
/-- `VC_n_IDATA_LO` (06_yuben_core). -/
def R.VC_n_IDATA_LO (n : Nat) : Nat := 0x80024 + n * 0x1000
def F.VC_n_IDATA_LO_DATA (n : Nat) : Fld := ⟨R.VC_n_IDATA_LO n, 31, 0⟩
/-- `VC_n_IDATA_HI` (06_yuben_core). -/
def R.VC_n_IDATA_HI (n : Nat) : Nat := 0x80028 + n * 0x1000
def F.VC_n_IDATA_HI_DATA (n : Nat) : Fld := ⟨R.VC_n_IDATA_HI n, 31, 0⟩
/-- `TT_SEQ_STATUS` (08_move_lists). -/
def R.TT_SEQ_STATUS : Nat := 0x10100
def F.TT_SEQ_STATUS_STARTED : Fld := ⟨R.TT_SEQ_STATUS, 31, 31⟩
def F.TT_SEQ_STATUS_LIST : Fld := ⟨R.TT_SEQ_STATUS, 27, 24⟩
def F.TT_SEQ_STATUS_MOVES : Fld := ⟨R.TT_SEQ_STATUS, 16, 0⟩
/-- `TT_SEQ_BUDGET` (08_move_lists). -/
def R.TT_SEQ_BUDGET : Nat := 0x10104
def F.TT_SEQ_BUDGET_DECL : Fld := ⟨R.TT_SEQ_BUDGET, 31, 16⟩
def F.TT_SEQ_BUDGET_ISSUED : Fld := ⟨R.TT_SEQ_BUDGET, 15, 0⟩
/-- `TT_HOLD` (08_move_lists). -/
def R.TT_HOLD : Nat := 0x10108
def F.TT_HOLD_VALID : Fld := ⟨R.TT_HOLD, 31, 31⟩
def F.TT_HOLD_CAUSE : Fld := ⟨R.TT_HOLD, 30, 28⟩
def F.TT_HOLD_STREAM : Fld := ⟨R.TT_HOLD, 27, 22⟩
def F.TT_HOLD_RING : Fld := ⟨R.TT_HOLD, 21, 14⟩
def F.TT_HOLD_TURN : Fld := ⟨R.TT_HOLD, 13, 0⟩
/-- `TT_HOLD_CNT` (08_move_lists). -/
def R.TT_HOLD_CNT : Nat := 0x1010c
def F.TT_HOLD_CNT_COUNT : Fld := ⟨R.TT_HOLD_CNT, 31, 0⟩
/-- `TT_SEQ_EVT` (08_move_lists). -/
def R.TT_SEQ_EVT : Nat := 0x10110
def F.TT_SEQ_EVT_GATE : Fld := ⟨R.TT_SEQ_EVT, 31, 16⟩
def F.TT_SEQ_EVT_CONFLICT : Fld := ⟨R.TT_SEQ_EVT, 15, 0⟩
/-- `TT_VOID` (08_move_lists). -/
def R.TT_VOID : Nat := 0x10114
def F.TT_VOID_SLOTS : Fld := ⟨R.TT_VOID, 31, 16⟩
/-- `TASK_CTRL` (09_batch_work). -/
def R.TASK_CTRL : Nat := 0x180000
def F.TASK_CTRL_SCHED_EN : Fld := ⟨R.TASK_CTRL, 31, 31⟩
/-- `TASK_SEL` (09_batch_work). -/
def R.TASK_SEL : Nat := 0x180004
def F.TASK_SEL_SLOT : Fld := ⟨R.TASK_SEL, 13, 0⟩
/-- `TASK_COUNT` (09_batch_work). -/
def R.TASK_COUNT : Nat := 0x180008
def F.TASK_COUNT_RUNNING : Fld := ⟨R.TASK_COUNT, 20, 16⟩
def F.TASK_COUNT_READY : Fld := ⟨R.TASK_COUNT, 13, 0⟩
/-- `TASK_EVT` (09_batch_work). -/
def R.TASK_EVT : Nat := 0x18000c
def F.TASK_EVT_PREEMPT : Fld := ⟨R.TASK_EVT, 31, 16⟩
def F.TASK_EVT_SPILL : Fld := ⟨R.TASK_EVT, 15, 0⟩
/-- `TASK_EVT2` (09_batch_work). -/
def R.TASK_EVT2 : Nat := 0x180010
def F.TASK_EVT2_REDO : Fld := ⟨R.TASK_EVT2, 31, 16⟩
def F.TASK_EVT2_SAVEFAIL : Fld := ⟨R.TASK_EVT2, 15, 0⟩
/-- `TASK_FAULT` (09_batch_work). -/
def R.TASK_FAULT : Nat := 0x180014
def F.TASK_FAULT_VALID : Fld := ⟨R.TASK_FAULT, 31, 31⟩
def F.TASK_FAULT_SLOT : Fld := ⟨R.TASK_FAULT, 29, 16⟩
def F.TASK_FAULT_CODE : Fld := ⟨R.TASK_FAULT, 3, 0⟩
/-- `TASK_WIN_w` (09_batch_work). -/
def R.TASK_WIN_w (w : Nat) : Nat := 0x180100 + w * 0x4
def F.TASK_WIN_w_DATA (w : Nat) : Fld := ⟨R.TASK_WIN_w w, 31, 0⟩
/-- `TT_ADP_STATUS` (10_adaptation). -/
def R.TT_ADP_STATUS : Nat := 0x10200
def F.TT_ADP_STATUS_EN : Fld := ⟨R.TT_ADP_STATUS, 31, 31⟩
def F.TT_ADP_STATUS_MODE : Fld := ⟨R.TT_ADP_STATUS, 30, 30⟩
def F.TT_ADP_STATUS_LIVE : Fld := ⟨R.TT_ADP_STATUS, 29, 29⟩
def F.TT_ADP_STATUS_PEND : Fld := ⟨R.TT_ADP_STATUS, 28, 28⟩
def F.TT_ADP_STATUS_P : Fld := ⟨R.TT_ADP_STATUS, 27, 20⟩
def F.TT_ADP_STATUS_G : Fld := ⟨R.TT_ADP_STATUS, 19, 12⟩
def F.TT_ADP_STATUS_ADAPTERS : Fld := ⟨R.TT_ADP_STATUS, 4, 0⟩
/-- `TT_ADP_STEP` (10_adaptation). -/
def R.TT_ADP_STEP : Nat := 0x10204
def F.TT_ADP_STEP_STEP : Fld := ⟨R.TT_ADP_STEP, 31, 0⟩
/-- `TT_ADP_CNT` (10_adaptation). -/
def R.TT_ADP_CNT : Nat := 0x10208
def F.TT_ADP_CNT_COMMITS : Fld := ⟨R.TT_ADP_CNT, 31, 16⟩
def F.TT_ADP_CNT_SKIPS : Fld := ⟨R.TT_ADP_CNT, 15, 0⟩
/-- `TT_ADP_LAST` (10_adaptation). -/
def R.TT_ADP_LAST : Nat := 0x1020c
def F.TT_ADP_LAST_VALID : Fld := ⟨R.TT_ADP_LAST, 31, 31⟩
def F.TT_ADP_LAST_COMMIT : Fld := ⟨R.TT_ADP_LAST, 30, 30⟩
def F.TT_ADP_LAST_CAUSE : Fld := ⟨R.TT_ADP_LAST, 29, 27⟩
def F.TT_ADP_LAST_STEP : Fld := ⟨R.TT_ADP_LAST, 26, 0⟩
/-- `STR_n_CFG` (11_streams). -/
def R.STR_n_CFG (n : Nat) : Nat := 0x1020000 + n * 0x400
def F.STR_n_CFG_EN (n : Nat) : Fld := ⟨R.STR_n_CFG n, 31, 31⟩
def F.STR_n_CFG_KIND (n : Nat) : Fld := ⟨R.STR_n_CFG n, 30, 29⟩
def F.STR_n_CFG_ORDER (n : Nat) : Fld := ⟨R.STR_n_CFG n, 28, 28⟩
def F.STR_n_CFG_DOM (n : Nat) : Fld := ⟨R.STR_n_CFG n, 27, 26⟩
def F.STR_n_CFG_OUT (n : Nat) : Fld := ⟨R.STR_n_CFG n, 25, 24⟩
def F.STR_n_CFG_WB (n : Nat) : Fld := ⟨R.STR_n_CFG n, 23, 23⟩
def F.STR_n_CFG_WB_POINT (n : Nat) : Fld := ⟨R.STR_n_CFG n, 22, 22⟩
def F.STR_n_CFG_PRIO (n : Nat) : Fld := ⟨R.STR_n_CFG n, 15, 8⟩
/-- `STR_n_SIZE` (11_streams). -/
def R.STR_n_SIZE (n : Nat) : Nat := 0x1020004 + n * 0x400
def F.STR_n_SIZE_H (n : Nat) : Fld := ⟨R.STR_n_SIZE n, 31, 16⟩
def F.STR_n_SIZE_W (n : Nat) : Fld := ⟨R.STR_n_SIZE n, 15, 0⟩
/-- `STR_n_BG` (11_streams). -/
def R.STR_n_BG (n : Nat) : Nat := 0x1020008 + n * 0x400
def F.STR_n_BG_COLOUR (n : Nat) : Fld := ⟨R.STR_n_BG n, 31, 0⟩
/-- `STR_n_ORDER` (11_streams). -/
def R.STR_n_ORDER (n : Nat) : Nat := 0x102000c + n * 0x400
def F.STR_n_ORDER_LIST (n : Nat) : Fld := ⟨R.STR_n_ORDER n, 31, 0⟩
/-- `STR_n_OUT` (11_streams). -/
def R.STR_n_OUT (n : Nat) : Nat := 0x1020010 + n * 0x400
def F.STR_n_OUT_SUB (n : Nat) : Fld := ⟨R.STR_n_OUT n, 31, 28⟩
def F.STR_n_OUT_PORT (n : Nat) : Fld := ⟨R.STR_n_OUT n, 25, 24⟩
def F.STR_n_OUT_FSTREAM (n : Nat) : Fld := ⟨R.STR_n_OUT n, 21, 16⟩
def F.STR_n_OUT_FY (n : Nat) : Fld := ⟨R.STR_n_OUT n, 13, 8⟩
def F.STR_n_OUT_FX (n : Nat) : Fld := ⟨R.STR_n_OUT n, 5, 0⟩
/-- `STR_n_HOLD` (11_streams). -/
def R.STR_n_HOLD (n : Nat) : Nat := 0x1020014 + n * 0x400
def F.STR_n_HOLD_BASE (n : Nat) : Fld := ⟨R.STR_n_HOLD n, 31, 0⟩
/-- `STR_n_FRM_CFG` (11_streams). -/
def R.STR_n_FRM_CFG (n : Nat) : Nat := 0x1020018 + n * 0x400
def F.STR_n_FRM_CFG_SRC (n : Nat) : Fld := ⟨R.STR_n_FRM_CFG n, 31, 30⟩
def F.STR_n_FRM_CFG_SUB (n : Nat) : Fld := ⟨R.STR_n_FRM_CFG n, 29, 26⟩
def F.STR_n_FRM_CFG_NBUF (n : Nat) : Fld := ⟨R.STR_n_FRM_CFG n, 25, 24⟩
def F.STR_n_FRM_CFG_FMT (n : Nat) : Fld := ⟨R.STR_n_FRM_CFG n, 23, 20⟩
def F.STR_n_FRM_CFG_PITCH (n : Nat) : Fld := ⟨R.STR_n_FRM_CFG n, 15, 0⟩
/-- `STR_n_FRM_BASE` (11_streams). -/
def R.STR_n_FRM_BASE (n : Nat) : Nat := 0x102001c + n * 0x400
def F.STR_n_FRM_BASE_BASE (n : Nat) : Fld := ⟨R.STR_n_FRM_BASE n, 31, 0⟩
/-- `STR_n_STATUS` (11_streams). -/
def R.STR_n_STATUS (n : Nat) : Nat := 0x1020020 + n * 0x400
def F.STR_n_STATUS_SHED (n : Nat) : Fld := ⟨R.STR_n_STATUS n, 31, 31⟩
def F.STR_n_STATUS_HOLD (n : Nat) : Fld := ⟨R.STR_n_STATUS n, 30, 30⟩
def F.STR_n_STATUS_PIPES (n : Nat) : Fld := ⟨R.STR_n_STATUS n, 29, 28⟩
def F.STR_n_STATUS_PIPE0 (n : Nat) : Fld := ⟨R.STR_n_STATUS n, 27, 26⟩
def F.STR_n_STATUS_LINE (n : Nat) : Fld := ⟨R.STR_n_STATUS n, 13, 0⟩
/-- `STR_n_FRM_LAST` (11_streams). -/
def R.STR_n_FRM_LAST (n : Nat) : Nat := 0x1020024 + n * 0x400
def F.STR_n_FRM_LAST_BUF (n : Nat) : Fld := ⟨R.STR_n_FRM_LAST n, 31, 30⟩
def F.STR_n_FRM_LAST_FRAME (n : Nat) : Fld := ⟨R.STR_n_FRM_LAST n, 29, 0⟩
/-- `STR_n_EVT` (11_streams). -/
def R.STR_n_EVT (n : Nat) : Nat := 0x1020028 + n * 0x400
def F.STR_n_EVT_MISS (n : Nat) : Fld := ⟨R.STR_n_EVT n, 31, 16⟩
def F.STR_n_EVT_DROP (n : Nat) : Fld := ⟨R.STR_n_EVT n, 15, 0⟩
/-- `STR_n_Ll_CFG` (11_streams). -/
def R.STR_n_Ll_CFG (n l : Nat) : Nat := 0x1020100 + n * 0x400 + l * 0x20
def F.STR_n_Ll_CFG_EN (n l : Nat) : Fld := ⟨R.STR_n_Ll_CFG n l, 31, 31⟩
def F.STR_n_Ll_CFG_SRC (n l : Nat) : Fld := ⟨R.STR_n_Ll_CFG n l, 30, 29⟩
def F.STR_n_Ll_CFG_OPAQUE (n l : Nat) : Fld := ⟨R.STR_n_Ll_CFG n l, 28, 28⟩
def F.STR_n_Ll_CFG_PREMUL (n l : Nat) : Fld := ⟨R.STR_n_Ll_CFG n l, 27, 27⟩
def F.STR_n_Ll_CFG_CAP (n l : Nat) : Fld := ⟨R.STR_n_Ll_CFG n l, 25, 20⟩
def F.STR_n_Ll_CFG_FMT (n l : Nat) : Fld := ⟨R.STR_n_Ll_CFG n l, 19, 16⟩
def F.STR_n_Ll_CFG_PITCH (n l : Nat) : Fld := ⟨R.STR_n_Ll_CFG n l, 15, 0⟩
/-- `STR_n_Ll_POS` (11_streams). -/
def R.STR_n_Ll_POS (n l : Nat) : Nat := 0x1020104 + n * 0x400 + l * 0x20
def F.STR_n_Ll_POS_Y (n l : Nat) : Fld := ⟨R.STR_n_Ll_POS n l, 31, 16⟩
def F.STR_n_Ll_POS_X (n l : Nat) : Fld := ⟨R.STR_n_Ll_POS n l, 15, 0⟩
/-- `STR_n_Ll_SIZE` (11_streams). -/
def R.STR_n_Ll_SIZE (n l : Nat) : Nat := 0x1020108 + n * 0x400 + l * 0x20
def F.STR_n_Ll_SIZE_H (n l : Nat) : Fld := ⟨R.STR_n_Ll_SIZE n l, 31, 16⟩
def F.STR_n_Ll_SIZE_W (n l : Nat) : Fld := ⟨R.STR_n_Ll_SIZE n l, 15, 0⟩
/-- `STR_n_Ll_RANGE` (11_streams). -/
def R.STR_n_Ll_RANGE (n l : Nat) : Nat := 0x102010c + n * 0x400 + l * 0x20
def F.STR_n_Ll_RANGE_BASE (n l : Nat) : Fld := ⟨R.STR_n_Ll_RANGE n l, 31, 0⟩
/-- `STR_n_Ll_OFF` (11_streams). -/
def R.STR_n_Ll_OFF (n l : Nat) : Nat := 0x1020110 + n * 0x400 + l * 0x20
def F.STR_n_Ll_OFF_OFFSET (n l : Nat) : Fld := ⟨R.STR_n_Ll_OFF n l, 31, 0⟩
/-- `STR_n_Ll_EXT` (11_streams). -/
def R.STR_n_Ll_EXT (n l : Nat) : Nat := 0x1020114 + n * 0x400 + l * 0x20
def F.STR_n_Ll_EXT_RANGE_LEN (n l : Nat) : Fld := ⟨R.STR_n_Ll_EXT n l, 31, 17⟩
def F.STR_n_Ll_EXT_ALPHA (n l : Nat) : Fld := ⟨R.STR_n_Ll_EXT n l, 16, 0⟩
/-- `CMP_FLIP_STAT` (11_streams). -/
def R.CMP_FLIP_STAT : Nat := 0x1040000
def F.CMP_FLIP_STAT_PEND : Fld := ⟨R.CMP_FLIP_STAT, 5, 0⟩
/-- `CMP_FLIP_CNT` (11_streams). -/
def R.CMP_FLIP_CNT : Nat := 0x1040004
def F.CMP_FLIP_CNT_APPLIED : Fld := ⟨R.CMP_FLIP_CNT, 31, 16⟩
def F.CMP_FLIP_CNT_EXPIRED : Fld := ⟨R.CMP_FLIP_CNT, 15, 0⟩
/-- `CMP_LOAD` (11_streams). -/
def R.CMP_LOAD : Nat := 0x1040008
def F.CMP_LOAD_CAPTURE : Fld := ⟨R.CMP_LOAD, 31, 16⟩
def F.CMP_LOAD_FETCH : Fld := ⟨R.CMP_LOAD, 15, 0⟩
/-- `CMP_FENCE_k` (11_streams). -/
def R.CMP_FENCE_k (k : Nat) : Nat := 0x1040100 + k * 0x4
def F.CMP_FENCE_k_VALUE (k : Nat) : Fld := ⟨R.CMP_FENCE_k k, 31, 0⟩
/-- `TB_Dn_VSCAN` (12_finish_scanout). -/
def R.TB_Dn_VSCAN (n : Nat) : Nat := 0x1010140 + n * 0x100
def F.TB_Dn_VSCAN_V_START (n : Nat) : Fld := ⟨R.TB_Dn_VSCAN n, 29, 16⟩
def F.TB_Dn_VSCAN_VSW (n : Nat) : Fld := ⟨R.TB_Dn_VSCAN n, 7, 0⟩
/-- `TB_Dn_PSMON` (12_finish_scanout). -/
def R.TB_Dn_PSMON (n : Nat) : Nat := 0x1010144 + n * 0x100
def F.TB_Dn_PSMON_EN (n : Nat) : Fld := ⟨R.TB_Dn_PSMON n, 31, 31⟩
def F.TB_Dn_PSMON_LINES (n : Nat) : Fld := ⟨R.TB_Dn_PSMON n, 29, 16⟩
def F.TB_Dn_PSMON_PIN (n : Nat) : Fld := ⟨R.TB_Dn_PSMON n, 9, 8⟩
def F.TB_Dn_PSMON_EDGE (n : Nat) : Fld := ⟨R.TB_Dn_PSMON n, 0, 0⟩
/-- `TB_Dn_TEAR` (12_finish_scanout). -/
def R.TB_Dn_TEAR (n : Nat) : Nat := 0x1010148 + n * 0x100
def F.TB_Dn_TEAR_COUNT (n : Nat) : Fld := ⟨R.TB_Dn_TEAR n, 31, 0⟩
/-- `TB_Dn_PSPHASE` (12_finish_scanout). -/
def R.TB_Dn_PSPHASE (n : Nat) : Nat := 0x101014c + n * 0x100
def F.TB_Dn_PSPHASE_VALID (n : Nat) : Fld := ⟨R.TB_Dn_PSPHASE n, 31, 31⟩
def F.TB_Dn_PSPHASE_PHASE (n : Nat) : Fld := ⟨R.TB_Dn_PSPHASE n, 30, 0⟩
/-- `FIN_SCRUB` (12_finish_scanout). -/
def R.FIN_SCRUB : Nat := 0x1060000
def F.FIN_SCRUB_EN : Fld := ⟨R.FIN_SCRUB, 31, 31⟩
def F.FIN_SCRUB_PERIOD : Fld := ⟨R.FIN_SCRUB, 15, 0⟩
/-- `FIN_CV_ERR` (12_finish_scanout). -/
def R.FIN_CV_ERR : Nat := 0x1060004
def F.FIN_CV_ERR_VALID : Fld := ⟨R.FIN_CV_ERR, 31, 31⟩
def F.FIN_CV_ERR_SCRUB : Fld := ⟨R.FIN_CV_ERR, 30, 30⟩
def F.FIN_CV_ERR_STREAM : Fld := ⟨R.FIN_CV_ERR, 29, 24⟩
def F.FIN_CV_ERR_ENTRY : Fld := ⟨R.FIN_CV_ERR, 19, 0⟩
/-- `FIN_CV_CNT` (12_finish_scanout). -/
def R.FIN_CV_CNT : Nat := 0x1060008
def F.FIN_CV_CNT_PERR : Fld := ⟨R.FIN_CV_CNT, 31, 16⟩
def F.FIN_CV_CNT_REPAIR : Fld := ⟨R.FIN_CV_CNT, 15, 0⟩
/-- `FIN_n_CFG` (12_finish_scanout). -/
def R.FIN_n_CFG (n : Nat) : Nat := 0x1061000 + n * 0x80
def F.FIN_n_CFG_MAT_EN (n : Nat) : Fld := ⟨R.FIN_n_CFG n, 31, 31⟩
def F.FIN_n_CFG_CV_EN (n : Nat) : Fld := ⟨R.FIN_n_CFG n, 30, 30⟩
def F.FIN_n_CFG_GAIN_EN (n : Nat) : Fld := ⟨R.FIN_n_CFG n, 29, 29⟩
def F.FIN_n_CFG_DITH_EN (n : Nat) : Fld := ⟨R.FIN_n_CFG n, 28, 28⟩
def F.FIN_n_CFG_ITF (n : Nat) : Fld := ⟨R.FIN_n_CFG n, 26, 24⟩
def F.FIN_n_CFG_OTF (n : Nat) : Fld := ⟨R.FIN_n_CFG n, 22, 20⟩
def F.FIN_n_CFG_IDX (n : Nat) : Fld := ⟨R.FIN_n_CFG n, 19, 18⟩
def F.FIN_n_CFG_DEPTH (n : Nat) : Fld := ⟨R.FIN_n_CFG n, 12, 8⟩
/-- `FIN_n_NITS` (12_finish_scanout). -/
def R.FIN_n_NITS (n : Nat) : Nat := 0x1061004 + n * 0x80
def F.FIN_n_NITS_REF_NITS (n : Nat) : Fld := ⟨R.FIN_n_NITS n, 13, 0⟩
/-- `FIN_n_Mk` (12_finish_scanout). -/
def R.FIN_n_Mk (n k : Nat) : Nat := 0x1061010 + n * 0x80 + k * 0x4
def F.FIN_n_Mk_VALUE (n k : Nat) : Fld := ⟨R.FIN_n_Mk n k, 23, 0⟩
/-- `FIN_n_CV` (12_finish_scanout). -/
def R.FIN_n_CV (n : Nat) : Nat := 0x1061040 + n * 0x80
def F.FIN_n_CV_SIZE (n : Nat) : Fld := ⟨R.FIN_n_CV n, 22, 20⟩
def F.FIN_n_CV_BASE (n : Nat) : Fld := ⟨R.FIN_n_CV n, 19, 0⟩
/-- `FIN_n_GBASE` (12_finish_scanout). -/
def R.FIN_n_GBASE (n : Nat) : Nat := 0x1061044 + n * 0x80
def F.FIN_n_GBASE_BASE (n : Nat) : Fld := ⟨R.FIN_n_GBASE n, 31, 0⟩
/-- `FIN_n_GCFG` (12_finish_scanout). -/
def R.FIN_n_GCFG (n : Nat) : Nat := 0x1061048 + n * 0x80
def F.FIN_n_GCFG_GH (n : Nat) : Fld := ⟨R.FIN_n_GCFG n, 30, 28⟩
def F.FIN_n_GCFG_GW (n : Nat) : Fld := ⟨R.FIN_n_GCFG n, 26, 24⟩
def F.FIN_n_GCFG_PITCH (n : Nat) : Fld := ⟨R.FIN_n_GCFG n, 15, 0⟩
/-- `FIN_n_WALLX` (12_finish_scanout). -/
def R.FIN_n_WALLX (n : Nat) : Nat := 0x106104c + n * 0x80
def F.FIN_n_WALLX_X0 (n : Nat) : Fld := ⟨R.FIN_n_WALLX n, 31, 0⟩
/-- `FIN_n_WALLY` (12_finish_scanout). -/
def R.FIN_n_WALLY (n : Nat) : Nat := 0x1061050 + n * 0x80
def F.FIN_n_WALLY_Y0 (n : Nat) : Fld := ⟨R.FIN_n_WALLY n, 31, 0⟩
/-- `FIN_n_VIMG` (12_finish_scanout). -/
def R.FIN_n_VIMG (n : Nat) : Nat := 0x1061054 + n * 0x80
def F.FIN_n_VIMG_BASE (n : Nat) : Fld := ⟨R.FIN_n_VIMG n, 31, 0⟩
/-- `DCR_STAT` (12_finish_scanout). -/
def R.DCR_STAT : Nat := 0x1070000
def F.DCR_STAT_MISMATCH : Fld := ⟨R.DCR_STAT, 31, 16⟩
def F.DCR_STAT_ACTIVE : Fld := ⟨R.DCR_STAT, 9, 0⟩
/-- `DCR_k_CFG` (12_finish_scanout). -/
def R.DCR_k_CFG (k : Nat) : Nat := 0x1070100 + k * 0x20
def F.DCR_k_CFG_EN (k : Nat) : Fld := ⟨R.DCR_k_CFG k, 31, 31⟩
def F.DCR_k_CFG_IRQ (k : Nat) : Fld := ⟨R.DCR_k_CFG k, 30, 30⟩
def F.DCR_k_CFG_SKIP_REP (k : Nat) : Fld := ⟨R.DCR_k_CFG k, 29, 29⟩
def F.DCR_k_CFG_SKIP_HOLD (k : Nat) : Fld := ⟨R.DCR_k_CFG k, 28, 28⟩
def F.DCR_k_CFG_ERR (k : Nat) : Fld := ⟨R.DCR_k_CFG k, 27, 27⟩
def F.DCR_k_CFG_MATCH (k : Nat) : Fld := ⟨R.DCR_k_CFG k, 26, 26⟩
def F.DCR_k_CFG_STREAM (k : Nat) : Fld := ⟨R.DCR_k_CFG k, 21, 16⟩
/-- `DCR_k_POS` (12_finish_scanout). -/
def R.DCR_k_POS (k : Nat) : Nat := 0x1070104 + k * 0x20
def F.DCR_k_POS_Y (k : Nat) : Fld := ⟨R.DCR_k_POS k, 29, 16⟩
def F.DCR_k_POS_X (k : Nat) : Fld := ⟨R.DCR_k_POS k, 13, 0⟩
/-- `DCR_k_SIZE` (12_finish_scanout). -/
def R.DCR_k_SIZE (k : Nat) : Nat := 0x1070108 + k * 0x20
def F.DCR_k_SIZE_H (k : Nat) : Fld := ⟨R.DCR_k_SIZE k, 30, 16⟩
def F.DCR_k_SIZE_W (k : Nat) : Fld := ⟨R.DCR_k_SIZE k, 14, 0⟩
/-- `DCR_k_EXPECT` (12_finish_scanout). -/
def R.DCR_k_EXPECT (k : Nat) : Nat := 0x107010c + k * 0x20
def F.DCR_k_EXPECT_CRC (k : Nat) : Fld := ⟨R.DCR_k_EXPECT k, 31, 0⟩
/-- `DCR_k_LAST` (12_finish_scanout). -/
def R.DCR_k_LAST (k : Nat) : Nat := 0x1070110 + k * 0x20
def F.DCR_k_LAST_CRC (k : Nat) : Fld := ⟨R.DCR_k_LAST k, 31, 0⟩
/-- `DCR_k_ROUND` (12_finish_scanout). -/
def R.DCR_k_ROUND (k : Nat) : Nat := 0x1070114 + k * 0x20
def F.DCR_k_ROUND_ROUND (k : Nat) : Fld := ⟨R.DCR_k_ROUND k, 31, 0⟩
/-- `DPI_p_CFG` (13_video_ports). -/
def R.DPI_p_CFG (p : Nat) : Nat := 0x1080000 + p * 0x100
def F.DPI_p_CFG_EN (p : Nat) : Fld := ⟨R.DPI_p_CFG p, 31, 31⟩
def F.DPI_p_CFG_MST (p : Nat) : Fld := ⟨R.DPI_p_CFG p, 30, 30⟩
def F.DPI_p_CFG_DSC (p : Nat) : Fld := ⟨R.DPI_p_CFG p, 29, 29⟩
def F.DPI_p_CFG_ASYNC (p : Nat) : Fld := ⟨R.DPI_p_CFG p, 28, 28⟩
def F.DPI_p_CFG_RATE (p : Nat) : Fld := ⟨R.DPI_p_CFG p, 7, 4⟩
def F.DPI_p_CFG_LANES (p : Nat) : Fld := ⟨R.DPI_p_CFG p, 3, 0⟩
/-- `DPI_p_STATUS` (13_video_ports). -/
def R.DPI_p_STATUS (p : Nat) : Nat := 0x1080004 + p * 0x100
def F.DPI_p_STATUS_HPD (p : Nat) : Fld := ⟨R.DPI_p_STATUS p, 31, 31⟩
def F.DPI_p_STATUS_TRAINED (p : Nat) : Fld := ⟨R.DPI_p_STATUS p, 30, 30⟩
def F.DPI_p_STATUS_MST (p : Nat) : Fld := ⟨R.DPI_p_STATUS p, 29, 29⟩
def F.DPI_p_STATUS_DSC (p : Nat) : Fld := ⟨R.DPI_p_STATUS p, 28, 28⟩
def F.DPI_p_STATUS_SUBS (p : Nat) : Fld := ⟨R.DPI_p_STATUS p, 24, 20⟩
def F.DPI_p_STATUS_RATE (p : Nat) : Fld := ⟨R.DPI_p_STATUS p, 7, 4⟩
def F.DPI_p_STATUS_LANES (p : Nat) : Fld := ⟨R.DPI_p_STATUS p, 3, 0⟩
/-- `DPO_p_CFG` (13_video_ports). -/
def R.DPO_p_CFG (p : Nat) : Nat := 0x1090000 + p * 0x100
def F.DPO_p_CFG_EN (p : Nat) : Fld := ⟨R.DPO_p_CFG p, 31, 31⟩
def F.DPO_p_CFG_MST (p : Nat) : Fld := ⟨R.DPO_p_CFG p, 30, 30⟩
def F.DPO_p_CFG_DSC (p : Nat) : Fld := ⟨R.DPO_p_CFG p, 29, 29⟩
def F.DPO_p_CFG_IDLE (p : Nat) : Fld := ⟨R.DPO_p_CFG p, 28, 28⟩
def F.DPO_p_CFG_TILE (p : Nat) : Fld := ⟨R.DPO_p_CFG p, 24, 24⟩
def F.DPO_p_CFG_RATE (p : Nat) : Fld := ⟨R.DPO_p_CFG p, 23, 20⟩
def F.DPO_p_CFG_LANES (p : Nat) : Fld := ⟨R.DPO_p_CFG p, 19, 16⟩
def F.DPO_p_CFG_COL (p : Nat) : Fld := ⟨R.DPO_p_CFG p, 15, 14⟩
def F.DPO_p_CFG_TSTREAM (p : Nat) : Fld := ⟨R.DPO_p_CFG p, 13, 8⟩
/-- `DPO_p_TIM` (13_video_ports). -/
def R.DPO_p_TIM (p : Nat) : Nat := 0x1090004 + p * 0x100
def F.DPO_p_TIM_HTOTAL (p : Nat) : Fld := ⟨R.DPO_p_TIM p, 31, 16⟩
def F.DPO_p_TIM_HSW (p : Nat) : Fld := ⟨R.DPO_p_TIM p, 7, 0⟩
/-- `DPO_p_TILE` (13_video_ports). -/
def R.DPO_p_TILE (p : Nat) : Nat := 0x1090008 + p * 0x100
def F.DPO_p_TILE_TW (p : Nat) : Fld := ⟨R.DPO_p_TILE p, 29, 16⟩
def F.DPO_p_TILE_X0 (p : Nat) : Fld := ⟨R.DPO_p_TILE p, 13, 0⟩
/-- `DPO_p_DSC` (13_video_ports). -/
def R.DPO_p_DSC (p : Nat) : Nat := 0x109000c + p * 0x100
def F.DPO_p_DSC_SLICES (p : Nat) : Fld := ⟨R.DPO_p_DSC p, 31, 27⟩
def F.DPO_p_DSC_SLICE_H (p : Nat) : Fld := ⟨R.DPO_p_DSC p, 26, 14⟩
def F.DPO_p_DSC_BPP (p : Nat) : Fld := ⟨R.DPO_p_DSC p, 9, 0⟩
/-- `DPO_p_STATUS` (13_video_ports). -/
def R.DPO_p_STATUS (p : Nat) : Nat := 0x1090010 + p * 0x100
def F.DPO_p_STATUS_HPD (p : Nat) : Fld := ⟨R.DPO_p_STATUS p, 31, 31⟩
def F.DPO_p_STATUS_TRAINED (p : Nat) : Fld := ⟨R.DPO_p_STATUS p, 30, 30⟩
def F.DPO_p_STATUS_VIDEO (p : Nat) : Fld := ⟨R.DPO_p_STATUS p, 29, 29⟩
def F.DPO_p_STATUS_SINK_ASYNC (p : Nat) : Fld := ⟨R.DPO_p_STATUS p, 28, 28⟩
def F.DPO_p_STATUS_SINK_DSC (p : Nat) : Fld := ⟨R.DPO_p_STATUS p, 27, 27⟩
def F.DPO_p_STATUS_LOSS (p : Nat) : Fld := ⟨R.DPO_p_STATUS p, 23, 16⟩
def F.DPO_p_STATUS_RATE (p : Nat) : Fld := ⟨R.DPO_p_STATUS p, 7, 4⟩
def F.DPO_p_STATUS_LANES (p : Nat) : Fld := ⟨R.DPO_p_STATUS p, 3, 0⟩
/-- `TB_SYNC_OUT` (13_video_ports). -/
def R.TB_SYNC_OUT : Nat := 0x1010040
def F.TB_SYNC_OUT_EN_F : Fld := ⟨R.TB_SYNC_OUT, 31, 31⟩
def F.TB_SYNC_OUT_EN_L : Fld := ⟨R.TB_SYNC_OUT, 30, 30⟩
def F.TB_SYNC_OUT_POL : Fld := ⟨R.TB_SYNC_OUT, 29, 29⟩
def F.TB_SYNC_OUT_DOM : Fld := ⟨R.TB_SYNC_OUT, 25, 24⟩
def F.TB_SYNC_OUT_WF : Fld := ⟨R.TB_SYNC_OUT, 23, 16⟩
def F.TB_SYNC_OUT_WL : Fld := ⟨R.TB_SYNC_OUT, 9, 0⟩
/-- `FAB_CTRL` (14_fabric). -/
def R.FAB_CTRL : Nat := 0x10a0000
def F.FAB_CTRL_BOOT_SERVE : Fld := ⟨R.FAB_CTRL, 31, 31⟩
def F.FAB_CTRL_PORT_EN : Fld := ⟨R.FAB_CTRL, 3, 0⟩
/-- `FAB_STATUS` (14_fabric). -/
def R.FAB_STATUS : Nat := 0x10a0004
def F.FAB_STATUS_JOINED : Fld := ⟨R.FAB_STATUS, 31, 31⟩
def F.FAB_STATUS_ORIGIN : Fld := ⟨R.FAB_STATUS, 30, 30⟩
def F.FAB_STATUS_DETACHED : Fld := ⟨R.FAB_STATUS, 29, 29⟩
def F.FAB_STATUS_EDGE : Fld := ⟨R.FAB_STATUS, 19, 16⟩
def F.FAB_STATUS_UP : Fld := ⟨R.FAB_STATUS, 15, 12⟩
def F.FAB_STATUS_DEPTH : Fld := ⟨R.FAB_STATUS, 6, 0⟩
/-- `FAB_COORD` (14_fabric). -/
def R.FAB_COORD : Nat := 0x10a0008
def F.FAB_COORD_Y : Fld := ⟨R.FAB_COORD, 13, 8⟩
def F.FAB_COORD_X : Fld := ⟨R.FAB_COORD, 5, 0⟩
/-- `FAB_WALL` (14_fabric). -/
def R.FAB_WALL : Nat := 0x10a000c
def F.FAB_WALL_DEVICES : Fld := ⟨R.FAB_WALL, 12, 0⟩
/-- `FAB_PARENT` (14_fabric). -/
def R.FAB_PARENT : Nat := 0x10a0010
def F.FAB_PARENT_VALID : Fld := ⟨R.FAB_PARENT, 31, 31⟩
def F.FAB_PARENT_PORT : Fld := ⟨R.FAB_PARENT, 1, 0⟩
/-- `FAB_VER` (14_fabric). -/
def R.FAB_VER : Nat := 0x10a0014
def F.FAB_VER_VERSION : Fld := ⟨R.FAB_VER, 7, 0⟩
/-- `FAB_EXPORT` (14_fabric). -/
def R.FAB_EXPORT : Nat := 0x10a0020
def F.FAB_EXPORT_EN : Fld := ⟨R.FAB_EXPORT, 31, 31⟩
def F.FAB_EXPORT_WEN : Fld := ⟨R.FAB_EXPORT, 30, 30⟩
def F.FAB_EXPORT_BASE : Fld := ⟨R.FAB_EXPORT, 27, 0⟩
/-- `FAB_TIME` (14_fabric). -/
def R.FAB_TIME : Nat := 0x10a0024
def F.FAB_TIME_LOCK : Fld := ⟨R.FAB_TIME, 31, 31⟩
def F.FAB_TIME_STEER : Fld := ⟨R.FAB_TIME, 15, 0⟩
/-- `FAB_TIME_OFS` (14_fabric). -/
def R.FAB_TIME_OFS : Nat := 0x10a0028
def F.FAB_TIME_OFS_OFFSET : Fld := ⟨R.FAB_TIME_OFS, 31, 0⟩
/-- `FAB_TIME_CNT` (14_fabric). -/
def R.FAB_TIME_CNT : Nat := 0x10a002c
def F.FAB_TIME_CNT_SWITCH : Fld := ⟨R.FAB_TIME_CNT, 31, 16⟩
def F.FAB_TIME_CNT_MISS : Fld := ⟨R.FAB_TIME_CNT, 15, 0⟩
/-- `FAB_EVT` (14_fabric). -/
def R.FAB_EVT : Nat := 0x10a0030
def F.FAB_EVT_DROP : Fld := ⟨R.FAB_EVT, 31, 16⟩
def F.FAB_EVT_REFUSED : Fld := ⟨R.FAB_EVT, 15, 0⟩
/-- `FAB_Pp_STATUS` (14_fabric). -/
def R.FAB_Pp_STATUS (p : Nat) : Nat := 0x10a0100 + p * 0x20
def F.FAB_Pp_STATUS_UP (p : Nat) : Fld := ⟨R.FAB_Pp_STATUS p, 31, 31⟩
def F.FAB_Pp_STATUS_EDGE (p : Nat) : Fld := ⟨R.FAB_Pp_STATUS p, 30, 30⟩
def F.FAB_Pp_STATUS_MISWIRED (p : Nat) : Fld := ⟨R.FAB_Pp_STATUS p, 29, 29⟩
def F.FAB_Pp_STATUS_LANES (p : Nat) : Fld := ⟨R.FAB_Pp_STATUS p, 19, 16⟩
def F.FAB_Pp_STATUS_PEER_Y (p : Nat) : Fld := ⟨R.FAB_Pp_STATUS p, 13, 8⟩
def F.FAB_Pp_STATUS_PEER_X (p : Nat) : Fld := ⟨R.FAB_Pp_STATUS p, 5, 0⟩
/-- `FAB_Pp_DELAY` (14_fabric). -/
def R.FAB_Pp_DELAY (p : Nat) : Nat := 0x10a0104 + p * 0x20
def F.FAB_Pp_DELAY_DELAY (p : Nat) : Fld := ⟨R.FAB_Pp_DELAY p, 31, 0⟩
/-- `FAB_Pp_ERR` (14_fabric). -/
def R.FAB_Pp_ERR (p : Nat) : Nat := 0x10a0108 + p * 0x20
def F.FAB_Pp_ERR_REPLAY (p : Nat) : Fld := ⟨R.FAB_Pp_ERR p, 31, 16⟩
def F.FAB_Pp_ERR_CRC (p : Nat) : Fld := ⟨R.FAB_Pp_ERR p, 15, 0⟩
/-- `FAB_Pp_LOSS` (14_fabric). -/
def R.FAB_Pp_LOSS (p : Nat) : Nat := 0x10a010c + p * 0x20
def F.FAB_Pp_LOSS_COUNT (p : Nat) : Fld := ⟨R.FAB_Pp_LOSS p, 31, 16⟩
def F.FAB_Pp_LOSS_CAUSE (p : Nat) : Fld := ⟨R.FAB_Pp_LOSS p, 2, 0⟩
/-- `FAB_DETOUR_i_LO` (14_fabric). -/
def R.FAB_DETOUR_i_LO (i : Nat) : Nat := 0x10a0200 + i * 0x8
def F.FAB_DETOUR_i_LO_VALID (i : Nat) : Fld := ⟨R.FAB_DETOUR_i_LO i, 31, 31⟩
def F.FAB_DETOUR_i_LO_XHI (i : Nat) : Fld := ⟨R.FAB_DETOUR_i_LO i, 29, 24⟩
def F.FAB_DETOUR_i_LO_XLO (i : Nat) : Fld := ⟨R.FAB_DETOUR_i_LO i, 21, 16⟩
def F.FAB_DETOUR_i_LO_YHI (i : Nat) : Fld := ⟨R.FAB_DETOUR_i_LO i, 13, 8⟩
def F.FAB_DETOUR_i_LO_YLO (i : Nat) : Fld := ⟨R.FAB_DETOUR_i_LO i, 5, 0⟩
/-- `FAB_DETOUR_i_HI` (14_fabric). -/
def R.FAB_DETOUR_i_HI (i : Nat) : Nat := 0x10a0204 + i * 0x8
def F.FAB_DETOUR_i_HI_PORT (i : Nat) : Fld := ⟨R.FAB_DETOUR_i_HI i, 1, 0⟩
/-- `PCI_STATUS` (15_host_rulebook). -/
def R.PCI_STATUS : Nat := 0x10c0000
def F.PCI_STATUS_BME : Fld := ⟨R.PCI_STATUS, 31, 31⟩
def F.PCI_STATUS_D3 : Fld := ⟨R.PCI_STATUS, 30, 30⟩
def F.PCI_STATUS_ASPM : Fld := ⟨R.PCI_STATUS, 26, 24⟩
def F.PCI_STATUS_WIDTH : Fld := ⟨R.PCI_STATUS, 7, 4⟩
def F.PCI_STATUS_GEN : Fld := ⟨R.PCI_STATUS, 3, 0⟩
/-- `PCI_BAR2_WIN` (15_host_rulebook). -/
def R.PCI_BAR2_WIN : Nat := 0x10c0004
def F.PCI_BAR2_WIN_BASE : Fld := ⟨R.PCI_BAR2_WIN, 5, 0⟩
/-- `PCI_HWIN_LO` (15_host_rulebook). -/
def R.PCI_HWIN_LO : Nat := 0x10c0008
def F.PCI_HWIN_LO_ADDR : Fld := ⟨R.PCI_HWIN_LO, 31, 12⟩
/-- `PCI_HWIN_HI` (15_host_rulebook). -/
def R.PCI_HWIN_HI : Nat := 0x10c000c
def F.PCI_HWIN_HI_ADDR : Fld := ⟨R.PCI_HWIN_HI, 31, 0⟩
/-- `PCI_EVT` (15_host_rulebook). -/
def R.PCI_EVT : Nat := 0x10c0010
def F.PCI_EVT_REFUSED : Fld := ⟨R.PCI_EVT, 31, 16⟩
def F.PCI_EVT_FLR : Fld := ⟨R.PCI_EVT, 15, 0⟩
/-- `CMD_CTRL` (15_host_rulebook). -/
def R.CMD_CTRL : Nat := 0x10c8000
def F.CMD_CTRL_EN : Fld := ⟨R.CMD_CTRL, 31, 31⟩
def F.CMD_CTRL_POLL : Fld := ⟨R.CMD_CTRL, 7, 0⟩
/-- `CMD_NEXT` (15_host_rulebook). -/
def R.CMD_NEXT : Nat := 0x10c8004
def F.CMD_NEXT_SEQ : Fld := ⟨R.CMD_NEXT, 31, 0⟩
/-- `CMD_CPL_LO` (15_host_rulebook). -/
def R.CMD_CPL_LO : Nat := 0x10c8008
def F.CMD_CPL_LO_ADDR : Fld := ⟨R.CMD_CPL_LO, 31, 12⟩
def F.CMD_CPL_LO_EN : Fld := ⟨R.CMD_CPL_LO, 0, 0⟩
/-- `CMD_CPL_HI` (15_host_rulebook). -/
def R.CMD_CPL_HI : Nat := 0x10c800c
def F.CMD_CPL_HI_ADDR : Fld := ⟨R.CMD_CPL_HI, 31, 0⟩
/-- `CMD_CNT_LO` (15_host_rulebook). -/
def R.CMD_CNT_LO : Nat := 0x10c8010
def F.CMD_CNT_LO_ADDR : Fld := ⟨R.CMD_CNT_LO, 31, 3⟩
/-- `CMD_CNT_HI` (15_host_rulebook). -/
def R.CMD_CNT_HI : Nat := 0x10c8014
def F.CMD_CNT_HI_ADDR : Fld := ⟨R.CMD_CNT_HI, 31, 0⟩
/-- `CMD_CPL_WR` (15_host_rulebook). -/
def R.CMD_CPL_WR : Nat := 0x10c8018
def F.CMD_CPL_WR_COUNT : Fld := ⟨R.CMD_CPL_WR, 31, 0⟩
/-- `CMD_CPL_ACK` (15_host_rulebook). -/
def R.CMD_CPL_ACK : Nat := 0x10c801c
def F.CMD_CPL_ACK_COUNT : Fld := ⟨R.CMD_CPL_ACK, 31, 0⟩
/-- `CMD_PEND` (15_host_rulebook). -/
def R.CMD_PEND : Nat := 0x10c8020
def F.CMD_PEND_BG : Fld := ⟨R.CMD_PEND, 13, 8⟩
def F.CMD_PEND_DUE : Fld := ⟨R.CMD_PEND, 6, 0⟩
/-- `CMD_LEVEL` (15_host_rulebook). -/
def R.CMD_LEVEL : Nat := 0x10c8024
def F.CMD_LEVEL_AGREED : Fld := ⟨R.CMD_LEVEL, 31, 31⟩
def F.CMD_LEVEL_YUBEN : Fld := ⟨R.CMD_LEVEL, 15, 8⟩
def F.CMD_LEVEL_CMDSET : Fld := ⟨R.CMD_LEVEL, 7, 0⟩
/-- `CMD_IRQ` (15_host_rulebook). -/
def R.CMD_IRQ : Nat := 0x10c8028
def F.CMD_IRQ_CAP : Fld := ⟨R.CMD_IRQ, 4, 4⟩
def F.CMD_IRQ_THERM : Fld := ⟨R.CMD_IRQ, 3, 3⟩
def F.CMD_IRQ_FAB : Fld := ⟨R.CMD_IRQ, 2, 2⟩
def F.CMD_IRQ_LEDGER : Fld := ⟨R.CMD_IRQ, 1, 1⟩
def F.CMD_IRQ_DCR : Fld := ⟨R.CMD_IRQ, 0, 0⟩
/-- `CMD_IRQ_EN` (15_host_rulebook). -/
def R.CMD_IRQ_EN : Nat := 0x10c802c
def F.CMD_IRQ_EN_EN : Fld := ⟨R.CMD_IRQ_EN, 4, 0⟩
/-- `SEC_STATUS` (16_security). -/
def R.SEC_STATUS : Nat := 0x10d0000
def F.SEC_STATUS_LC : Fld := ⟨R.SEC_STATUS, 31, 30⟩
def F.SEC_STATUS_LC_PEND : Fld := ⟨R.SEC_STATUS, 29, 29⟩
def F.SEC_STATUS_PROV : Fld := ⟨R.SEC_STATUS, 28, 28⟩
def F.SEC_STATUS_FUSE_PWR : Fld := ⟨R.SEC_STATUS, 27, 27⟩
def F.SEC_STATUS_RNG_OK : Fld := ⟨R.SEC_STATUS, 26, 26⟩
def F.SEC_STATUS_CONF : Fld := ⟨R.SEC_STATUS, 25, 25⟩
def F.SEC_STATUS_KEYS_OFF : Fld := ⟨R.SEC_STATUS, 24, 24⟩
def F.SEC_STATUS_PKH : Fld := ⟨R.SEC_STATUS, 23, 20⟩
def F.SEC_STATUS_AESK : Fld := ⟨R.SEC_STATUS, 19, 16⟩
/-- `SEC_DEBUG` (16_security). -/
def R.SEC_DEBUG : Nat := 0x10d0004
def F.SEC_DEBUG_LEVEL : Fld := ⟨R.SEC_DEBUG, 31, 30⟩
def F.SEC_DEBUG_CERT : Fld := ⟨R.SEC_DEBUG, 29, 29⟩
def F.SEC_DEBUG_PERMS : Fld := ⟨R.SEC_DEBUG, 17, 12⟩
def F.SEC_DEBUG_KEY : Fld := ⟨R.SEC_DEBUG, 9, 8⟩
def F.SEC_DEBUG_NONCE : Fld := ⟨R.SEC_DEBUG, 0, 0⟩
/-- `SEC_ATT` (16_security). -/
def R.SEC_ATT : Nat := 0x10d0008
def F.SEC_ATT_USED : Fld := ⟨R.SEC_ATT, 31, 16⟩
def F.SEC_ATT_SES_LEFT : Fld := ⟨R.SEC_ATT, 5, 0⟩
/-- `SEC_OTP_ADDR` (16_security). -/
def R.SEC_OTP_ADDR : Nat := 0x10d0010
def F.SEC_OTP_ADDR_WORD : Fld := ⟨R.SEC_OTP_ADDR, 12, 2⟩
/-- `SEC_OTP_DATA` (16_security). -/
def R.SEC_OTP_DATA : Nat := 0x10d0014
def F.SEC_OTP_DATA_DATA : Fld := ⟨R.SEC_OTP_DATA, 31, 0⟩
/-- `SEC_OTP_CMD` (16_security). -/
def R.SEC_OTP_CMD : Nat := 0x10d0018
def F.SEC_OTP_CMD_BUSY : Fld := ⟨R.SEC_OTP_CMD, 31, 31⟩
def F.SEC_OTP_CMD_ERR : Fld := ⟨R.SEC_OTP_CMD, 27, 24⟩
def F.SEC_OTP_CMD_CMD : Fld := ⟨R.SEC_OTP_CMD, 2, 0⟩
/-- `SEC_CONF` (16_security). -/
def R.SEC_CONF : Nat := 0x10d001c
def F.SEC_CONF_COUNT : Fld := ⟨R.SEC_CONF, 5, 0⟩
/-- `SEC_NONCE_i` (16_security). -/
def R.SEC_NONCE_i (i : Nat) : Nat := 0x10d0020 + i * 0x4
def F.SEC_NONCE_i_NONCE (i : Nat) : Fld := ⟨R.SEC_NONCE_i i, 31, 0⟩
/-- `DBG_CTRL` (16_security). -/
def R.DBG_CTRL : Nat := 0x1100000
def F.DBG_CTRL_HALT : Fld := ⟨R.DBG_CTRL, 31, 16⟩
def F.DBG_CTRL_STEP : Fld := ⟨R.DBG_CTRL, 15, 0⟩
/-- `DBG_STATUS` (16_security). -/
def R.DBG_STATUS : Nat := 0x1100004
def F.DBG_STATUS_HALTED : Fld := ⟨R.DBG_STATUS, 31, 16⟩
def F.DBG_STATUS_MEM_ERR : Fld := ⟨R.DBG_STATUS, 0, 0⟩
/-- `DBG_MEM_ADDR_LO` (16_security). -/
def R.DBG_MEM_ADDR_LO : Nat := 0x1100008
def F.DBG_MEM_ADDR_LO_ADDR : Fld := ⟨R.DBG_MEM_ADDR_LO, 31, 3⟩
/-- `DBG_MEM_ADDR_HI` (16_security). -/
def R.DBG_MEM_ADDR_HI : Nat := 0x110000c
def F.DBG_MEM_ADDR_HI_ADDR : Fld := ⟨R.DBG_MEM_ADDR_HI, 15, 0⟩
/-- `DBG_MEM_DATA_LO` (16_security). -/
def R.DBG_MEM_DATA_LO : Nat := 0x1100010
def F.DBG_MEM_DATA_LO_DATA : Fld := ⟨R.DBG_MEM_DATA_LO, 31, 0⟩
/-- `DBG_MEM_DATA_HI` (16_security). -/
def R.DBG_MEM_DATA_HI : Nat := 0x1100014
def F.DBG_MEM_DATA_HI_DATA : Fld := ⟨R.DBG_MEM_DATA_HI, 31, 0⟩
/-- `PWR_STATE` (17_power_boot). -/
def R.PWR_STATE : Nat := 0x10e0000
def F.PWR_STATE_BUSY : Fld := ⟨R.PWR_STATE, 31, 31⟩
def F.PWR_STATE_THERM_HOLD : Fld := ⟨R.PWR_STATE, 30, 30⟩
def F.PWR_STATE_TARGET : Fld := ⟨R.PWR_STATE, 5, 4⟩
def F.PWR_STATE_STATE : Fld := ⟨R.PWR_STATE, 1, 0⟩
/-- `PWR_RESET` (17_power_boot). -/
def R.PWR_RESET : Nat := 0x10e0004
def F.PWR_RESET_KEY : Fld := ⟨R.PWR_RESET, 31, 16⟩
def F.PWR_RESET_TENSOR : Fld := ⟨R.PWR_RESET, 1, 1⟩
def F.PWR_RESET_WARM : Fld := ⟨R.PWR_RESET, 0, 0⟩
/-- `PWR_CAUSE` (17_power_boot). -/
def R.PWR_CAUSE : Nat := 0x10e0008
def F.PWR_CAUSE_LAST : Fld := ⟨R.PWR_CAUSE, 31, 28⟩
def F.PWR_CAUSE_TESTMODE : Fld := ⟨R.PWR_CAUSE, 7, 7⟩
def F.PWR_CAUSE_ORIGIN : Fld := ⟨R.PWR_CAUSE, 6, 6⟩
def F.PWR_CAUSE_BOOTSEL : Fld := ⟨R.PWR_CAUSE, 5, 4⟩
/-- `PWR_BOOT` (17_power_boot). -/
def R.PWR_BOOT : Nat := 0x10e000c
def F.PWR_BOOT_DONE : Fld := ⟨R.PWR_BOOT, 31, 31⟩
def F.PWR_BOOT_SRC : Fld := ⟨R.PWR_BOOT, 30, 28⟩
def F.PWR_BOOT_ERR : Fld := ⟨R.PWR_BOOT, 27, 24⟩
def F.PWR_BOOT_CMD : Fld := ⟨R.PWR_BOOT, 23, 8⟩
def F.PWR_BOOT_STEP : Fld := ⟨R.PWR_BOOT, 3, 0⟩
/-- `PWR_THERM` (17_power_boot). -/
def R.PWR_THERM : Nat := 0x10e0010
def F.PWR_THERM_WARN : Fld := ⟨R.PWR_THERM, 31, 24⟩
def F.PWR_THERM_MAX : Fld := ⟨R.PWR_THERM, 23, 16⟩
def F.PWR_THERM_TEMP : Fld := ⟨R.PWR_THERM, 7, 0⟩
/-- `PWR_MSEED_LO` (17_power_boot). -/
def R.PWR_MSEED_LO : Nat := 0x10e0014
def F.PWR_MSEED_LO_SEED : Fld := ⟨R.PWR_MSEED_LO, 31, 0⟩
/-- `PWR_MSEED_HI` (17_power_boot). -/
def R.PWR_MSEED_HI : Nat := 0x10e0018
def F.PWR_MSEED_HI_SEED : Fld := ⟨R.PWR_MSEED_HI, 31, 0⟩
/-- `REC_STAT` (18_faults_records). -/
def R.REC_STAT : Nat := 0x10f0000
def F.REC_STAT_LFULL : Fld := ⟨R.REC_STAT, 31, 31⟩
def F.REC_STAT_TFULL : Fld := ⟨R.REC_STAT, 30, 30⟩
def F.REC_STAT_TRACE : Fld := ⟨R.REC_STAT, 29, 16⟩
def F.REC_STAT_LEDGER : Fld := ⟨R.REC_STAT, 12, 0⟩
/-- `REC_OVF` (18_faults_records). -/
def R.REC_OVF : Nat := 0x10f0004
def F.REC_OVF_LEDGER : Fld := ⟨R.REC_OVF, 31, 16⟩
def F.REC_OVF_TRACE : Fld := ⟨R.REC_OVF, 15, 0⟩
/-- `REC_SEQ` (18_faults_records). -/
def R.REC_SEQ : Nat := 0x10f0008
def F.REC_SEQ_NEXT : Fld := ⟨R.REC_SEQ, 31, 0⟩
/-- `REC_HOURS` (18_faults_records). -/
def R.REC_HOURS : Nat := 0x10f000c
def F.REC_HOURS_HOURS : Fld := ⟨R.REC_HOURS, 31, 8⟩
def F.REC_HOURS_MINUTES : Fld := ⟨R.REC_HOURS, 5, 0⟩
/-- `REC_PCYC` (18_faults_records). -/
def R.REC_PCYC : Nat := 0x10f0010
def F.REC_PCYC_VALID : Fld := ⟨R.REC_PCYC, 31, 31⟩
def F.REC_PCYC_COUNT : Fld := ⟨R.REC_PCYC, 30, 0⟩
/-- `REC_SUPP` (18_faults_records). -/
def R.REC_SUPP : Nat := 0x10f0014
def F.REC_SUPP_COUNT : Fld := ⟨R.REC_SUPP, 31, 0⟩
/-- `REC_CURSOR` (18_faults_records). -/
def R.REC_CURSOR : Nat := 0x10f0020
def F.REC_CURSOR_CLASS : Fld := ⟨R.REC_CURSOR, 31, 31⟩
def F.REC_CURSOR_INDEX : Fld := ⟨R.REC_CURSOR, 12, 0⟩
/-- `REC_WIN_w` (18_faults_records). -/
def R.REC_WIN_w (w : Nat) : Nat := 0x10f0100 + w * 0x4
def F.REC_WIN_w_DATA (w : Nat) : Fld := ⟨R.REC_WIN_w w, 31, 0⟩
/-- `REC_TRIG_t_CFG` (18_faults_records). -/
def R.REC_TRIG_t_CFG (t : Nat) : Nat := 0x10f0400 + t * 0x80
def F.REC_TRIG_t_CFG_EN (t : Nat) : Fld := ⟨R.REC_TRIG_t_CFG t, 31, 31⟩
def F.REC_TRIG_t_CFG_SUPPRESS (t : Nat) : Fld := ⟨R.REC_TRIG_t_CFG t, 30, 30⟩
def F.REC_TRIG_t_CFG_NREG (t : Nat) : Fld := ⟨R.REC_TRIG_t_CFG t, 28, 24⟩
def F.REC_TRIG_t_CFG_GROUP (t : Nat) : Fld := ⟨R.REC_TRIG_t_CFG t, 23, 16⟩
def F.REC_TRIG_t_CFG_ITEM_HI (t : Nat) : Fld := ⟨R.REC_TRIG_t_CFG t, 15, 8⟩
def F.REC_TRIG_t_CFG_ITEM_LO (t : Nat) : Fld := ⟨R.REC_TRIG_t_CFG t, 7, 0⟩
/-- `REC_TRIG_t_REGi` (18_faults_records). -/
def R.REC_TRIG_t_REGi (t i : Nat) : Nat := 0x10f0404 + t * 0x80 + i * 0x4
def F.REC_TRIG_t_REGi_OFFSET (t i : Nat) : Fld := ⟨R.REC_TRIG_t_REGi t i, 24, 2⟩
/-- `CRC_e_CTRL` (18_faults_records). -/
def R.CRC_e_CTRL (e : Nat) : Nat := 0x10f8000 + e * 0x40
def F.CRC_e_CTRL_BUSY (e : Nat) : Fld := ⟨R.CRC_e_CTRL e, 31, 31⟩
def F.CRC_e_CTRL_OWNED (e : Nat) : Fld := ⟨R.CRC_e_CTRL e, 30, 30⟩
def F.CRC_e_CTRL_ERR (e : Nat) : Fld := ⟨R.CRC_e_CTRL e, 29, 27⟩
def F.CRC_e_CTRL_POLY (e : Nat) : Fld := ⟨R.CRC_e_CTRL e, 26, 25⟩
def F.CRC_e_CTRL_CONT (e : Nat) : Fld := ⟨R.CRC_e_CTRL e, 24, 24⟩
def F.CRC_e_CTRL_STOP (e : Nat) : Fld := ⟨R.CRC_e_CTRL e, 1, 1⟩
def F.CRC_e_CTRL_START (e : Nat) : Fld := ⟨R.CRC_e_CTRL e, 0, 0⟩
/-- `CRC_e_ADDR_LO` (18_faults_records). -/
def R.CRC_e_ADDR_LO (e : Nat) : Nat := 0x10f8004 + e * 0x40
def F.CRC_e_ADDR_LO_ADDR (e : Nat) : Fld := ⟨R.CRC_e_ADDR_LO e, 31, 0⟩
/-- `CRC_e_ADDR_HI` (18_faults_records). -/
def R.CRC_e_ADDR_HI (e : Nat) : Nat := 0x10f8008 + e * 0x40
def F.CRC_e_ADDR_HI_ADDR (e : Nat) : Fld := ⟨R.CRC_e_ADDR_HI e, 15, 0⟩
/-- `CRC_e_LEN_LO` (18_faults_records). -/
def R.CRC_e_LEN_LO (e : Nat) : Nat := 0x10f800c + e * 0x40
def F.CRC_e_LEN_LO_LEN (e : Nat) : Fld := ⟨R.CRC_e_LEN_LO e, 31, 0⟩
/-- `CRC_e_LEN_HI` (18_faults_records). -/
def R.CRC_e_LEN_HI (e : Nat) : Nat := 0x10f8010 + e * 0x40
def F.CRC_e_LEN_HI_LEN (e : Nat) : Fld := ⟨R.CRC_e_LEN_HI e, 15, 0⟩
/-- `CRC_e_VAL_LO` (18_faults_records). -/
def R.CRC_e_VAL_LO (e : Nat) : Nat := 0x10f8014 + e * 0x40
def F.CRC_e_VAL_LO_VAL (e : Nat) : Fld := ⟨R.CRC_e_VAL_LO e, 31, 0⟩
/-- `CRC_e_VAL_HI` (18_faults_records). -/
def R.CRC_e_VAL_HI (e : Nat) : Nat := 0x10f8018 + e * 0x40
def F.CRC_e_VAL_HI_VAL (e : Nat) : Fld := ⟨R.CRC_e_VAL_HI e, 31, 0⟩

/-- Register maps, part 1. -/
def regRows1 : List RegRow := [
  ⟨"SYS_ID", 0x1000000, [], [⟨31, 16, .ro, 0x5120⟩, ⟨15, 12, .ro, 0xb⟩, ⟨11, 8, .ro, 0⟩]⟩,
  ⟨"DL_STATUS", 0x300000, [], [⟨9, 9, .ro, 0⟩, ⟨8, 8, .ro, 0⟩, ⟨4, 4, .ro, 0⟩, ⟨0, 0, .ro, 0⟩]⟩,
  ⟨"DL_LAT", 0x300004, [], [⟨31, 16, .ro, 0xc8⟩, ⟨15, 0, .ro, 0x50⟩]⟩,
  ⟨"DL_RETRY", 0x300008, [], [⟨31, 16, .rc, 0⟩, ⟨15, 0, .rc, 0⟩]⟩,
  ⟨"HUB_ACLK", 0x8, [], [⟨31, 31, .ro, 0⟩, ⟨9, 0, .ro, 0x258⟩]⟩,
  ⟨"HUB_YUBEN", 0x4, [], [⟨3, 0, .ro, 1⟩]⟩,
  ⟨"HUB_CAPGEN", 0xc, [], [⟨31, 0, .ro, 0⟩]⟩,
  ⟨"HUB_CAP0", 0x10, [], [⟨31, 16, .ro, 0⟩, ⟨8, 8, .ro, 0⟩, ⟨3, 0, .ro, 0⟩]⟩,
  ⟨"HUB_CAP1", 0x14, [], [⟨31, 16, .ro, 0⟩, ⟨15, 8, .ro, 0⟩, ⟨1, 1, .ro, 0⟩, ⟨0, 0, .ro, 0⟩]⟩,
  ⟨"HUB_CAP2", 0x18, [], [⟨31, 30, .ro, 0⟩, ⟨23, 20, .ro, 0⟩, ⟨19, 16, .ro, 0⟩, ⟨15, 12, .ro, 0⟩, ⟨11, 8, .ro, 0⟩, ⟨7, 4, .ro, 0⟩, ⟨3, 0, .ro, 0⟩]⟩,
  ⟨"HUB_CAP3", 0x1c, [], [⟨31, 28, .ro, 0⟩, ⟨27, 24, .ro, 0⟩, ⟨23, 20, .ro, 0⟩, ⟨19, 16, .ro, 0⟩, ⟨15, 12, .ro, 0⟩, ⟨11, 8, .ro, 0⟩, ⟨7, 4, .ro, 0⟩, ⟨0, 0, .ro, 0⟩]⟩,
  ⟨"TB_CTRL", 0x1010000, [], [⟨7, 4, .rw, 0⟩, ⟨1, 0, .rw, 0⟩]⟩,
  ⟨"TB_STATUS", 0x1010004, [], [⟨1, 1, .ro, 0⟩, ⟨0, 0, .ro, 0⟩]⟩,
  ⟨"TB_NOW_LO", 0x1010008, [], [⟨31, 0, .ro, 0⟩]⟩,
  ⟨"TB_NOW_HI", 0x101000c, [], [⟨31, 0, .ro, 0⟩]⟩,
  ⟨"TB_SWTRIG", 0x1010010, [], [⟨3, 0, .wo, 0⟩]⟩,
  ⟨"TB_Dn_CFG", 0x1010100, [(0x100, 4)], [⟨21, 16, .rw, 0⟩, ⟨8, 8, .rw, 0⟩, ⟨3, 0, .rw, 0⟩]⟩,
  ⟨"TB_Dn_TURN", 0x1010104, [(0x100, 4)], [⟨19, 0, .rw, 0⟩]⟩,
  ⟨"TB_Dn_VTOT", 0x1010108, [(0x100, 4)], [⟨29, 16, .rw, 0⟩, ⟨13, 0, .rw, 0⟩]⟩,
  ⟨"TB_Dn_CONTENT", 0x101010c, [(0x100, 4)], [⟨19, 16, .rw, 0⟩, ⟨13, 0, .rw, 0⟩]⟩,
  ⟨"TB_Dn_ROUND_LO", 0x1010110, [(0x100, 4)], [⟨31, 0, .rw, 0⟩]⟩,
  ⟨"TB_Dn_ROUND_HI", 0x1010114, [(0x100, 4)], [⟨15, 0, .rw, 0⟩]⟩,
  ⟨"TB_Dn_POS", 0x1010118, [(0x100, 4)], [⟨31, 31, .ro, 0⟩, ⟨30, 30, .ro, 0⟩, ⟨13, 0, .ro, 0⟩]⟩,
  ⟨"TB_Dn_TICK", 0x101011c, [(0x100, 4)], [⟨19, 0, .ro, 0⟩]⟩,
  ⟨"TB_Dn_LAST", 0x1010120, [(0x100, 4)], [⟨31, 31, .ro, 0⟩, ⟨13, 0, .ro, 0⟩]⟩]

/-- Register maps, part 2. -/
def regRows2 : List RegRow := [
  ⟨"TB_Dn_COUNT", 0x1010124, [(0x100, 4)], [⟨31, 0, .rc, 0⟩]⟩,
  ⟨"TB_Dn_LPHASE", 0x1010128, [(0x100, 4)], [⟨31, 31, .ro, 0⟩, ⟨19, 0, .ro, 0⟩]⟩,
  ⟨"TT_ROUND_LO", 0x10000, [], [⟨31, 0, .ro, 0⟩]⟩,
  ⟨"TT_ROUND_HI", 0x10004, [], [⟨15, 0, .ro, 0⟩]⟩,
  ⟨"TT_POS", 0x10008, [], [⟨31, 31, .ro, 0⟩, ⟨30, 30, .ro, 0⟩, ⟨13, 0, .ro, 0⟩]⟩,
  ⟨"TT_CYCLE", 0x1000c, [], [⟨31, 16, .ro, 0⟩, ⟨15, 0, .ro, 0⟩]⟩,
  ⟨"TT_MARK", 0x10010, [], [⟨31, 16, .rc, 0⟩, ⟨15, 0, .rc, 0⟩]⟩,
  ⟨"GRID_CTRL", 0x20000, [], [⟨0, 0, .rw, 0⟩]⟩,
  ⟨"GRID_STATUS", 0x20004, [], [⟨16, 16, .ro, 0⟩, ⟨12, 8, .ro, 0⟩, ⟨4, 0, .ro, 0⟩]⟩,
  ⟨"GRID_PASSES", 0x20008, [], [⟨31, 0, .rc, 0⟩]⟩,
  ⟨"GRID_DUP", 0x2000c, [], [⟨31, 16, .rc, 0⟩, ⟨4, 0, .ro, 0⟩]⟩,
  ⟨"GRID_FAULT", 0x20010, [], [⟨31, 31, .w1c, 0⟩, ⟨29, 24, .ro, 0⟩, ⟨9, 8, .ro, 0⟩, ⟨3, 0, .ro, 0⟩]⟩,
  ⟨"GRID_FAULT_DESC_LO", 0x20014, [], [⟨31, 0, .ro, 0⟩]⟩,
  ⟨"GRID_FAULT_DESC_HI", 0x20018, [], [⟨15, 0, .ro, 0⟩]⟩,
  ⟨"GRID_SCALE_BAD", 0x2001c, [], [⟨31, 0, .rc, 0⟩]⟩,
  ⟨"GRID_OCC_LO", 0x20020, [], [⟨31, 0, .ro, 0⟩]⟩,
  ⟨"GRID_OCC_HI", 0x20024, [], [⟨31, 0, .ro, 0⟩]⟩,
  ⟨"ACC_ROWS", 0x30000, [], [⟨10, 0, .ro, 0x400⟩]⟩,
  ⟨"ACC_ECC", 0x30004, [], [⟨31, 16, .rc, 0⟩, ⟨15, 0, .rc, 0⟩]⟩,
  ⟨"ACC_ECC_ADDR", 0x30008, [], [⟨31, 31, .w1c, 0⟩, ⟨30, 30, .ro, 0⟩, ⟨25, 16, .ro, 0⟩, ⟨8, 0, .ro, 0⟩]⟩,
  ⟨"ACC_SCRUB", 0x3000c, [], [⟨31, 31, .rw, 1⟩, ⟨15, 0, .rw, 0x40⟩]⟩,
  ⟨"ACC_SCRUB_CNT", 0x30010, [], [⟨31, 0, .rc, 0⟩]⟩,
  ⟨"ACC_INJECT", 0x30014, [], [⟨31, 31, .rw, 0⟩, ⟨29, 28, .rw, 0⟩, ⟨25, 16, .rw, 0⟩, ⟨8, 0, .rw, 0⟩]⟩,
  ⟨"SPAD_SLICE_BYTES", 0x40000, [], [⟨31, 0, .ro, 0x400000⟩]⟩,
  ⟨"SPAD_SCRUB", 0x40004, [], [⟨31, 31, .rw, 1⟩, ⟨15, 0, .rw, 0x40⟩]⟩]

/-- Register maps, part 3. -/
def regRows3 : List RegRow := [
  ⟨"SPAD_ECC", 0x40008, [], [⟨31, 16, .rc, 0⟩, ⟨15, 0, .rc, 0⟩]⟩,
  ⟨"SPAD_ECC_ADDR", 0x4000c, [], [⟨31, 31, .w1c, 0⟩, ⟨22, 19, .ro, 0⟩, ⟨18, 0, .ro, 0⟩]⟩,
  ⟨"SPAD_EVT", 0x40010, [], [⟨31, 16, .rc, 0⟩, ⟨15, 0, .rc, 0⟩]⟩,
  ⟨"SPAD_n_PWR_LO", 0x41000, [(0x400, 16)], [⟨31, 0, .rw, 0⟩]⟩,
  ⟨"SPAD_n_PWR_HI", 0x41004, [(0x400, 16)], [⟨31, 0, .rw, 0⟩]⟩,
  ⟨"SPAD_n_BANK", 0x41008, [(0x400, 16)], [⟨31, 0, .ro, 0xffffffff⟩]⟩,
  ⟨"SPAD_n_WIN_w", 0x41100, [(0x400, 16), (0x8, 32)], [⟨31, 16, .rw, 0⟩, ⟨15, 0, .rw, 0⟩]⟩,
  ⟨"SPAD_n_WIN_w_MASK", 0x41104, [(0x400, 16), (0x8, 32)], [⟨20, 20, .rw, 0⟩, ⟨19, 16, .rw, 0⟩, ⟨15, 0, .rw, 0⟩]⟩,
  ⟨"MOV_n_STATUS", 0x100000, [(0x800, 16)], [⟨31, 31, .ro, 0⟩, ⟨22, 16, .ro, 0⟩, ⟨10, 0, .ro, 0⟩]⟩,
  ⟨"MOV_n_ERR", 0x100004, [(0x800, 16)], [⟨31, 31, .w1c, 0⟩, ⟨30, 28, .ro, 0⟩, ⟨27, 14, .ro, 0⟩, ⟨3, 0, .ro, 0⟩]⟩,
  ⟨"BWR_n_c", 0x120000, [(0x20, 16), (0x4, 5)], [⟨31, 31, .rw, 1⟩, ⟨30, 16, .rw, 0⟩, ⟨15, 0, .rw, 0⟩]⟩,
  ⟨"SHC_CTRL", 0x130000, [], [⟨31, 31, .rw, 1⟩, ⟨0, 0, .w1s, 0⟩]⟩,
  ⟨"SHC_HIT", 0x130004, [], [⟨31, 0, .rc, 0⟩]⟩,
  ⟨"SHC_MISS", 0x130008, [], [⟨31, 0, .rc, 0⟩]⟩,
  ⟨"SHC_WAYS_c", 0x130010, [(0x4, 5)], [⟨15, 0, .rw, 0xffff⟩]⟩,
  ⟨"QUE_RING_r_CFG", 0x140000, [(0x8, 256)], [⟨31, 28, .rw, 0⟩, ⟨27, 22, .rw, 0⟩, ⟨21, 14, .rw, 0⟩, ⟨13, 1, .rw, 0⟩, ⟨0, 0, .rw, 0⟩]⟩,
  ⟨"QUE_RING_r_PTR", 0x140004, [(0x8, 256)], [⟨29, 24, .ro, 0⟩, ⟨21, 16, .ro, 0⟩, ⟨6, 0, .ro, 0⟩]⟩,
  ⟨"QUE_HQ_q", 0x141000, [(0x4, 256)], [⟨29, 24, .ro, 0⟩, ⟨21, 16, .ro, 0⟩, ⟨6, 0, .ro, 0⟩]⟩,
  ⟨"QUE_TALLY_i", 0x142000, [(0x4, 64)], [⟨31, 0, .rw, 0⟩]⟩,
  ⟨"QUE_STAT", 0x143000, [], [⟨31, 16, .rc, 0⟩, ⟨15, 0, .rc, 0⟩]⟩,
  ⟨"MC_CFG", 0x200000, [], [⟨31, 28, .ro, 0⟩, ⟨20, 16, .ro, 0⟩, ⟨2, 2, .ro, 0⟩, ⟨1, 1, .ro, 0⟩, ⟨0, 0, .ro, 0⟩]⟩,
  ⟨"MC_HASH", 0x200004, [], [⟨15, 0, .ro, 0⟩]⟩,
  ⟨"MC_RSV", 0x200008, [], [⟨7, 0, .rw, 0⟩]⟩,
  ⟨"MC_IMB", 0x20000c, [], [⟨31, 16, .rc, 0⟩, ⟨15, 8, .ro, 0⟩, ⟨7, 0, .rw, 0x18⟩]⟩,
  ⟨"MC_ECC", 0x200010, [], [⟨31, 16, .rc, 0⟩, ⟨15, 0, .rc, 0⟩]⟩]

/-- Register maps, part 4. -/
def regRows4 : List RegRow := [
  ⟨"MC_CHc_STAT", 0x200100, [(0x4, 16)], [⟨31, 30, .ro, 0⟩, ⟨27, 24, .ro, 0⟩]⟩,
  ⟨"VC_n_CTRL", 0x80000, [(0x1000, 16)], [⟨31, 31, .rw, 0⟩, ⟨13, 0, .rw, 0⟩]⟩,
  ⟨"VC_n_STATUS", 0x80004, [(0x1000, 16)], [⟨31, 31, .ro, 1⟩, ⟨30, 30, .ro, 0⟩, ⟨29, 29, .ro, 0⟩, ⟨28, 28, .ro, 0⟩, ⟨13, 0, .ro, 0⟩]⟩,
  ⟨"VC_n_FAULT", 0x80008, [(0x1000, 16)], [⟨31, 31, .w1c, 0⟩, ⟨30, 30, .ro, 0⟩, ⟨19, 16, .ro, 0⟩, ⟨13, 0, .ro, 0⟩]⟩,
  ⟨"VC_n_FAULT_INFO", 0x8000c, [(0x1000, 16)], [⟨31, 0, .ro, 0⟩]⟩,
  ⟨"VC_n_EVT", 0x80010, [(0x1000, 16)], [⟨31, 16, .rc, 0⟩, ⟨15, 0, .rc, 0⟩]⟩,
  ⟨"VC_n_IADDR", 0x80020, [(0x1000, 16)], [⟨13, 0, .rw, 0⟩]⟩,
  ⟨"VC_n_IDATA_LO", 0x80024, [(0x1000, 16)], [⟨31, 0, .rw, 0⟩]⟩,
  ⟨"VC_n_IDATA_HI", 0x80028, [(0x1000, 16)], [⟨31, 0, .rw, 0⟩]⟩,
  ⟨"TT_SEQ_STATUS", 0x10100, [], [⟨31, 31, .ro, 0⟩, ⟨27, 24, .ro, 0⟩, ⟨16, 0, .ro, 0⟩]⟩,
  ⟨"TT_SEQ_BUDGET", 0x10104, [], [⟨31, 16, .ro, 0⟩, ⟨15, 0, .ro, 0⟩]⟩,
  ⟨"TT_HOLD", 0x10108, [], [⟨31, 31, .w1c, 0⟩, ⟨30, 28, .ro, 0⟩, ⟨27, 22, .ro, 0⟩, ⟨21, 14, .ro, 0⟩, ⟨13, 0, .ro, 0⟩]⟩,
  ⟨"TT_HOLD_CNT", 0x1010c, [], [⟨31, 0, .rc, 0⟩]⟩,
  ⟨"TT_SEQ_EVT", 0x10110, [], [⟨31, 16, .rc, 0⟩, ⟨15, 0, .rc, 0⟩]⟩,
  ⟨"TT_VOID", 0x10114, [], [⟨31, 16, .rc, 0⟩]⟩,
  ⟨"TASK_CTRL", 0x180000, [], [⟨31, 31, .rw, 0⟩]⟩,
  ⟨"TASK_SEL", 0x180004, [], [⟨13, 0, .rw, 0⟩]⟩,
  ⟨"TASK_COUNT", 0x180008, [], [⟨20, 16, .ro, 0⟩, ⟨13, 0, .ro, 0⟩]⟩,
  ⟨"TASK_EVT", 0x18000c, [], [⟨31, 16, .rc, 0⟩, ⟨15, 0, .rc, 0⟩]⟩,
  ⟨"TASK_EVT2", 0x180010, [], [⟨31, 16, .rc, 0⟩, ⟨15, 0, .rc, 0⟩]⟩,
  ⟨"TASK_FAULT", 0x180014, [], [⟨31, 31, .w1c, 0⟩, ⟨29, 16, .ro, 0⟩, ⟨3, 0, .ro, 0⟩]⟩,
  ⟨"TASK_WIN_w", 0x180100, [(0x4, 64)], [⟨31, 0, .ro, 0⟩]⟩,
  ⟨"TT_ADP_STATUS", 0x10200, [], [⟨31, 31, .ro, 0⟩, ⟨30, 30, .ro, 0⟩, ⟨29, 29, .ro, 0⟩, ⟨28, 28, .ro, 0⟩, ⟨27, 20, .ro, 0⟩, ⟨19, 12, .ro, 0⟩, ⟨4, 0, .ro, 0⟩]⟩,
  ⟨"TT_ADP_STEP", 0x10204, [], [⟨31, 0, .ro, 0xffffffff⟩]⟩,
  ⟨"TT_ADP_CNT", 0x10208, [], [⟨31, 16, .rc, 0⟩, ⟨15, 0, .rc, 0⟩]⟩]

/-- Register maps, part 5. -/
def regRows5 : List RegRow := [
  ⟨"TT_ADP_LAST", 0x1020c, [], [⟨31, 31, .w1c, 0⟩, ⟨30, 30, .ro, 0⟩, ⟨29, 27, .ro, 0⟩, ⟨26, 0, .ro, 0⟩]⟩,
  ⟨"STR_n_CFG", 0x1020000, [(0x400, 64)], [⟨31, 31, .rw, 0⟩, ⟨30, 29, .rw, 0⟩, ⟨28, 28, .rw, 0⟩, ⟨27, 26, .rw, 0⟩, ⟨25, 24, .rw, 0⟩, ⟨23, 23, .rw, 0⟩, ⟨22, 22, .rw, 0⟩, ⟨15, 8, .rw, 0⟩]⟩,
  ⟨"STR_n_SIZE", 0x1020004, [(0x400, 64)], [⟨31, 16, .rw, 0⟩, ⟨15, 0, .rw, 0⟩]⟩,
  ⟨"STR_n_BG", 0x1020008, [(0x400, 64)], [⟨31, 0, .rw, 0⟩]⟩,
  ⟨"STR_n_ORDER", 0x102000c, [(0x400, 64)], [⟨31, 0, .rw, 0⟩]⟩,
  ⟨"STR_n_OUT", 0x1020010, [(0x400, 64)], [⟨31, 28, .rw, 0⟩, ⟨25, 24, .rw, 0⟩, ⟨21, 16, .rw, 0⟩, ⟨13, 8, .rw, 0⟩, ⟨5, 0, .rw, 0⟩]⟩,
  ⟨"STR_n_HOLD", 0x1020014, [(0x400, 64)], [⟨31, 0, .rw, 0⟩]⟩,
  ⟨"STR_n_FRM_CFG", 0x1020018, [(0x400, 64)], [⟨31, 30, .rw, 0⟩, ⟨29, 26, .rw, 0⟩, ⟨25, 24, .rw, 0⟩, ⟨23, 20, .rw, 0⟩, ⟨15, 0, .rw, 0⟩]⟩,
  ⟨"STR_n_FRM_BASE", 0x102001c, [(0x400, 64)], [⟨31, 0, .rw, 0⟩]⟩,
  ⟨"STR_n_STATUS", 0x1020020, [(0x400, 64)], [⟨31, 31, .ro, 0⟩, ⟨30, 30, .ro, 0⟩, ⟨29, 28, .ro, 0⟩, ⟨27, 26, .ro, 0⟩, ⟨13, 0, .ro, 0⟩]⟩,
  ⟨"STR_n_FRM_LAST", 0x1020024, [(0x400, 64)], [⟨31, 30, .ro, 0⟩, ⟨29, 0, .ro, 0⟩]⟩,
  ⟨"STR_n_EVT", 0x1020028, [(0x400, 64)], [⟨31, 16, .rc, 0⟩, ⟨15, 0, .rc, 0⟩]⟩,
  ⟨"STR_n_Ll_CFG", 0x1020100, [(0x400, 64), (0x20, 8)], [⟨31, 31, .rw, 0⟩, ⟨30, 29, .rw, 0⟩, ⟨28, 28, .rw, 0⟩, ⟨27, 27, .rw, 0⟩, ⟨25, 20, .rw, 0⟩, ⟨19, 16, .rw, 0⟩, ⟨15, 0, .rw, 0⟩]⟩,
  ⟨"STR_n_Ll_POS", 0x1020104, [(0x400, 64), (0x20, 8)], [⟨31, 16, .rw, 0⟩, ⟨15, 0, .rw, 0⟩]⟩,
  ⟨"STR_n_Ll_SIZE", 0x1020108, [(0x400, 64), (0x20, 8)], [⟨31, 16, .rw, 0⟩, ⟨15, 0, .rw, 0⟩]⟩,
  ⟨"STR_n_Ll_RANGE", 0x102010c, [(0x400, 64), (0x20, 8)], [⟨31, 0, .rw, 0⟩]⟩,
  ⟨"STR_n_Ll_OFF", 0x1020110, [(0x400, 64), (0x20, 8)], [⟨31, 0, .rw, 0⟩]⟩,
  ⟨"STR_n_Ll_EXT", 0x1020114, [(0x400, 64), (0x20, 8)], [⟨31, 17, .rw, 0⟩, ⟨16, 0, .rw, 0x10000⟩]⟩,
  ⟨"CMP_FLIP_STAT", 0x1040000, [], [⟨5, 0, .ro, 0⟩]⟩,
  ⟨"CMP_FLIP_CNT", 0x1040004, [], [⟨31, 16, .rc, 0⟩, ⟨15, 0, .rc, 0⟩]⟩,
  ⟨"CMP_LOAD", 0x1040008, [], [⟨31, 16, .ro, 0⟩, ⟨15, 0, .ro, 0⟩]⟩,
  ⟨"CMP_FENCE_k", 0x1040100, [(0x4, 64)], [⟨31, 0, .rw, 0⟩]⟩,
  ⟨"TB_Dn_VSCAN", 0x1010140, [(0x100, 4)], [⟨29, 16, .rw, 0x13⟩, ⟨7, 0, .rw, 1⟩]⟩,
  ⟨"TB_Dn_PSMON", 0x1010144, [(0x100, 4)], [⟨31, 31, .rw, 0⟩, ⟨29, 16, .rw, 0⟩, ⟨9, 8, .rw, 0⟩, ⟨0, 0, .rw, 0⟩]⟩,
  ⟨"TB_Dn_TEAR", 0x1010148, [(0x100, 4)], [⟨31, 0, .rc, 0⟩]⟩]

/-- Register maps, part 6. -/
def regRows6 : List RegRow := [
  ⟨"TB_Dn_PSPHASE", 0x101014c, [(0x100, 4)], [⟨31, 31, .ro, 0⟩, ⟨30, 0, .ro, 0⟩]⟩,
  ⟨"FIN_SCRUB", 0x1060000, [], [⟨31, 31, .rw, 1⟩, ⟨15, 0, .rw, 0x10⟩]⟩,
  ⟨"FIN_CV_ERR", 0x1060004, [], [⟨31, 31, .w1c, 0⟩, ⟨30, 30, .ro, 0⟩, ⟨29, 24, .ro, 0⟩, ⟨19, 0, .ro, 0⟩]⟩,
  ⟨"FIN_CV_CNT", 0x1060008, [], [⟨31, 16, .rc, 0⟩, ⟨15, 0, .rc, 0⟩]⟩,
  ⟨"FIN_n_CFG", 0x1061000, [(0x80, 64)], [⟨31, 31, .rw, 0⟩, ⟨30, 30, .rw, 0⟩, ⟨29, 29, .rw, 0⟩, ⟨28, 28, .rw, 0⟩, ⟨26, 24, .rw, 0⟩, ⟨22, 20, .rw, 0⟩, ⟨19, 18, .rw, 0⟩, ⟨12, 8, .rw, 8⟩]⟩,
  ⟨"FIN_n_NITS", 0x1061004, [(0x80, 64)], [⟨13, 0, .rw, 0xcb⟩]⟩,
  ⟨"FIN_n_Mk", 0x1061010, [(0x80, 64), (0x4, 12)], [⟨23, 0, .rw, 0⟩]⟩,
  ⟨"FIN_n_CV", 0x1061040, [(0x80, 64)], [⟨22, 20, .rw, 0⟩, ⟨19, 0, .rw, 0⟩]⟩,
  ⟨"FIN_n_GBASE", 0x1061044, [(0x80, 64)], [⟨31, 0, .rw, 0⟩]⟩,
  ⟨"FIN_n_GCFG", 0x1061048, [(0x80, 64)], [⟨30, 28, .rw, 0⟩, ⟨26, 24, .rw, 0⟩, ⟨15, 0, .rw, 0⟩]⟩,
  ⟨"FIN_n_WALLX", 0x106104c, [(0x80, 64)], [⟨31, 0, .rw, 0⟩]⟩,
  ⟨"FIN_n_WALLY", 0x1061050, [(0x80, 64)], [⟨31, 0, .rw, 0⟩]⟩,
  ⟨"FIN_n_VIMG", 0x1061054, [(0x80, 64)], [⟨31, 0, .rw, 0⟩]⟩,
  ⟨"DCR_STAT", 0x1070000, [], [⟨31, 16, .rc, 0⟩, ⟨9, 0, .ro, 0⟩]⟩,
  ⟨"DCR_k_CFG", 0x1070100, [(0x20, 512)], [⟨31, 31, .rw, 0⟩, ⟨30, 30, .rw, 0⟩, ⟨29, 29, .rw, 0⟩, ⟨28, 28, .rw, 0⟩, ⟨27, 27, .ro, 0⟩, ⟨26, 26, .ro, 0⟩, ⟨21, 16, .rw, 0⟩]⟩,
  ⟨"DCR_k_POS", 0x1070104, [(0x20, 512)], [⟨29, 16, .rw, 0⟩, ⟨13, 0, .rw, 0⟩]⟩,
  ⟨"DCR_k_SIZE", 0x1070108, [(0x20, 512)], [⟨30, 16, .rw, 0⟩, ⟨14, 0, .rw, 0⟩]⟩,
  ⟨"DCR_k_EXPECT", 0x107010c, [(0x20, 512)], [⟨31, 0, .rw, 0⟩]⟩,
  ⟨"DCR_k_LAST", 0x1070110, [(0x20, 512)], [⟨31, 0, .ro, 0⟩]⟩,
  ⟨"DCR_k_ROUND", 0x1070114, [(0x20, 512)], [⟨31, 0, .ro, 0⟩]⟩,
  ⟨"DPI_p_CFG", 0x1080000, [(0x100, 2)], [⟨31, 31, .rw, 0⟩, ⟨30, 30, .rw, 0⟩, ⟨29, 29, .rw, 0⟩, ⟨28, 28, .rw, 0⟩, ⟨7, 4, .rw, 7⟩, ⟨3, 0, .rw, 4⟩]⟩,
  ⟨"DPI_p_STATUS", 0x1080004, [(0x100, 2)], [⟨31, 31, .ro, 0⟩, ⟨30, 30, .ro, 0⟩, ⟨29, 29, .ro, 0⟩, ⟨28, 28, .ro, 0⟩, ⟨24, 20, .ro, 0⟩, ⟨7, 4, .ro, 0⟩, ⟨3, 0, .ro, 0⟩]⟩,
  ⟨"DPO_p_CFG", 0x1090000, [(0x100, 4)], [⟨31, 31, .rw, 0⟩, ⟨30, 30, .rw, 0⟩, ⟨29, 29, .rw, 0⟩, ⟨28, 28, .rw, 0⟩, ⟨24, 24, .rw, 0⟩, ⟨23, 20, .rw, 0⟩, ⟨19, 16, .rw, 0⟩, ⟨15, 14, .rw, 0⟩, ⟨13, 8, .rw, 0⟩]⟩,
  ⟨"DPO_p_TIM", 0x1090004, [(0x100, 4)], [⟨31, 16, .rw, 0⟩, ⟨7, 0, .rw, 0x20⟩]⟩,
  ⟨"DPO_p_TILE", 0x1090008, [(0x100, 4)], [⟨29, 16, .rw, 0⟩, ⟨13, 0, .rw, 0⟩]⟩]

/-- Register maps, part 7. -/
def regRows7 : List RegRow := [
  ⟨"DPO_p_DSC", 0x109000c, [(0x100, 4)], [⟨31, 27, .rw, 0⟩, ⟨26, 14, .rw, 0⟩, ⟨9, 0, .rw, 0⟩]⟩,
  ⟨"DPO_p_STATUS", 0x1090010, [(0x100, 4)], [⟨31, 31, .ro, 0⟩, ⟨30, 30, .ro, 0⟩, ⟨29, 29, .ro, 0⟩, ⟨28, 28, .ro, 0⟩, ⟨27, 27, .ro, 0⟩, ⟨23, 16, .rc, 0⟩, ⟨7, 4, .ro, 0⟩, ⟨3, 0, .ro, 0⟩]⟩,
  ⟨"TB_SYNC_OUT", 0x1010040, [], [⟨31, 31, .rw, 0⟩, ⟨30, 30, .rw, 0⟩, ⟨29, 29, .rw, 0⟩, ⟨25, 24, .rw, 0⟩, ⟨23, 16, .rw, 1⟩, ⟨9, 0, .rw, 0x64⟩]⟩,
  ⟨"FAB_CTRL", 0x10a0000, [], [⟨31, 31, .rw, 0⟩, ⟨3, 0, .rw, 0xf⟩]⟩,
  ⟨"FAB_STATUS", 0x10a0004, [], [⟨31, 31, .ro, 0⟩, ⟨30, 30, .ro, 0⟩, ⟨29, 29, .ro, 0⟩, ⟨19, 16, .ro, 0⟩, ⟨15, 12, .ro, 0⟩, ⟨6, 0, .ro, 0⟩]⟩,
  ⟨"FAB_COORD", 0x10a0008, [], [⟨13, 8, .ro, 0⟩, ⟨5, 0, .ro, 0⟩]⟩,
  ⟨"FAB_WALL", 0x10a000c, [], [⟨12, 0, .ro, 0⟩]⟩,
  ⟨"FAB_PARENT", 0x10a0010, [], [⟨31, 31, .ro, 0⟩, ⟨1, 0, .ro, 0⟩]⟩,
  ⟨"FAB_VER", 0x10a0014, [], [⟨7, 0, .ro, 1⟩]⟩,
  ⟨"FAB_EXPORT", 0x10a0020, [], [⟨31, 31, .rw, 0⟩, ⟨30, 30, .rw, 0⟩, ⟨27, 0, .rw, 0⟩]⟩,
  ⟨"FAB_TIME", 0x10a0024, [], [⟨31, 31, .ro, 0⟩, ⟨15, 0, .ro, 0⟩]⟩,
  ⟨"FAB_TIME_OFS", 0x10a0028, [], [⟨31, 0, .ro, 0⟩]⟩,
  ⟨"FAB_TIME_CNT", 0x10a002c, [], [⟨31, 16, .rc, 0⟩, ⟨15, 0, .rc, 0⟩]⟩,
  ⟨"FAB_EVT", 0x10a0030, [], [⟨31, 16, .rc, 0⟩, ⟨15, 0, .rc, 0⟩]⟩,
  ⟨"FAB_Pp_STATUS", 0x10a0100, [(0x20, 4)], [⟨31, 31, .ro, 0⟩, ⟨30, 30, .ro, 0⟩, ⟨29, 29, .ro, 0⟩, ⟨19, 16, .ro, 0⟩, ⟨13, 8, .ro, 0⟩, ⟨5, 0, .ro, 0⟩]⟩,
  ⟨"FAB_Pp_DELAY", 0x10a0104, [(0x20, 4)], [⟨31, 0, .ro, 0⟩]⟩,
  ⟨"FAB_Pp_ERR", 0x10a0108, [(0x20, 4)], [⟨31, 16, .rc, 0⟩, ⟨15, 0, .rc, 0⟩]⟩,
  ⟨"FAB_Pp_LOSS", 0x10a010c, [(0x20, 4)], [⟨31, 16, .rc, 0⟩, ⟨2, 0, .ro, 0⟩]⟩,
  ⟨"FAB_DETOUR_i_LO", 0x10a0200, [(0x8, 64)], [⟨31, 31, .rw, 0⟩, ⟨29, 24, .rw, 0⟩, ⟨21, 16, .rw, 0⟩, ⟨13, 8, .rw, 0⟩, ⟨5, 0, .rw, 0⟩]⟩,
  ⟨"FAB_DETOUR_i_HI", 0x10a0204, [(0x8, 64)], [⟨1, 0, .rw, 0⟩]⟩,
  ⟨"PCI_STATUS", 0x10c0000, [], [⟨31, 31, .ro, 0⟩, ⟨30, 30, .ro, 0⟩, ⟨26, 24, .ro, 0⟩, ⟨7, 4, .ro, 0⟩, ⟨3, 0, .ro, 0⟩]⟩,
  ⟨"PCI_BAR2_WIN", 0x10c0004, [], [⟨5, 0, .rw, 0⟩]⟩,
  ⟨"PCI_HWIN_LO", 0x10c0008, [], [⟨31, 12, .rw, 0⟩]⟩,
  ⟨"PCI_HWIN_HI", 0x10c000c, [], [⟨31, 0, .rw, 0⟩]⟩,
  ⟨"PCI_EVT", 0x10c0010, [], [⟨31, 16, .rc, 0⟩, ⟨15, 0, .rc, 0⟩]⟩]

/-- Register maps, part 8. -/
def regRows8 : List RegRow := [
  ⟨"CMD_CTRL", 0x10c8000, [], [⟨31, 31, .ro, 0⟩, ⟨7, 0, .rw, 0x10⟩]⟩,
  ⟨"CMD_NEXT", 0x10c8004, [], [⟨31, 0, .ro, 1⟩]⟩,
  ⟨"CMD_CPL_LO", 0x10c8008, [], [⟨31, 12, .rw, 0⟩, ⟨0, 0, .rw, 0⟩]⟩,
  ⟨"CMD_CPL_HI", 0x10c800c, [], [⟨31, 0, .rw, 0⟩]⟩,
  ⟨"CMD_CNT_LO", 0x10c8010, [], [⟨31, 3, .rw, 0⟩]⟩,
  ⟨"CMD_CNT_HI", 0x10c8014, [], [⟨31, 0, .rw, 0⟩]⟩,
  ⟨"CMD_CPL_WR", 0x10c8018, [], [⟨31, 0, .ro, 0⟩]⟩,
  ⟨"CMD_CPL_ACK", 0x10c801c, [], [⟨31, 0, .rw, 0⟩]⟩,
  ⟨"CMD_PEND", 0x10c8020, [], [⟨13, 8, .ro, 0⟩, ⟨6, 0, .ro, 0⟩]⟩,
  ⟨"CMD_LEVEL", 0x10c8024, [], [⟨31, 31, .ro, 0⟩, ⟨15, 8, .ro, 0⟩, ⟨7, 0, .ro, 0⟩]⟩,
  ⟨"CMD_IRQ", 0x10c8028, [], [⟨4, 4, .w1c, 0⟩, ⟨3, 3, .w1c, 0⟩, ⟨2, 2, .w1c, 0⟩, ⟨1, 1, .w1c, 0⟩, ⟨0, 0, .w1c, 0⟩]⟩,
  ⟨"CMD_IRQ_EN", 0x10c802c, [], [⟨4, 0, .rw, 0⟩]⟩,
  ⟨"SEC_STATUS", 0x10d0000, [], [⟨31, 30, .ro, 0⟩, ⟨29, 29, .ro, 0⟩, ⟨28, 28, .ro, 0⟩, ⟨27, 27, .ro, 0⟩, ⟨26, 26, .ro, 0⟩, ⟨25, 25, .ro, 0⟩, ⟨24, 24, .ro, 0⟩, ⟨23, 20, .ro, 0⟩, ⟨19, 16, .ro, 0⟩]⟩,
  ⟨"SEC_DEBUG", 0x10d0004, [], [⟨31, 30, .ro, 0⟩, ⟨29, 29, .ro, 0⟩, ⟨17, 12, .ro, 0⟩, ⟨9, 8, .ro, 0⟩, ⟨0, 0, .ro, 0⟩]⟩,
  ⟨"SEC_ATT", 0x10d0008, [], [⟨31, 16, .ro, 0⟩, ⟨5, 0, .ro, 0⟩]⟩,
  ⟨"SEC_OTP_ADDR", 0x10d0010, [], [⟨12, 2, .rw, 0⟩]⟩,
  ⟨"SEC_OTP_DATA", 0x10d0014, [], [⟨31, 0, .rw, 0⟩]⟩,
  ⟨"SEC_OTP_CMD", 0x10d0018, [], [⟨31, 31, .ro, 0⟩, ⟨27, 24, .ro, 0⟩, ⟨2, 0, .wo, 0⟩]⟩,
  ⟨"SEC_CONF", 0x10d001c, [], [⟨5, 0, .ro, 0⟩]⟩,
  ⟨"SEC_NONCE_i", 0x10d0020, [(0x4, 8)], [⟨31, 0, .ro, 0⟩]⟩,
  ⟨"DBG_CTRL", 0x1100000, [], [⟨31, 16, .rw, 0⟩, ⟨15, 0, .w1s, 0⟩]⟩,
  ⟨"DBG_STATUS", 0x1100004, [], [⟨31, 16, .ro, 0⟩, ⟨0, 0, .w1c, 0⟩]⟩,
  ⟨"DBG_MEM_ADDR_LO", 0x1100008, [], [⟨31, 3, .rw, 0⟩]⟩,
  ⟨"DBG_MEM_ADDR_HI", 0x110000c, [], [⟨15, 0, .rw, 0⟩]⟩,
  ⟨"DBG_MEM_DATA_LO", 0x1100010, [], [⟨31, 0, .rw, 0⟩]⟩]

/-- Register maps, part 9. -/
def regRows9 : List RegRow := [
  ⟨"DBG_MEM_DATA_HI", 0x1100014, [], [⟨31, 0, .rw, 0⟩]⟩,
  ⟨"PWR_STATE", 0x10e0000, [], [⟨31, 31, .ro, 0⟩, ⟨30, 30, .ro, 0⟩, ⟨5, 4, .ro, 0⟩, ⟨1, 0, .ro, 0⟩]⟩,
  ⟨"PWR_RESET", 0x10e0004, [], [⟨31, 16, .wo, 0⟩, ⟨1, 1, .wo, 0⟩, ⟨0, 0, .wo, 0⟩]⟩,
  ⟨"PWR_CAUSE", 0x10e0008, [], [⟨31, 28, .ro, 0⟩, ⟨7, 7, .ro, 0⟩, ⟨6, 6, .ro, 0⟩, ⟨5, 4, .ro, 0⟩]⟩,
  ⟨"PWR_BOOT", 0x10e000c, [], [⟨31, 31, .ro, 0⟩, ⟨30, 28, .ro, 0⟩, ⟨27, 24, .ro, 0⟩, ⟨23, 8, .ro, 0⟩, ⟨3, 0, .ro, 0⟩]⟩,
  ⟨"PWR_THERM", 0x10e0010, [], [⟨31, 24, .rw, 0x64⟩, ⟨23, 16, .rc, 0⟩, ⟨7, 0, .ro, 0⟩]⟩,
  ⟨"PWR_MSEED_LO", 0x10e0014, [], [⟨31, 0, .rw, 0⟩]⟩,
  ⟨"PWR_MSEED_HI", 0x10e0018, [], [⟨31, 0, .rw, 0⟩]⟩,
  ⟨"REC_STAT", 0x10f0000, [], [⟨31, 31, .ro, 0⟩, ⟨30, 30, .ro, 0⟩, ⟨29, 16, .ro, 0⟩, ⟨12, 0, .ro, 0⟩]⟩,
  ⟨"REC_OVF", 0x10f0004, [], [⟨31, 16, .ro, 0⟩, ⟨15, 0, .ro, 0⟩]⟩,
  ⟨"REC_SEQ", 0x10f0008, [], [⟨31, 0, .ro, 1⟩]⟩,
  ⟨"REC_HOURS", 0x10f000c, [], [⟨31, 8, .ro, 0⟩, ⟨5, 0, .ro, 0⟩]⟩,
  ⟨"REC_PCYC", 0x10f0010, [], [⟨31, 31, .ro, 0⟩, ⟨30, 0, .ro, 0⟩]⟩,
  ⟨"REC_SUPP", 0x10f0014, [], [⟨31, 0, .rc, 0⟩]⟩,
  ⟨"REC_CURSOR", 0x10f0020, [], [⟨31, 31, .rw, 0⟩, ⟨12, 0, .rw, 0⟩]⟩,
  ⟨"REC_WIN_w", 0x10f0100, [(0x4, 32)], [⟨31, 0, .ro, 0⟩]⟩,
  ⟨"REC_TRIG_t_CFG", 0x10f0400, [(0x80, 32)], [⟨31, 31, .rw, 0⟩, ⟨30, 30, .rw, 0⟩, ⟨28, 24, .rw, 0⟩, ⟨23, 16, .rw, 0⟩, ⟨15, 8, .rw, 0⟩, ⟨7, 0, .rw, 0⟩]⟩,
  ⟨"REC_TRIG_t_REGi", 0x10f0404, [(0x80, 32), (0x4, 24)], [⟨24, 2, .rw, 0⟩]⟩,
  ⟨"CRC_e_CTRL", 0x10f8000, [(0x40, 8)], [⟨31, 31, .ro, 0⟩, ⟨30, 30, .ro, 0⟩, ⟨29, 27, .ro, 0⟩, ⟨26, 25, .rw, 0⟩, ⟨24, 24, .rw, 0⟩, ⟨1, 1, .w1s, 0⟩, ⟨0, 0, .w1s, 0⟩]⟩,
  ⟨"CRC_e_ADDR_LO", 0x10f8004, [(0x40, 8)], [⟨31, 0, .rw, 0⟩]⟩,
  ⟨"CRC_e_ADDR_HI", 0x10f8008, [(0x40, 8)], [⟨15, 0, .rw, 0⟩]⟩,
  ⟨"CRC_e_LEN_LO", 0x10f800c, [(0x40, 8)], [⟨31, 0, .rw, 0⟩]⟩,
  ⟨"CRC_e_LEN_HI", 0x10f8010, [(0x40, 8)], [⟨15, 0, .rw, 0⟩]⟩,
  ⟨"CRC_e_VAL_LO", 0x10f8014, [(0x40, 8)], [⟨31, 0, .rw, 0⟩]⟩,
  ⟨"CRC_e_VAL_HI", 0x10f8018, [(0x40, 8)], [⟨31, 0, .rw, 0⟩]⟩]

/-- Every register map of the spec. -/
def regRows : List RegRow :=
  regRows1 ++ regRows2 ++ regRows3 ++ regRows4 ++ regRows5 ++ regRows6 ++ regRows7 ++ regRows8 ++ regRows9

/-- The index part of an offset within a register group: every stride divides into its count, nothing is left. -/
def dimsCover : List (Nat × Nat) → Nat → Bool
  | [], r => r == 0
  | (stride, count) :: ds, r => decide (r / stride < count) && dimsCover ds (r % stride)

/-- The map row that lists the register at an offset, if any (R10 covers the others). -/
def regRow? (off : Nat) : Option RegRow :=
  regRows.find? (fun r => decide (r.base ≤ off) && dimsCover r.dims (off - r.base))

/-- The value the fields of a row reset to. -/
def RegRow.resetValue (r : RegRow) : Nat :=
  r.fields.foldl (fun v f => v + f.reset <<< f.lo) 0

/-- The reset value of the register at an offset; an unlisted offset reads zero (R10). The identity matrix of the
finish stage is the one map whose reset depends on the index: `FIN_n_Mk` is 0x04_0000 for k = 0, 5, 10. -/
def regDefault (off : Nat) : Word32 :=
  match regRow? off with
  | none => 0#32
  | some r =>
    if r.base = R.FIN_n_Mk 0 0 ∧ ((off - r.base) % 0x80) / 4 % 5 = 0 then 0x40000#32
    else BitVec.ofNat 32 r.resetValue

end Sys2Proof.Machine
end

