-- ==== Sys2Proof/Machine/StateHost.lean ====
section
/-! DEFINITION. The state of the host interface, the control cores, security, power and the Scorepad beside their registers. -/

namespace Sys2Proof.Machine

/-- An event waiting to be written to the Scorepad (R447): event code (R446) and DETAIL. -/
structure RecEvent where
  event : Nat
  detail : Nat
deriving DecidableEq, Repr

/-- A Scorepad record (R448); its CRC and SEQ2 follow from the other fields. -/
structure Record where
  seq : Nat
  cls : Nat
  trigger : Nat
  nreg : Nat
  flags : Nat
  event : Nat
  detail : Nat
  hours : Nat
  minutes : Nat
  pcycles : Nat
  payload : List Nat
deriving DecidableEq, Repr

/-- The Scorepad (R445 to R452). -/
structure Scorepad where
  waiting : List RecEvent := []
  /-- the ledger counts have been taken: ledger events are written (R451) -/
  counted : Bool := false
  /-- operating minutes at the last cold reset, and GEN of the newest ledger-area entry (R451) -/
  minutes : Nat := 0
  gen : Nat := 0
  /-- offset of the next ledger-area entry within the area -/
  nextEntry : Nat := 0
  ledger : List Record := []
  trace : List Record := []
deriving DecidableEq, Repr

/-- Where a taken command came from: the host's page, a boot image, or a command flit of a device (R376, R434). -/
inductive Origin where
  | host
  | boot
  | fabric (x y tag : Nat)
  /-- the host, before a reset of its interface: no completion record is written (R369) -/
  | gone
deriving DecidableEq, Repr

/-- A command slot that has been taken (R372, R373): its fields, the tick of its acceptance, the lowest lead-domain round that
has not begun, or begins, in that tick (R51), and where it came from. -/
structure HostCmd where
  seq : Nat
  opcode : Nat
  flags : Nat
  vec : Nat
  due : Nat
  tag : Nat
  fenceK : Nat
  fenceValue : Nat
  args : List Nat
  /-- a reserved byte or bit of the slot is not zero -/
  bad : Bool := false
  accepted : Nat := 0
  first : Nat := 0
  origin : Origin := .host
deriving DecidableEq, Repr

/-- A command that waits for its due round (R377): the lead-domain round, the domain at whose boundary it applies, and the bytes
that were read for it. -/
structure DueCmd where
  cmd : HostCmd
  round : Nat
  dom : Nat := 0
  block : List Byte := []
deriving DecidableEq, Repr

/-- A completion record that waits to be written (R380), with the vector it signals and the device it goes to. -/
structure Cpl where
  seq : Nat
  opcode : Nat
  code : Nat
  flags : Nat
  tag : Nat
  detail : Nat
  round : Nat
  result : Nat
  vec : Option Nat
  origin : Origin := .host
deriving DecidableEq, Repr

/-- A command slot that this device has forwarded and that has not completed (R347): the forwarding command, the target device
as y * 64 + x, the inner slot's opcode, tag and vector, and whether the target has taken it. -/
structure Forward where
  cmd : HostCmd
  dev : Nat
  opcode : Nat
  tag : Nat
  vec : Option Nat
  taken : Bool := false
deriving DecidableEq, Repr

/-- The command that submitted a task: the task's slot, the vector of its record, where the record goes (R376, R381). -/
structure Submitter where
  slot : Nat
  vec : Option Nat
  origin : Origin
deriving DecidableEq, Repr

/-- Host-side state. -/
structure HostSide where
  /-- bytes of the command page (R372) and of the completion mirror (R381) -/
  page : SMap Byte := []
  mirror : SMap Byte := []
  /-- taken commands in order of acceptance -/
  taken : List HostCmd := []
  /-- background commands still in progress (R375) -/
  background : List HostCmd := []
  /-- slots that arrived in command flits and wait for a poll point (R376) -/
  flitSlots : List HostCmd := []
  /-- commands waiting for due rounds, in order of acceptance -/
  due : List DueCmd := []
  /-- completion records waiting, and the number of the next to be written -/
  cpl : List Cpl := []
  cplNext : Nat := 1
  submitters : List Submitter := []
  /-- forwarded commands that have not completed -/
  forwards : List Forward := []
  /-- MSI-X table words (vector * 4 + word; a vector is masked at reset), pending vectors, enable and function mask, and the
  size of BAR2 as a power of two of GiB (R364, R367) -/
  msixTable : SMap Word32 := []
  msixPend : List Nat := []
  msixEn : Bool := false
  msixMask : Bool := false
  bar2 : Nat := 0
  /-- the host address of the host window in force, taken at the write of its upper word (R367) -/
  hwin : Nat := 0
  /-- what the last read of a register or of memory returned, none for a refused one -/
  reply : Option Nat := none
deriving DecidableEq, Repr

/-- An open debug session (R408 to R412): level, whether a certificate opened it, permissions, key index, memory scope and the
tick at which it ends, if it has a limit. -/
structure DebugSession where
  level : Nat
  cert : Bool
  perms : Nat
  key : Nat
  base : Nat
  bound : Nat
  ends : Option Nat
deriving DecidableEq, Repr

/-- An open attestation session (R405, R406): top leaf, next session leaf, the session tree's SEED and I, the top tree's signature
of its public key, and whether the host supplied the leaf cache. -/
structure AttSession where
  top : Nat
  leaf : Nat
  seed : List Byte
  ident : List Byte
  topSig : List Byte
  hostCache : Bool
deriving DecidableEq, Repr

/-- The security block (R391 to R420). -/
structure Security where
  /-- OTP bytes, unblown where unlisted -/
  otp : SMap Byte := []
  /-- OTP bits (byte * 8 + bit) that read blown and fail the margin read (R396) -/
  weak : List Nat := []
  /-- an OTP command in progress: command, word offset, data (R395) -/
  otpCmd : Option (Nat × Nat × Nat) := none
  /-- the confidential regions in the always-on list: device address, length (R401) -/
  conf : List (Nat × Nat) := []
  nonce : Option (List Byte) := none
  debug : Option DebugSession := none
  att : Option AttSession := none
deriving DecidableEq, Repr

/-- What the Rulebook is doing between two power states (R424 to R428). -/
inductive PowerStep where
  | idle
  /-- entry to HOLD or STANDBY has begun at its boundary; saves and movers drain -/
  | draining
  /-- STANDBY: the clocks have stopped; copy, zeroise, self-refresh and rails follow -/
  | entering
  /-- the wake of R428 runs; TPWR_OK has risen once `WAKE_COMPLETE` may come -/
  | waking
  /-- the wake is complete: HOLD from the next boundary -/
  | woken
  /-- HOLD to RUN: the clocks have restarted; RUN from the boundary of the due round -/
  | restarting
deriving DecidableEq, Repr

/-- Power, reset and boot beside the PWR registers (chapter 17). -/
structure Power where
  step : PowerStep := .idle
  /-- the command of the transition in progress, and the round at which it ends, where one is known -/
  cmd : Option HostCmd := none
  due : Option Nat := none
  /-- RUN is wanted after a wake -/
  thenRun : Bool := false
  /-- ball levels: TPWR_EN out, TPWR_OK in -/
  tpwrEn : Bool := false
  tpwrOk : Bool := false
  /-- the clocks of R421 are stopped; the tensor die is off; pins are in reset after a thermal trip or with TESTMODE -/
  stopped : Bool := false
  tensorOff : Bool := false
  tripped : Bool := false
  /-- HOLD is to be entered at the next round boundary: the critical level (R430) -/
  critical : Bool := false
  /-- banks (slice * 32 + bank) that HOLD has put in retention (R425) -/
  banks : List Nat := []
  /-- die-link modules that were in service at a STANDBY entry, as a mask; cores and quarters, as masks, lost
  and not yet published (R428, R28) -/
  modules : Nat := 0
  lostCores : Nat := 0
  lostQuarters : Nat := 0
  /-- the standby copy of the line task's regions: device address, bytes (R427) -/
  copy : List (Nat × List Byte) := []
  /-- the boot image's copy in DRAM: device address, length (R434) -/
  bootImage : Option (Nat × Nat) := none
  /-- slots of the boot image that wait to run, in order -/
  bootSlots : List HostCmd := []
  /-- a slot of the boot image has completed with a code other than OK -/
  bootFail : Bool := false
  /-- a boot image is being received over the fabric: the first answers, as tick * 4 + port, earliest first; ports
  whose image was rejected; blocks that have arrived, and their bytes, by port * 2^32 + image offset -/
  bootPorts : List Nat := []
  bootFailed : List Nat := []
  bootBlocks : List Nat := []
  bootBytes : SMap Byte := []
  /-- the image this device booted with over the fabric, for the neighbours it serves -/
  bootKept : List Byte := []
deriving DecidableEq, Repr

/-- Boot flash (R434): whether a device answers, and its bytes; unlisted bytes read 0xFF. -/
structure Flash where
  fitted : Bool := false
  bytes : SMap Byte := []
deriving DecidableEq, Repr

end Sys2Proof.Machine
end

