-- ==== Sys2Proof/Machine/StateRaster.lean ====
section
/-! DEFINITION. The raster die's picture state and the fabric beside their registers. -/

namespace Sys2Proof.Machine

/-- A Pelex flit without its sequence word and CRC (R331, R332); coordinates are 6-bit codes. -/
structure FabFlit where
  cls : Nat
  typ : Nat
  dx : Nat
  dy : Nat
  sx : Nat
  sy : Nat
  hops : Nat
  arg : Nat
  payload : List Byte
deriving DecidableEq, Repr

/-- One fabric port (R334, R335): flits queued in class order, flits sent and not acknowledged with their SEQ, the next
SEQ to send, the last SEQ received in order, and the replays of the oldest flit. -/
structure FabPort where
  tx : List FabFlit := []
  replay : List (Nat × FabFlit) := []
  nextSeq : Nat := 1
  rxSeq : Nat := 0
  /-- discarding flits until the replay arrives -/
  nak : Bool := false
  tries : Nat := 0
  /-- retraining lanes -/
  retrain : Bool := false
  /-- delays measured since the link trained, in 1/16 ticks (R350) -/
  samples : List Nat := []
deriving DecidableEq, Repr

/-- A frame start announced by the time source (R354, R355): round, start tick, repeat, go and commit (R359). -/
structure Announce where
  round : Nat
  start : Nat
  isRepeat : Bool
  go : Bool := false
  commit : Bool := false
deriving DecidableEq, Repr

/-- Where a device is in discovery (R338): electing, waiting for an offer, collecting offers, joined, or ended. -/
inductive Disc where
  | off
  | electing
  | waiting
  | offered
  | joined
  | unjoined
  | failed
deriving DecidableEq, Repr

/-- A beacon as it is sent or received (R349), without its send time fields. -/
structure Beacon where
  bseq : Nat
  hops : Nat
  ann : Nat
  e : Nat
  l : Nat
  vt : Nat
  announce : Option Announce
deriving DecidableEq, Repr

/-- The fabric (chapter 14). -/
structure Fabric where
  ports : SMap FabPort := []
  disc : Disc := .off
  /-- the present discovery is a JOIN (R340) -/
  join : Bool := false
  /-- own key, and the smallest key seen: class * 2^128 + unique ID (R337) -/
  best : Nat := 0
  /-- offers of the window in progress: port, x, y of the sender (6-bit codes), depth -/
  offers : List (Nat × Nat × Nat × Nat) := []
  /-- ports whose peer took this device as its parent, and those whose subtree is complete with its count (R338) -/
  children : List Nat := []
  counts : List (Nat × Nat) := []
  /-- this device's own subtree is complete and has been reported -/
  reported : Bool := false
  /-- edge ports that a JOIN admits at a round: port, round, the peer's coordinates -/
  joining : List (Nat × Nat) := []
  /-- BSEQ of the last beacon accepted or sent, and that beacon; a parent has been abandoned (R356) -/
  bseq : Nat := 0
  last : Option Beacon := none
  orphan : Bool := false
  /-- the first accepted beacon steps the counter (R352); beacons in a row within 1/8 tick (R351) -/
  stepNext : Bool := false
  good : Nat := 0
  /-- time source: the announcement in force (R355) -/
  announce : Option Announce := none
  /-- ready flags received: device (y * 64 + x), round, bits (R359) -/
  ready : List (Nat × Nat × Nat) := []
  /-- ports lost or to be edges from the next round boundary (R360), and a parent port that serves as route from then (R356) -/
  edgeNext : List Nat := []
  parentNext : Option Nat := none
  /-- coordinate pairs of the wall, as y * 64 + x of their 6-bit codes (R339) -/
  presence : List Nat := []
deriving DecidableEq, Repr

/-- What a RASTER-class transfer on the die link carries. -/
inductive DlBody where
  /-- a line of a tensor-fed layer: round, stream, line, triple words (R227) -/
  | tensorLine (round stream line : Nat) (words : List Nat)
  /-- a capture notice: stream, frame (R223) -/
  | notice (stream frame : Nat)
  /-- an input line for a link-in descriptor of a mover (R129, R223) -/
  | linkIn (mover : Nat) (bytes : List Byte)
  /-- a fetched layer line: round, stream, layer, line, frame, bytes, and whether its read failed (R283) -/
  | layerLine (round stream layer line : Nat) (frame : Option Nat) (bytes : List Byte) (bad : Bool)
deriving DecidableEq, Repr

/-- A RASTER transfer in flight: flits still to be delivered, whether one was dropped late, the tick at which it was queued, and that of
its acceptance at the source once known (R15, R16). -/
structure DlMsg where
  body : DlBody
  flits : Nat
  lost : Bool := false
  queued : Nat := 0
  accepted : Option Nat := none
deriving DecidableEq, Repr

/-- The die link. Keys of maps are `module * 2 + direction`, or the direction: 1 toward the raster die, 0 toward the tensor die. -/
structure DieLink where
  /-- RASTER transfers, oldest first: to the raster die, and to the tensor die -/
  toRaster : List DlMsg := []
  toTensor : List DlMsg := []
  /-- tick of the last acceptance in a direction (R13) -/
  lastAccepted : SMap Nat := []
  /-- flits in the replay buffer of a module and direction, by class, oldest first (R16) -/
  replay : SMap (List DlClass) := []
  /-- class of the flit that a module and direction sent last, and its place in the weighted round robin (R13) -/
  sent : SMap (Option DlClass) := []
  wrr : SMap Nat := []
  /-- bytes of a direction's RASTER reservation used, counted from tick 0 (R14) -/
  used : SMap Nat := []
  /-- modules out of service whose traffic goes to the other module at the next lead-domain boundary (R18) -/
  leaving : List Nat := []
deriving DecidableEq, Repr

/-- A pixel: three components and an alpha, in units of 2^-16; finished pixels leave the alpha unused (R278, R295). -/
structure Pixel where
  r : Nat
  g : Nat
  b : Nat
  a : Nat
deriving DecidableEq, Repr

/-- A frame of a capture stream: number, buffer, tick of its first line, lines received, the lines whose write has
completed, notices that have acted, and whether lines still arrive (R223, R291). -/
structure CapFrame where
  id : Nat
  buf : Nat
  start : Nat
  received : Nat := 0
  lines : List Nat := []
  noticed : Nat := 0
  isOpen : Bool := true
deriving DecidableEq, Repr

/-- A captured line whose write has not completed (R291). -/
structure CapWrite where
  frame : Nat
  line : Nat
  bytes : List Byte
deriving DecidableEq, Repr

/-- A layer or gain-map line in a stream's line buffer (R283): round, layer (8 the gain map), line, the captured frame it
was read from, bytes, and whether its read failed. -/
structure FetchedLine where
  round : Nat
  layer : Nat
  line : Nat
  frame : Option Nat
  bytes : List Byte
  bad : Bool
deriving DecidableEq, Repr

/-- Run-time state of one stream beside its registers. -/
structure StreamRt where
  /-- capture: frames, newest last, and lines not yet written -/
  frames : List CapFrame := []
  writes : List CapWrite := []
  nextFrame : Nat := 0
  /-- capture: the buffer used last; from the fabric: the frame's sender and the bytes of the line in arrival (R348) -/
  lastBuf : Option Nat := none
  sender : Option Nat := none
  part : List Byte := []
  /-- capture layers bound for the round: layer, frame number (R291) -/
  binds : List (Nat × Nat) := []
  /-- tensor-fed lines received in the round, by line: triple words (R274, R285) -/
  tensor : SMap (List Nat) := []
  /-- line buffer, and for each layer the round and line to fetch next (R283) -/
  fetched : List FetchedLine := []
  fetchAt : SMap (Nat × Nat) := []
  /-- the settings that the lines fetched for the next round followed, and whether a command set the stream at this boundary (R283) -/
  fetchSet : Option (List Nat) := none
  changed : Bool := false
  /-- the line of the hold of the round (R220) -/
  hold : Option Nat := none
  /-- lines composed in this turn, not yet written to the hold buffer: triple words (R298) -/
  composed : SMap (List Nat) := []
  /-- lines read back from the hold buffer, not yet finished; whether the read failed (R441) -/
  heldLines : SMap (List Nat × Bool) := []
  /-- scan-out buffer: finished lines (R297), and the words they were finished from -/
  scan : SMap (List Pixel × List Nat) := []
  /-- the line in transmission: its number and output codes, three a pixel (R318) -/
  sent : Option (Nat × List Nat) := none
  /-- writeback lines of the round whose write has completed (R292) -/
  wbLines : Nat := 0
deriving DecidableEq, Repr

/-- Settings of a domain in force for a round (R42). -/
structure DomSet where
  src : Nat := 0
  edge : Bool := false
  ann : Nat := 0
  vtMin : Nat := 0
  vtMax : Nat := 0
deriving DecidableEq, Repr

/-- A decided round start (R43): boundary, whether a repeat round, stamp of the deciding trigger. -/
structure Decision where
  at_ : Nat
  isRepeat : Bool
  stamp : Option Nat
deriving DecidableEq, Repr

/-- A timing domain (R36 to R47, R472). -/
structure Dom where
  /-- the turn grid runs -/
  on : Bool := false
  /-- tick of the first turn boundary that has not been passed -/
  next : Nat := 0
  /-- a round has begun and the domain has not stopped since -/
  run : Bool := false
  /-- the round has begun and its turn 0 has not -/
  fresh : Bool := false
  /-- a turn is in progress: what happens at its end has not happened -/
  inTurn : Bool := false
  round : Nat := 0
  isRepeat : Bool := false
  start : Nat := 0
  turn : Nat := 0
  turnStart : Nat := 0
  set : DomSet := {}
  /-- earliest possible starts of this round and of the next (R43, R283), and the boundary the next decision tick is about -/
  bmin0 : Nat := 0
  bmin : Nat := 0
  cand : Nat := 0
  decided : Option Decision := none
  /-- stamps of pending triggers -/
  trigs : List Nat := []
  /-- source, edge and stamp of the triggers of a source that is written but not in force before the next boundary (R42) -/
  nextTrigs : List (Nat × Bool × Nat) := []
  /-- number the next round carries -/
  nextRound : Nat := 0
  /-- the round registers have been written since the domain last stopped, and the domain has run since reset (R41) -/
  written : Bool := false
  ran : Bool := false
  /-- stamp of the last REFSYNC_IN_L edge since enable -/
  lphase : Option Nat := none
  /-- the flip decision for the next boundary has been made (R289) -/
  flipsDecided : Bool := false
  /-- announcements of frame starts not yet reached, oldest first -/
  announced : List Announce := []
deriving DecidableEq, Repr

/-- One entry of a flip set: stream, layer, and the fields it carries (R288). -/
structure FlipEntry where
  stream : Nat
  layer : Nat
  offset : Option Nat := none
  pos : Option (Nat × Nat) := none
  alpha : Option Nat := none
  en : Option Bool := none
  order : Option Nat := none
deriving DecidableEq, Repr

/-- A pending flip set (R288, R289): its command and domain, fence, deadline round, entries, the stamp of its fence once reached,
and whether it is decided for the next boundary. -/
structure FlipSet where
  cmd : HostCmd
  dom : Nat
  fence : Nat
  target : Nat
  deadline : Nat
  entries : List FlipEntry
  stamp : Option Nat := none
  decided : Bool := false
deriving DecidableEq, Repr

/-- Raster-die state. -/
structure Raster where
  fab : Fabric := {}
  dl : DieLink := {}
  doms : SMap Dom := []
  streams : SMap StreamRt := []
  /-- pending flip sets in order of acceptance -/
  flips : List FlipSet := []
  /-- stream settings whose due round has begun, and that wait for a boundary of their stream's domain, which does not lead (R383) -/
  staged : List DueCmd := []
  /-- colour volume store: 64-bit entries (R306), and the entry the scrub checks next (R308) -/
  cv : SMap Nat := []
  cvScrub : Nat := 0
  /-- display check rectangles: running CRC of the round (R312), and the settings in force: CFG, POS, SIZE, EXPECT (R313) -/
  dcrCrc : SMap Nat := []
  dcrSet : SMap (List Nat) := []
  /-- transmit ports whose sink reports MST; streams that each port sends as video (R321) -/
  txMst : List Nat := []
  video : List (Nat × Nat) := []
  /-- REFSYNC_OUT settings in force (R327), and leading and trailing tick of the last pulse of the F and L outputs -/
  syncOut : Nat := 0
  refF : Option (Nat × Nat) := none
  refL : Option (Nat × Nat) := none
deriving DecidableEq, Repr

end Sys2Proof.Machine
end

