-- ==== Sys2Proof/Machine/StateTensor.lean ====
section
/-! DEFINITION. The tensor die's state beside its registers: vector cores, scratchpad, rings and queues, movers, grid,
sequencer, tensor-side timebase and task table (chapters 04 to 10). Plain data; every field's value in `{}` is its
value at reset. -/

namespace Sys2Proof.Machine

/-- One hardware loop level (R155, R174): body `[start, stop]`, iterations left with the current one counted; the
level is active exactly when `count` is not 0. -/
structure LoopLevel where
  start : Nat := 0
  stop : Nat := 0
  count : Nat := 0
deriving DecidableEq, Repr

/-- What a context that has stopped issuing waits for (R176, R177, R161). -/
inductive Wait where
  /-- a cycle that WAITC names: of the current turn, or of the next, less C (R163) -/
  | cycle (at_ : Nat)
  /-- an ACLK edge counted from cycle 0 of the current turn (WAITN) -/
  | edge (at_ : Nat)
  /-- the lead-domain turn with this ordinal (WAITTURN) -/
  | turns (target : Nat)
  /-- a ring's head slot (WAITRDY): result predicate, ring, deadline -/
  | ready (pd ring deadline : Nat)
  /-- a handle in a queue (WAITHQ): result predicate, queue, deadline -/
  | handles (pd queue deadline : Nat)
  /-- a port, queue, slot or unit: the instruction has not issued and issues again when the wait ends -/
  | resource
deriving DecidableEq, Repr

/-- Control state of one context (R155) with the issue bookkeeping of R161: the earliest next issue cycle of the
current turn, the cycles at which pending results are ready, and the cycle at which the divider is free (R168). -/
structure YCtx where
  pc : Nat := 0
  loop0 : LoopLevel := {}
  loop1 : LoopLevel := {}
  nextIssue : Nat := 0
  readyAt : SMap Nat := []
  divFree : Nat := 0
  wait : Option Wait := none
  /-- program counter and loop levels before the instruction that waits, for a pause (R248) -/
  back : Option (Nat × LoopLevel × LoopLevel) := none
  /-- mover descriptors and chains started so far, and the (order, code) of those that failed since the context's
  previous MVWAIT (R205) -/
  mvSeq : Nat := 0
  mvFails : List (Nat × Nat) := []
  /-- a pass of the context met uncorrectable data: raised at the next GWAIT or HALT (R439) -/
  dataErr : Bool := false
  /-- the task address offset of that data (R180) -/
  dataAt : Nat := 0
deriving DecidableEq, Repr

/-- An action held in the commit list of a line kernel (R159, R200). -/
inductive CommitEntry where
  | setReady (handle : Nat)
  | push (handle queue : Nat)
  | count (record elems sats specials : Nat)
deriving DecidableEq, Repr

/-- One vector core beside its two contexts. -/
structure VCore where
  /-- a kernel is between launch and HALT -/
  lineRun : Bool := false
  /-- the line context faulted and waits for the next round (R181) -/
  lineStop : Bool := false
  /-- slot of the batch task placed on the core, 0 for none -/
  batchTask : Nat := 0
  batchFault : Bool := false
  /-- the batch context issues (RUNNING and not paused) -/
  batchRun : Bool := false
  commit : List CommitEntry := []
  /-- the first late WAITC of the round has been recorded (R176) -/
  lateSeen : Bool := false
  /-- halted by DBG_CTRL, and one instruction granted by STEP (R408) -/
  dbgHalted : Bool := false
  dbgStep : Bool := false
deriving DecidableEq, Repr

/-- The vector cores: register files and instruction memories as sparse maps. Keys: scalar, vector and predicate
registers `((core * 2 + ctx) * 32 + r)`, contexts `core * 2 + ctx`, instruction words `core * 16384 + index`. -/
structure Yuben where
  sreg : SMap Word64 := []
  vreg : SMap Vec := []
  preg : SMap Pred := []
  ctxs : SMap YCtx := []
  cores : SMap VCore := []
  imem : SMap Word64 := []
  /-- cores whose batch range the TCC has filled with the Rulebook's kernel (R233): its first index, and the draw of its words -/
  kernels : SMap (Nat × Nat) := []
  /-- low half held by a write of VC_n_IDATA_LO until IDATA_HI is written, and the latched upper half (R183) -/
  idataLo : SMap Word32 := []
  idataHi : SMap Word32 := []
deriving DecidableEq, Repr

/-- One entry of a slice's gather buffer: narrow writes to one 64-byte block that have not reached the bank (R114). -/
structure GatherEntry where
  slice : Nat
  block : Nat
  core : Nat
  line : Bool
  bytes : SMap Byte
  /-- cycle of its last write plus 64, counted from the start of the turn in progress -/
  due : Nat := 0
deriving DecidableEq, Repr

/-- A bank on its way to another power state (R124, R125). -/
structure BankMove where
  slice : Nat
  bank : Nat
  target : Nat
deriving DecidableEq, Repr

/-- Scratchpad state beside its bytes. `inflight` and `scrubRow` are keyed `slice * 32 + bank`. -/
structure Spad where
  /-- gather-buffer entries of all slices, oldest first -/
  gather : List GatherEntry := []
  /-- corrected words queued for write-back, per slice, by device word address / 8 (R121) -/
  writeBack : SMap (List Nat) := []
  bankMoves : List BankMove := []
  inflight : SMap Nat := []
  scrubRow : SMap Nat := []
  /-- the first access to an uninitialised bank since it was enabled has been recorded (R126) -/
  uninitSeen : SMap Bool := []
  /-- line-mode accesses of the turn: cycle, core, slice, bank (R217) -/
  slots : List (Nat × Nat × Nat × Nat) := []
deriving DecidableEq, Repr

/-- A halo slot armed for a port and not yet ready (R224, R226). -/
structure HaloArm where
  ring : Nat
  slot : Nat
  gen : Nat
  port : Nat
  bytes : Nat
  count : Nat
  filling : Bool
deriving DecidableEq, Repr

/-- Rings and handle queues beside their registers. Slot keys are `ring * 64 + slot`. -/
structure Rings where
  ready : SMap Bool := []
  gen : SMap Nat := []
  /-- handles of stale reservations already counted in QUE_STAT.STALE (R135) -/
  staleSeen : List Nat := []
  /-- handles held by each queue, oldest first (R137) -/
  hq : SMap (List Nat) := []
  halo : List HaloArm := []
deriving DecidableEq, Repr

/-- Who issued a pass or descriptor (R101, R127). -/
inductive Issuer where
  | moveList
  | core (n : Nat)
  | tcc
  | rulebook
deriving DecidableEq, Repr

/-- A remote transfer over the fabric that a descriptor waits for (R344): blocks still to arrive, bytes arrived (by
device address), an acknowledgement outstanding, and whether a response reported an error or did not come. -/
structure Remote where
  /-- the other device, as y * 64 + x of its 6-bit coordinates -/
  dev : Nat := 0
  need : List Nat := []
  /-- blocks of `need` that have not been asked for: the mover's reads outstanding are at their limit (R127) -/
  later : List Nat := []
  got : SMap Byte := []
  ack : Bool := false
  failed : Bool := false
deriving DecidableEq, Repr

/-- A mover descriptor in a queue or in progress (R127, R128): its 16 words, its issuer and the issuer's task slot, the
handles of the destination slot it reserved and of the source slot it consumes, and the chain stage it serves. -/
structure MoverDesc where
  words : List Nat
  issuer : Issuer
  task : Nat
  /-- its order among what its core's context started (R205) -/
  seq : Nat := 0
  dst : Option Nat := none
  src : Option Nat := none
  /-- link-out line number (R227), and whether a die-link move queued it -/
  line : Nat := 0
  link : Bool := false
  /-- index of the chain and stage that issued it -/
  chain : Option (Nat × Nat) := none
  /-- completion code decided at or before its start, 0 while none -/
  code : Nat := 0
  remote : Option Remote := none
  /-- banks (slice * 32 + bank) its writes are counted in flight toward (R125) -/
  banks : List Nat := []
  /-- tokens its requests still wait for (R141) -/
  owed : Nat := 0
  /-- lead-domain round of its issue by the move list (R227) -/
  round : Nat := 0
deriving DecidableEq, Repr

/-- One Rook mover: queued and started descriptors in order, and the turn of the weighted round robin (R127). -/
structure Mover where
  queue : List MoverDesc := []
  busy : List MoverDesc := []
  wrr : Nat := 0
deriving DecidableEq, Repr

/-- One stage of a chain (R138); `left` counts the handles it has still to handle. -/
structure ChainStage where
  unit : Nat
  inQ : Nat
  outQ : Nat
  outRing : Nat
  last : Bool
  desc : Nat
  region : Nat
  left : Nat
  /-- a popped handle is in work -/
  busy : Bool := false
deriving DecidableEq, Repr

/-- A chain in progress: the core that started it (none for the TCC), its task slot, its stages. -/
structure Chain where
  id : Nat
  core : Option Nat
  task : Nat
  seq : Nat := 0
  stages : List ChainStage
deriving DecidableEq, Repr

/-- A weight tile resident in a unit's cells (R92, R93): element codes row-major, bad (uncorrectable) elements. -/
structure GridTile where
  wType : Nat
  k : Nat
  n : Nat
  codes : List Nat
  bad : List Bool
deriving DecidableEq, Repr

/-- What a pass of the tiler does (R244, R246, R247): forms products; restores or stores the partial sums of a spilled tile; stores a finished
part or brings one in; drains to C. -/
inductive TileRole where
  | product | spillIn | spillOut | partIn | partOut | drain
deriving DecidableEq, Repr

/-- The operands of a tiler's pass, staged in the task's scratchpad: element codes of the activation rows, scale entries of the rows, column
vectors, LX words; the item or the combine that it belongs to, its part, whether it is the last pass; where row 0 of its results lies in C. -/
structure TileData where
  role : TileRole
  item : Nat
  part : Nat
  last : Bool
  combine : Bool
  acts : List (List Nat) := []
  scales : List Nat := []
  cscale : List Nat := []
  bias : List Nat := []
  sums : List Nat := []
  lx : List (List Nat) := []
  cAddr : Nat := 0
  cStride : Nat := 0
deriving DecidableEq, Repr

/-- The tiler of a tiled task (R243 to R249): its operation descriptor and pointer list, the item taken and not finished, the passes of it or of
the combine that have been issued and their unit, the combines applied, the weight tile that its last pass left (entry, n, k, unit), stored partial sums. -/
structure Tiler where
  desc : List Byte := []
  ptrs : List Byte := []
  item : Option Nat := none
  step : Nat := 0
  unit : Nat := 0
  combines : Nat := 0
  held : Option (Nat × Nat × Nat × Nat) := none
  spill : List (List Nat) := []
deriving DecidableEq, Repr

/-- A pass placed at a grid unit (R99, R101). `unit` is physical: 0 to 3 for Q0 to Q3, 4 for the whole grid; `act` and
`drain` are the slice addresses in force after ring substitution (R213, R138). -/
structure GridPass where
  unit : Nat
  words : List Nat
  issuer : Issuer
  task : Nat
  descAddr : Nat := 0
  act : Nat × Nat
  drain : Nat × Nat
  /-- handle of the output slot set ready when the last drained row is complete -/
  out : Option Nat := none
  /-- handle of the input slot a chain stage releases -/
  src : Option Nat := none
  /-- the tile the pass computes with -/
  tile : Option GridTile := none
  /-- type, K and N of the tile the pass computes with, known when it is placed -/
  shape : Option (Nat × Nat × Nat) := none
  /-- index of the chain and stage that issued it -/
  chain : Option (Nat × Nat) := none
  /-- a pass of the tiler -/
  tiled : Option TileData := none
deriving DecidableEq, Repr

/-- The columns a pass works on: those of its tile, or N_COUNT (R93, R97). -/
def GridPass.columns (p : GridPass) : Nat := match p.tile with
  | some t => t.n
  | none => (p.words.getD 4 0) >>> 16 % 1024

/-- One grid unit: passes in their timelines (computing, then waiting), batch passes not yet admitted (R104), the task
slot that issued the previous pass (0 for the move list) and the tile it left (R93). -/
structure GridUnit where
  passes : List GridPass := []
  waiting : List GridPass := []
  prevOwner : Option Nat := none
  tile : Option GridTile := none
deriving DecidableEq, Repr

/-- The grid and the accumulator memory. Accumulator words are keyed `row * 512 + column` (physical, R109). -/
structure Grid where
  units : SMap GridUnit := []
  acc : SMap AccWord := []
  /-- corrected words whose write-back has not landed (R107) -/
  accWriteBack : List Nat := []
  /-- words that the scrub has visited in each column bank (R108) -/
  scrubPos : SMap Nat := []
  /-- compute-phase occupancy in quarter-cycles -/
  occupancy : Nat := 0
deriving DecidableEq, Repr

/-- A line-task ring as its move list declares it (R210). -/
structure LineRing where
  ring : Nat
  slice : Nat
  slots : Nat
  size : Nat
  streams : Nat
  pad : Nat
deriving DecidableEq, Repr

/-- A gated-fetch frame binding of a capture stream (R223). -/
structure CaptureBind where
  stream : Nat
  frame : Nat
deriving DecidableEq, Repr

/-- Declarations and moves of one loaded move list (R210, R211). -/
structure MoveList where
  cd : Nat := 0
  lMin : Nat := 0
  vtMin : Nat := 0
  aclkMin : Nat := 0
  quarter : Bool := false
  quarters : Nat := 0
  reqCap : List Nat := []
  moves : List Nat := []
  ranges : List Nat := []
  rings : List LineRing := []
  accRows : List (Nat × Nat × Nat) := []
  claims : List (Nat × List (Nat × Nat × Nat)) := []
  moverBytes : List Nat := []
  dlBytes : List Nat := []
  haloLead : List Nat := []
  balance : List (Nat × Nat × Nat) := []
  capture : List (Nat × Nat × Nat) := []
  lineDue : List (Nat × Nat) := []
deriving DecidableEq, Repr

/-- A loaded bundle (R386 to R390): header fields, the DRAM base of its area, its move-list sections in bundle order, the
region map, the stream blocks, the adaptation table, the sections placed in slices (device address, bytes) and its
confidential regions (device address, length). -/
structure Bundle where
  /-- informative identifier, and SHA-256 of the signed bytes (R407) -/
  ident : Nat
  hash : List Byte
  domain : Nat
  retain : Bool
  lMin : Nat
  lMax : Nat
  bw : List Nat
  runSeed : Nat
  adaptSeed : Nat
  area : Nat
  lists : List (List Byte)
  regions : List Byte
  setups : List (List Byte)
  adapt : List Byte
  images : List (Nat × List Byte)
  conf : List (Nat × Nat)
  /-- encrypted sections as stored: key index, additional data, IV + ciphertext + tag, device address (R402) -/
  sealed : List (Nat × List Byte × List Byte × Nat)
deriving DecidableEq, Repr

/-- A step whose tasks are placed (R263): its number, its slots that have not ended, and the cause of R265 it has met, 0
while none. -/
structure AdaptStep where
  step : Nat
  slots : List Nat
  cause : Nat := 0
  /-- the samples of its window that lie in this device's region (R261) -/
  samples : List (Nat × Nat) := []
deriving DecidableEq, Repr

/-- Online adaptation beside its registers (R257 to R272). -/
structure Adapt where
  rate : Nat := 0
  prio : Nat := 0
  /-- W0, the step whose window is open, and the run round at which that window opened -/
  w0 : Nat := 0
  step : Nat := 0
  opened : Nat := 0
  /-- the step placed and not yet decided; in AUTO mode, steps discarded before their placement, by number -/
  pend : Option AdaptStep := none
  /-- a step due to be placed that the power state, or a full table, has kept from being placed -/
  unplaced : Option Nat := none
  /-- it was HOLD or STANDBY that kept it from being placed (R262) -/
  idle : Bool := false
  /-- wall token coordinates of the samples taken in the open window, in this device's region (R261) -/
  samples : List (Nat × Nat) := []
  /-- the images of R260: those of the bundle or of the last import -/
  image : List Byte := []
  /-- the time source has been told that the placed step is ready (R266) -/
  told : Bool := false
  /-- a sample copy of the open window has failed (R265) -/
  copyFailed : Bool := false
  /-- the COMMITs due at the boundary in progress, which name one decision round (R266) -/
  commits : List HostCmd := []
  /-- a line pass met an uncorrectable word of the live working weights (R271) -/
  rebuild : Bool := false
  /-- quantisation records that line kernels have counted into: slice and offset (R83) -/
  records : List (Nat × Nat) := []
  /-- counter snapshots closed at the last commit: offset of a record, its S and E (R268) -/
  snap : List (Nat × Nat × Nat) := []
deriving DecidableEq, Repr

/-- The head slot of a ring as a consuming move finds it in its issue cycle: its place, and whether it is ready, or armed for halo data that
has not arrived (R218, R224). -/
structure HeadSlot where
  slice : Nat
  off : Nat
  ready : Bool
  halo : Bool
deriving DecidableEq, Repr

/-- The turn sequencer (R209 to R227). -/
structure Sequencer where
  /-- the bundle that is loaded -/
  bundle : Option Bundle := none
  started : Bool := false
  /-- a start or stop accepted for a due round is held by the host core; `list` is the selected list -/
  list : MoveList := {}
  listIndex : Nat := 0
  issuedThisTurn : Nat := 0
  /-- moves whose release has taken effect before a reservation of their cycle, by index, with the slot each released (R214) -/
  early : List (Nat × HeadSlot) := []
  /-- run seed of the loaded bundle, and the round of its start (R54, R390) -/
  runSeed : Nat := 0
  startRound : Nat := 0
  /-- physical quarter of each logical quarter (R31) -/
  quarterMap : List Nat := []
  /-- lines sent this round by link-out moves, per stream (R227) -/
  linkLine : SMap Nat := []
  binds : List CaptureBind := []
  /-- (stream, cause) pairs already counted or recorded this round -/
  heldThisRound : List Nat := []
  /-- no more moves this round (mark mismatch, R53) -/
  stopRound : Bool := false
  /-- moves of the move store whose word is uncorrectable, until the Rulebook has rewritten them (R440) -/
  badMoves : List Nat := []
deriving DecidableEq, Repr

/-- A turn-start mark (R17): round, turn, repeat, start tick of the following turn. -/
structure Mark where
  round : Nat
  turn : Nat
  isRepeat : Bool
  next : Nat
deriving DecidableEq, Repr

/-- The tensor-side timebase. -/
structure TensorTime where
  round : Nat := 0
  turn : Nat := 0
  isRepeat : Bool := false
  /-- vertical totals of the round that the tensor side is in (R53) -/
  vtMin : Nat := 0
  vtMax : Nat := 0
  marked : Bool := false
  /-- raster tick at which the turn began -/
  start : Nat := 0
  /-- a turn has been started since the lead domain began -/
  running : Bool := false
  /-- the previous delivered mark, for an announcement (R17) -/
  last : Option Mark := none
  /-- marks in flight from the raster die, oldest first -/
  marks : List Mark := []
  /-- consecutive marks each module failed to deliver (R17) -/
  missRun : List Nat := [0, 0]
  /-- the turn holds the extra ACLK edge (R39) -/
  extra : Bool := false
  /-- turns started since reset, for WAITTURN -/
  ordinal : Nat := 0
  /-- run round of the started bundle (R54) -/
  runRound : Nat := 0
deriving DecidableEq, Repr

/-- What the TCC holds for the tasks beside the table's bytes. -/
structure Tcc where
  /-- the task table, keyed `slot * 256 + offset` (R231) -/
  table : SMap Byte := []
  /-- slots whose pause, save, resume or cancel has been asked for and has not taken effect, each with the command that
  asked, if one did -/
  pauseReq : List (Nat × Option HostCmd) := []
  saveReq : List (Nat × Option HostCmd) := []
  resumeReq : List (Nat × Option HostCmd) := []
  cancelReq : List (Nat × Option HostCmd) := []
  /-- slots preempted or stopped by a power entry, which the TCC resumes by itself (R238, R255) -/
  autoResume : List Nat := []
  /-- slots whose batch context has issued HALT and whose passes, descriptors and chains are not all complete (R236) -/
  halted : List Nat := []
  /-- order in which running tasks were started, most recent last -/
  startOrder : List Nat := []
  chains : List Chain := []
  chainNext : Nat := 0
  /-- lead-domain round in which a slot's pause took effect (R251) -/
  pauseRound : SMap Nat := []
  /-- slots whose restore has ended and that run from the next turn boundary (R253) -/
  restored : List Nat := []
  /-- slots that were preempted and stand as READY (R238) -/
  preempted : List Nat := []
  /-- the batch context of a SAVED task, for what its save area has no place for (R252, R254) -/
  kept : SMap YCtx := []
  /-- the tick after the one in which a READY slot was accepted (R236) -/
  readyFrom : SMap Nat := []
  /-- the tilers of tiled tasks, and their combine buffers: LX rows by group and by item (R244) -/
  tilers : SMap Tiler := []
  parts : SMap (List (List Nat)) := []
  /-- slot 0 met an uncorrectable word in this turn: line-mode accesses are refused in it (R440) -/
  slot0Bad : Bool := false
deriving DecidableEq, Repr

/-- Counters of the regulator: tokens of bucket `mover * 8 + class` (R141). -/
structure Regulator where
  tokens : SMap Nat := []
deriving DecidableEq, Repr

/-- The shared cache: line numbers (address / 128) present in each set, most recently used first, with the way (R144). -/
structure SharedCache where
  sets : SMap (List (Nat × Nat)) := []
deriving DecidableEq, Repr

/-- The memory controller beside its registers: the channel key, channels in the mapping and traffic of the round. -/
structure MemCtl where
  key : Nat := 0
  mapping : List Nat := []
  /-- installed bytes, 0 before memory initialisation -/
  installed : Nat := 0
  /-- bytes of the current lead round per channel (R151) -/
  traffic : SMap Nat := []
deriving DecidableEq, Repr

end Sys2Proof.Machine
end

