-- ==== Sys2Proof/Machine/State.lean ====
section
/-! DEFINITION. The state of the block: every register (one sparse map over the maps of RegTable), every memory, the
machine state of both dies, and the queue of commands that wait. Plain data. -/

namespace Sys2Proof.Machine

/-- Why a step stops although its command is known: the spec gives every command of the table an effect, so no reason is
needed, and no step faults. -/
inductive Fault where
deriving DecidableEq, Repr

/-- Why a command has no meaning. -/
inductive Refusal where
  /-- Raised by exec for a command whose meaning is not written. Safe: the machine stops. -/
  | notModelled (mnemonic : String)
deriving DecidableEq, Repr

/-- The state. `{}` is the state right after reset. -/
structure State where
  /-- commands that wait, first in, first out -/
  pending : List Instr := []
  /-- the timebase counter in ticks (R34) -/
  now : Tick := 0
  /-- how many free values have been drawn: the model's own field, not the spec's -/
  freeIdx : Nat := 0
  /-- registers, by offset from device address 0x0011_0000_0000; unlisted ones hold their reset value -/
  regs : SMap Word32 := []
  /-- DRAM and scratchpad bytes by device address (R21) -/
  mem : List Host.Cell := []
  /-- memory words with bit errors, by device address / 8: 1 correctable, 2 uncorrectable -/
  memErr : SMap Nat := []
  /-- host memory bytes by PCI Express address -/
  hostMem : List Host.Cell := []
  yu : Yuben := {}
  spad : Spad := {}
  rings : Rings := {}
  movers : SMap Mover := []
  bwr : Regulator := {}
  shc : SharedCache := {}
  mc : MemCtl := {}
  grid : Grid := {}
  seq : Sequencer := {}
  adapt : Adapt := {}
  tt : TensorTime := {}
  tcc : Tcc := {}
  raster : Raster := {}
  host : HostSide := {}
  sec : Security := {}
  power : Power := {}
  flash : Flash := {}
  scorepad : Scorepad := {}
  /-- values latched by the read of a register group's first word (R35, R183, R454), by offset -/
  latched : SMap Word32 := []
deriving DecidableEq, Repr

/-- The machine right after reset. -/
def State.reset : State := {}

end Sys2Proof.Machine
end

