-- ==== Sys2Proof/Machine/Ops.lean ====
section
/-! DEFINITION. The named operations over registers, memories, banks, windows, rings, queues and task slots that the
meanings share, the recording of events (R446), and the taking of a fault by a vector core (R180 to R182). -/

namespace Sys2Proof.Machine

/-! ### Registers -/

/-- The stored value of the register at an offset. -/
def State.reg (s : State) (off : Nat) : Word32 := SMap.get regDefault s.regs off
def State.setReg (s : State) (off : Nat) (v : Word32) : State :=
  { s with regs := SMap.set regDefault s.regs off v }
/-- The value of a register field. -/
def State.getF (s : State) (f : Fld) : Nat := bitsOf (s.reg f.off).toNat f.hi f.lo
/-- A one-bit field as a Boolean. -/
def State.flag (s : State) (f : Fld) : Bool := s.getF f != 0
def State.setF (s : State) (f : Fld) (v : Nat) : State :=
  s.setReg f.off (BitVec.ofNat 32 (withBits (s.reg f.off).toNat f.hi f.lo v))
/-- The largest value of a field. -/
def Fld.maxVal (f : Fld) : Nat := 2 ^ (f.hi + 1 - f.lo) - 1
/-- Add to a counter field that saturates. -/
def State.bumpF (s : State) (f : Fld) (n : Nat := 1) : State := s.setF f (min (s.getF f + n) f.maxVal)
/-- Put every register of an offset range back to its reset value. -/
def State.resetRegs (s : State) (lo hi : Nat) : State :=
  { s with regs := s.regs.filter (fun c => decide (c.1 < lo) || decide (hi ≤ c.1)) }

/-! ### Recorded events -/

/-- Blocks in the order of R25 then R26, by offset: the item of a group 0x08 event (R446). -/
def blockBases : List Nat := [0x0, 0x10000, 0x20000, 0x30000, 0x40000, 0x80000, 0x100000, 0x120000, 0x130000, 0x140000,
  0x180000, 0x200000, 0x300000, 0x1000000, 0x1010000, 0x1020000, 0x1040000, 0x1060000, 0x1070000, 0x1080000, 0x1090000,
  0x10A0000, 0x10C0000, 0x10C8000, 0x10D0000, 0x10E0000, 0x10F0000, 0x10F8000, 0x1100000]
/-- The number of the block that holds an offset. -/
def blockNumber (off : Nat) : Nat := (blockBases.filter (fun b => decide (b ≤ off))).length - 1

/-- Groups 1 to 5 are ledger groups (R446). -/
def isLedgerGroup (g : Nat) : Bool := decide (1 ≤ g) && decide (g ≤ 5)

/-- An event that a rule calls recorded: it waits for the recorder, which holds 64 (R446, R447). -/
def State.record (s : State) (group item : Nat) (detail : Nat := 0) : State :=
  if s.scorepad.waiting.length < 64 then
    { s with scorepad := { s.scorepad with waiting := s.scorepad.waiting ++ [⟨group * 256 + item % 256, detail⟩] } }
  else s.bumpF (if isLedgerGroup group then F.REC_OVF_LEDGER else F.REC_OVF_TRACE)

/-- A register write that has no effect and is recorded. -/
def State.recordNoEffect (s : State) (off : Nat) : State := s.record 0x08 (blockNumber off)

/-- Draw a fresh free value's index. -/
def State.drawFree (s : State) : State := { s with freeIdx := s.freeIdx + 1 }

/-! ### Device memory: DRAM and scratchpad bytes (R21, R112) -/

def zeroByte (_ : Nat) : Byte := 0#8
/-- The canonical form of a memory: addresses rise, and no listed byte is what an unlisted address reads as. -/
abbrev Memory.wf (m : List Host.Cell) : Prop := SMap.wf zeroByte m
def State.memByte (s : State) (a : Nat) : Byte := SMap.get zeroByte s.mem a
def putBytes : List Host.Cell → Nat → List Byte → List Host.Cell
  | m, _, [] => m
  | m, a, b :: bs => putBytes (SMap.set zeroByte m a b) (a + 1) bs
def State.putMem (s : State) (a : Nat) (bs : List Byte) : State := { s with mem := putBytes s.mem a bs }
def State.memBytes (s : State) : Nat → Nat → List Byte
  | _, 0 => []
  | a, n + 1 => s.memByte a :: State.memBytes s (a + 1) n
def State.hostByte (s : State) (a : Nat) : Byte := SMap.get zeroByte s.hostMem a
def State.hostBytes (s : State) : Nat → Nat → List Byte
  | _, 0 => []
  | a, n + 1 => s.hostByte a :: State.hostBytes s (a + 1) n
def State.putHost (s : State) (a : Nat) (bs : List Byte) : State := { s with hostMem := putBytes s.hostMem a bs }

/-! ### Interrupt messages (R364, R368, R371) -/

/-- A word of the MSI-X table: the vector control word masks the vector at reset. -/
def State.msixWord (s : State) (v w : Nat) : Nat :=
  (SMap.get (fun k => if k % 4 = 3 then 1#32 else 0#32) s.host.msixTable (v * 4 + w)).toNat
/-- A message of a vector: written to host memory, or pending while the vector is masked or the function cannot send. -/
def State.msix (s : State) (v : Nat) : State :=
  if !s.host.msixEn then s
  else if s.host.msixMask || s.msixWord v 3 % 2 == 1 || s.flag F.PCI_STATUS_D3 || !s.flag F.PCI_STATUS_BME then
    if s.host.msixPend.contains v then s else { s with host := { s.host with msixPend := s.host.msixPend ++ [v] } }
  else s.putHost (s.msixWord v 0 + s.msixWord v 1 * 2 ^ 32) (leBytes 4 (s.msixWord v 2))
/-- Bits of CMD_IRQ, by vector less 16. -/
def irqField : Nat → Fld
  | 0 => F.CMD_IRQ_DCR | 1 => F.CMD_IRQ_LEDGER | 2 => F.CMD_IRQ_FAB | 3 => F.CMD_IRQ_THERM | _ => F.CMD_IRQ_CAP
/-- An event of CMD_IRQ: its message goes out when its bit changes from 0 to 1 and is enabled. -/
def State.raiseIrq (s : State) (b : Nat) : State :=
  if s.flag (irqField b) then s
  else
    let s := s.setF (irqField b) 1
    if (s.getF F.CMD_IRQ_EN_EN).testBit b then s.msix (16 + b) else s

/-! ### Slices and banks -/

def spadBase : Nat := 0x1000000000
def sliceSize : Nat := 0x400000
/-- Device address of a byte of a slice (R112). -/
def sliceAddr (n off : Nat) : Nat := spadBase + n * sliceSize + off
def bankOf (off : Nat) : Nat := off / 0x20000

/-- VCn, slice n and mover Mn are usable (R6, R28). -/
def State.unitUsable (s : State) (n : Nat) : Bool := decide (n < 16) && (s.getF F.HUB_CAP0_VC_MASK).testBit n

def anyBelow (p : Nat → Bool) : Nat → Bool
  | 0 => false
  | k + 1 => p k || anyBelow p k
def allBelow (p : Nat → Bool) : Nat → Bool
  | 0 => true
  | k + 1 => p k && allBelow p k
/-- Power state code of a bank (R124). -/
def State.bankCode (s : State) (n b : Nat) : Nat :=
  if b < 16 then ((s.reg (R.SPAD_n_PWR_LO n)).toNat >>> (2 * b)) % 4
  else ((s.reg (R.SPAD_n_PWR_HI n)).toNat >>> (2 * (b - 16))) % 4
/-- A bank serves accesses: it is on, and not on its way out of that state (R124, R125). -/
def State.bankOn (s : State) (n b : Nat) : Bool :=
  s.bankCode n b == 0 && !(s.spad.bankMoves.any (fun m => m.slice == n && m.bank == b))
/-- A bank holds initialised contents (R126). -/
def State.bankInit (s : State) (n b : Nat) : Bool := (s.getF (F.SPAD_n_BANK_INIT n)).testBit b
/-- Banks from one on, as many as an interval touches. -/
def bankSpan (off len : Nat) : Nat := bankOf (off + (len - 1)) + 1 - bankOf off
/-- Every bank that an interval of a slice touches is on. -/
def State.banksOn (s : State) (n off len : Nat) : Bool := allBelow (fun k => s.bankOn n (bankOf off + k)) (bankSpan off len)
/-- Every bank that an interval touches is initialised. -/
def State.banksInit (s : State) (n off len : Nat) : Bool := allBelow (fun k => s.bankInit n (bankOf off + k)) (bankSpan off len)

/-- The gather buffer's byte for a slice offset, the youngest entry first (R114). -/
def State.gatherByte (s : State) (n off : Nat) : Option Byte :=
  s.spad.gather.foldl (fun r e =>
    if e.slice = n ∧ e.block = off / 64 then
      match SMap.find? e.bytes (off % 64) with
      | some b => some b
      | none => r
    else r) none

/-- The byte every port reads at a slice offset: gather-buffer bytes merged over the bank's, and zero from an
uninitialised bank (R114, R126). -/
def State.sliceByte (s : State) (n off : Nat) : Byte :=
  if s.bankInit n (bankOf off) then (s.gatherByte n off).getD (s.memByte (sliceAddr n off)) else 0#8
def State.sliceBytes (s : State) (n : Nat) : Nat → Nat → List Byte
  | _, 0 => []
  | off, k + 1 => s.sliceByte n off :: State.sliceBytes s n (off + 1) k
/-- A little-endian number read from a slice. -/
def State.sliceNat (s : State) (n off len : Nat) : Nat := leNat (s.sliceBytes n off len)

/-- Count an access of an uninitialised bank, the first since its enable recorded (R126). -/
def State.noteUninit (s : State) (n b : Nat) : State :=
  let s := s.bumpF F.SPAD_EVT_UNINIT
  if SMap.get (fun _ => false) s.spad.uninitSeen (n * 32 + b) then s
  else { s.record 0x08 4 n with spad := { s.spad with uninitSeen := SMap.set (fun _ => false) s.spad.uninitSeen (n * 32 + b) true } }

/-- Count an access of an interval once for each uninitialised bank that it touches. -/
def noteUninits (n b : Nat) : Nat → State → State
  | 0, s => s
  | k + 1, s => let s := noteUninits n b k s; if s.bankInit n (b + k) then s else s.noteUninit n (b + k)
/-- The error mark of a memory word (device address / 8). -/
def State.errAt (s : State) (w : Nat) : Nat := SMap.get (fun _ => 0) s.memErr w
def State.setErr (s : State) (w e : Nat) : State := { s with memErr := SMap.set (fun _ => 0) s.memErr w e }
/-- Bit errors strike: one flipped bit is correctable, a second error or two flipped bits are not (R121). -/
def State.strike (s : State) : List (Nat × Bool) → State
  | [] => s
  | (w, two) :: r => State.strike (s.setErr w (if two || s.errAt w != 0 then 2 else 1)) r

/-- The slice of a word of the scratchpad. -/
def wordSlice (w : Nat) : Nat := (w * 8 - spadBase) / sliceSize

/-- A read of one slice word passes its ECC check (R121, R122): corrected words are counted and queued for write-back
(8 a slice), uncorrectable ones counted, latched if nothing is latched, and recorded. -/
def State.eccWord (s : State) (w : Nat) : State :=
  match s.errAt w with
  | 0 => s
  | 1 =>
    let s := s.bumpF F.SPAD_ECC_CE_CNT
    let q := SMap.get (fun _ => []) s.spad.writeBack (wordSlice w)
    if q.length < 8 && !q.contains w then
      { s with spad := { s.spad with writeBack := SMap.set (fun _ => []) s.spad.writeBack (wordSlice w) (q ++ [w]) } }
    else s
  | _ =>
    let s := s.bumpF F.SPAD_ECC_UE_CNT
    let s := if s.flag F.SPAD_ECC_ADDR_VALID then s
      else ((s.setF F.SPAD_ECC_ADDR_VALID 1).setF F.SPAD_ECC_ADDR_SLICE (wordSlice w)).setF F.SPAD_ECC_ADDR_WORD
        ((w * 8 - spadBase) % sliceSize / 8)
    s.record 0x04 1 (wordSlice w)

/-- The ECC checks of the words of a slice interval: `w` first word, `n` words. -/
def State.eccWords (s : State) (w : Nat) : Nat → State
  | 0 => s
  | n + 1 => State.eccWords (s.eccWord w) (w + 1) n
/-- Whether some word among `n` from `w` is uncorrectable. -/
def State.anyBad (s : State) (w : Nat) : Nat → Bool
  | 0 => false
  | n + 1 => s.errAt w == 2 || State.anyBad s (w + 1) n
/-- First word and number of words of an interval. -/
def firstWord (a : Nat) : Nat := a / 8
def wordCount (a len : Nat) : Nat := (a + len - 1) / 8 + 1 - a / 8

/-- Read an interval of a slice: the state after its ECC checks and counts, the bytes, and whether a word was
uncorrectable (R114, R121, R122, R126). -/
def State.readSlice (s : State) (n off len : Nat) : State × List Byte × Bool :=
  let a := sliceAddr n off
  let bad := s.anyBad (firstWord a) (wordCount a len)
  let bytes := s.sliceBytes n off len
  let s' := s.eccWords (firstWord a) (wordCount a len)
  (noteUninits n (bankOf off) (bankSpan off len) s', bytes, bad)

/-- The first uncorrectable word of an interval, as a device address. -/
def State.firstBadWord (s : State) (a len : Nat) : Nat :=
  (((List.range (wordCount a len)).find? (fun k => decide (2 ≤ s.errAt (firstWord a + k)))).map (fun k => (firstWord a + k) * 8)).getD a
/-- Drop gather-buffer bytes that a later wide write covers (R114). -/
def dropGather (g : List GatherEntry) (n off len : Nat) : List GatherEntry :=
  (g.map (fun e =>
    if e.slice = n then
      { e with bytes := e.bytes.filter (fun c => !(decide (off ≤ e.block * 64 + c.1) && decide (e.block * 64 + c.1 < off + len))) }
    else e)).filter (fun e => !e.bytes.isEmpty)

/-- Clear the error marks of the words an interval covers whole. -/
def State.clearErrs (s : State) (w : Nat) : Nat → State
  | 0 => s
  | n + 1 => State.clearErrs (s.setErr w 0) (w + 1) n
def State.overwriteErrs (s : State) (a len : Nat) : State :=
  s.clearErrs ((a + 7) / 8) ((a + len) / 8 - (a + 7) / 8)

/-- Queued write-backs of words that a write reaches are dropped (R121). -/
def State.dropWriteBack (s : State) (n a len : Nat) : State :=
  let q := (SMap.get (fun _ => []) s.spad.writeBack n).filter (fun w => decide (w * 8 + 8 ≤ a) || decide (a + len ≤ w * 8))
  { s with spad := { s.spad with writeBack := SMap.set (fun _ => []) s.spad.writeBack n q } }

/-- A write of an interval of one bank, later than any gathered byte (R114); dropped and counted in an uninitialised bank (R126). -/
def State.writeBank (s : State) (n off : Nat) (bs : List Byte) : State :=
  if s.bankInit n (bankOf off) then
    let s := { s with spad := { s.spad with gather := dropGather s.spad.gather n off bs.length } }
    ((s.overwriteErrs (sliceAddr n off) bs.length).dropWriteBack n (sliceAddr n off) bs.length).putMem (sliceAddr n off) bs
  else s.noteUninit n (bankOf off)
/-- The part of a write in each of the banks that it touches. -/
def writeBanks (n off : Nat) (bs : List Byte) : Nat → State → State
  | 0, s => s
  | k + 1, s =>
    let lo := max off ((bankOf off + k) * 0x20000)
    let hi := min (off + bs.length) ((bankOf off + k + 1) * 0x20000)
    (writeBanks n off bs k s).writeBank n lo ((bs.drop (lo - off)).take (hi - lo))
/-- A write of an interval of a slice that reaches its banks directly (wide view; R114, R126). -/
def State.writeSlice (s : State) (n off : Nat) (bs : List Byte) : State :=
  if bankSpan off bs.length = 1 then s.writeBank n off bs else writeBanks n off bs (bankSpan off bs.length) s

/-- Write the lanes of one 64-bit word of a row, `n` bytes a lane: the word is overwritten where every lane of it is on (R122, R185). -/
def writeLaneWord (sl off n : Nat) (on : Nat → Bool) (v : Nat → Nat) (g : Nat) (s : State) : State :=
  let lanes := (List.range (8 / n)).map (fun i => 8 / n * g + i)
  if lanes.all on then s.writeBank sl (off + 8 * g) ((lanes.map (fun l => leBytes n (v l))).flatten)
  else (lanes.filter on).foldl (fun s l => s.writeBank sl (off + n * l) (leBytes n (v l))) s
def writeLaneWords (sl off n : Nat) (on : Nat → Bool) (v : Nat → Nat) : Nat → State → State
  | 0, s => s
  | g + 1, s => writeLaneWord sl off n on v g (writeLaneWords sl off n on v g s)
/-- ONE WRITE OF A ROW of 128 lanes of `n` bytes, in one bank: the lanes that are on; no byte of a disabled one (R185). It is dropped, and counted
once, in an uninitialised bank (R126). -/
def State.writeLanes (s : State) (sl off n : Nat) (on : Nat → Bool) (v : Nat → Nat) : State :=
  if !anyBelow on 128 then s
  else if s.bankInit sl (bankOf off) then writeLaneWords sl off n on v (16 * n) s
  else s.noteUninit sl (bankOf off)
/-- A write of part of a word that has been read and corrected: the 64-bit word is written whole, so its error mark goes (R114, R121, R195). -/
def State.writeMerged (s : State) (n off : Nat) (bs : List Byte) : State :=
  if s.bankInit n (bankOf off) then
    (((s.setErr (firstWord (sliceAddr n off)) 0).dropWriteBack n (sliceAddr n off) bs.length).writeBank n off bs)
  else s.noteUninit n (bankOf off)

/-- Write one gather entry's bytes to the bank, word by word: a word the entry covers in part is merged by
read-modify-write, and dropped if the read finds it uncorrectable (R114). -/
def flushWords (e : GatherEntry) : Nat → State → State
  | 0, s => s
  | k + 1, s =>
    let s := flushWords e k s
    let mine := e.bytes.filter (fun c => c.1 / 8 == k)
    if mine.isEmpty then s
    else
      let w := firstWord (sliceAddr e.slice (e.block * 64)) + k
      if mine.length = 8 then
        mine.foldl (fun s c => s.putMem (sliceAddr e.slice (e.block * 64 + c.1)) [c.2]) ((s.setErr w 0).dropWriteBack e.slice (w * 8) 8)
      else
        let bad := s.errAt w == 2
        let s := s.eccWord w
        if bad then s
        else mine.foldl (fun (s : State) c => s.putMem (sliceAddr e.slice (e.block * 64 + c.1)) [c.2]) ((s.setErr w 0).dropWriteBack e.slice (w * 8) 8)
def State.flushEntry (s : State) (e : GatherEntry) : State := flushWords e 8 s

/-- The gather-buffer entries of a slice. -/
def State.gatherOf (s : State) (n : Nat) : List GatherEntry := s.spad.gather.filter (fun e => e.slice == n)

/-- Flush one entry of the buffer, if it is there. -/
def State.flushBlock (s : State) (n block : Nat) : State :=
  match s.spad.gather.find? (fun e => e.slice == n && e.block == block) with
  | none => s
  | some e =>
    State.flushEntry { s with spad := { s.spad with gather := s.spad.gather.filter (fun e => !(e.slice == n && e.block == block)) } } e

/-- Flush every entry that carries writes of a core (FENCE, R114). -/
def State.flushCore (s : State) (core : Nat) : State :=
  (s.spad.gather.filter (fun e => e.core == core)).foldl (fun s e => s.flushBlock e.slice e.block) s

/-- Merge bytes into an entry. -/
def mergeBytes : SMap Byte → Nat → List Byte → SMap Byte
  | m, _, [] => m
  | m, o, b :: bs => mergeBytes (SMap.insert (SMap.erase m o) o b) (o + 1) bs

/-! ### Reach, windows and regions (R11, R117 to R120) -/

/-- Mesh neighbours of the 4 x 4 mesh (R11). -/
def neighbours (a b : Nat) : Bool :=
  (a / 4 == b / 4 && (a % 4 + 1 == b % 4 || b % 4 + 1 == a % 4)) || (a % 4 == b % 4 && (a / 4 + 1 == b / 4 || b / 4 + 1 == a / 4))

/-- Window `w` of slice `n` admits a writer (bit of its mask) for the interval `[lo, hi)` (R119). -/
def State.windowAdmits (s : State) (n w bit lo hi : Nat) : Bool :=
  let base := s.getF (F.SPAD_n_WIN_w_BASE n w) * 64
  let e := if s.flag (F.SPAD_n_WIN_w_MASK_TOP n w) then sliceSize else s.getF (F.SPAD_n_WIN_w_BOUND n w) * 64
  decide (base < e) && decide (base ≤ lo) && decide (hi ≤ e) && ((s.reg (R.SPAD_n_WIN_w_MASK n w)).toNat % 2 ^ 20).testBit bit
/-- Some window of slice `n` admits the writer. -/
def State.windowOpen (s : State) (n bit lo hi : Nat) : Bool := anyBelow (fun w => s.windowAdmits n w bit lo hi) 32

/-- A refused remote write: counted and recorded (R120). -/
def State.refuseWindow (s : State) : State := (s.bumpF F.SPAD_EVT_WIN).record 0x08 4
/-- An access refused under R22 is recorded. -/
def State.refuseAccess (s : State) : State := s.record 0x08 0

/-- A byte range of the task table (R231). -/
def State.tableByte (s : State) (slot off : Nat) : Byte := SMap.get zeroByte s.tcc.table (slot * 256 + off)
def State.tableBytes (s : State) (slot : Nat) : Nat → Nat → List Byte
  | _, 0 => []
  | off, n + 1 => s.tableByte slot off :: State.tableBytes s slot (off + 1) n
/-- A little-endian field of a task slot (R232). -/
def State.slotField (s : State) (slot off len : Nat) : Nat := leNat (s.tableBytes slot off len)
def State.putTable (s : State) (slot off : Nat) (bs : List Byte) : State :=
  { s with tcc := { s.tcc with table := putBytes s.tcc.table (slot * 256 + off) bs } }
def State.setSlotField (s : State) (slot off len v : Nat) : State := s.putTable slot off (leBytes len v)
/-- STATE of a task slot (R235). -/
def State.taskState (s : State) (slot : Nat) : Nat := s.slotField slot 0 1 % 16
def State.setTaskState (s : State) (slot st : Nat) : State :=
  s.setSlotField slot 0 1 (s.slotField slot 0 1 / 16 * 16 + st)

/-- A scratchpad region of a task (R118, R232): slice, byte bounds and write enable. -/
structure SpadRegion where
  slice : Nat
  base : Nat
  bound : Nat
  wen : Bool
deriving DecidableEq, Repr
def State.spadRegion (s : State) (slot r : Nat) : SpadRegion :=
  let w0 := s.slotField slot (0x10 + 8 * r) 4
  let w1 := s.slotField slot (0x14 + 8 * r) 4
  ⟨bitsOf w0 27 24, bitsOf w0 16 0 * 64, bitsOf w1 16 0 * 64, w0.testBit 31⟩
/-- A DRAM region of a task. -/
structure DramRegion where
  base : Nat
  bound : Nat
  wen : Bool
deriving DecidableEq, Repr
def State.dramRegion (s : State) (slot r : Nat) : DramRegion :=
  let b := s.slotField slot (0x30 + 16 * r) 8
  ⟨bitsOf b 47 12 * 4096, bitsOf (s.slotField slot (0x38 + 16 * r) 8) 47 12 * 4096, b.testBit 0⟩

/-- The region check of R118. -/
def SpadRegion.admits (g : SpadRegion) (o len : Nat) (write : Bool) : Bool :=
  decide (o + len + g.base ≤ g.bound) && (!write || g.wen)

/-- What an access check answers. -/
inductive AccessCheck where
  | ok (slice off : Nat)
  | refused
  | window
deriving DecidableEq, Repr

/-- Reach, windows and bank power for an access of VCn or Mn to a slice (R117, R119, R124). An access past the slice's end is no access of
the slice, whatever the region's bound (DEDUCED from R112 and R118). -/
def State.checkSlice (s : State) (n slice off len : Nat) (write : Bool) : AccessCheck :=
  if !s.unitUsable slice || decide (sliceSize < off + len) then .refused
  else if slice != n && !neighbours n slice then .refused
  else if !s.banksOn slice off len then .refused
  else if write && slice != n && !s.windowOpen slice n off (off + len) then .window
  else .ok slice off

/-- The task-table slot an access is checked against can be read: slot 0 cannot in the turn of an uncorrectable word of it (R440). -/
def State.slotReads (s : State) (slot : Nat) : Bool := slot != 0 || !s.tcc.slot0Bad
/-- An access of a task address by VCn (R118, R193): region check, alignment, then the slice checks. -/
def State.checkTask (s : State) (n slot region o len align : Nat) (write : Bool) : AccessCheck :=
  let g := s.spadRegion slot region
  if !s.slotReads slot || !g.admits o len write || o % align != 0 then .refused
  else s.checkSlice n g.slice (g.base + o) len write

/-! ### Rings, handles and queues (R134 to R137) -/

def State.ringSlots (s : State) (r : Nat) : Nat := s.getF (F.QUE_RING_r_CFG_SLOTS r) + 1
def State.ringRows (s : State) (r : Nat) : Nat := s.getF (F.QUE_RING_r_CFG_SIZE r) + 1
def State.ringSlice (s : State) (r : Nat) : Nat := s.getF (F.QUE_RING_r_CFG_SLICE r)
/-- Slice offset of a slot. -/
def State.slotOffset (s : State) (r i : Nat) : Nat := s.getF (F.QUE_RING_r_CFG_BASE r) * 512 + i * s.ringRows r * 512
def State.slotReady (s : State) (r i : Nat) : Bool := SMap.get (fun _ => false) s.rings.ready (r * 64 + i)
def State.setSlotReady (s : State) (r i : Nat) (v : Bool) : State :=
  { s with rings := { s.rings with ready := SMap.set (fun _ => false) s.rings.ready (r * 64 + i) v } }
def State.slotGen (s : State) (r i : Nat) : Nat := SMap.get (fun _ => 0) s.rings.gen (r * 64 + i)
def State.setSlotGen (s : State) (r i v : Nat) : State :=
  { s with rings := { s.rings with gen := SMap.set (fun _ => 0) s.rings.gen (r * 64 + i) (v % 16384) } }
def State.ringHead (s : State) (r : Nat) : Nat := s.getF (F.QUE_RING_r_PTR_HEAD r)
def State.ringTail (s : State) (r : Nat) : Nat := s.getF (F.QUE_RING_r_PTR_TAIL r)
def State.ringUsed (s : State) (r : Nat) : Nat := s.getF (F.QUE_RING_r_PTR_USED r)
def State.headReady (s : State) (r : Nat) : Bool := s.slotReady r (s.ringHead r)

/-- The handle of a slot with its present generation (R136). -/
def State.makeHandle (s : State) (r i : Nat) : Nat :=
  s.ringSlice r * 2 ^ 28 + r * 2 ^ 20 + i * 2 ^ 14 + s.slotGen r i
def handleSlice (h : Nat) : Nat := bitsOf h 31 28
def handleRing (h : Nat) : Nat := bitsOf h 27 20
def handleSlot (h : Nat) : Nat := bitsOf h 19 14
def handleGen (h : Nat) : Nat := bitsOf h 13 0
/-- The handle's generation is still the slot's. -/
def State.handleCurrent (s : State) (h : Nat) : Bool :=
  handleSlice h == s.ringSlice (handleRing h) && handleGen h == s.slotGen (handleRing h) (handleSlot h)
/-- A handle is valid (R136). -/
def State.handleValid (s : State) (h : Nat) : Bool := s.handleCurrent h && s.slotReady (handleRing h) (handleSlot h)
/-- The use of an invalid handle (R136). -/
def State.badHandle (s : State) : State := (s.bumpF F.QUE_STAT_BADH).record 0x07 0

/-- Reserve the tail slot: its handle and the state after, or none when no slot is free (R135). -/
def State.reserve (s : State) (r : Nat) : Option (Nat × State) :=
  if s.ringUsed r < s.ringSlots r then
    let i := s.ringTail r
    let s' := (s.setF (F.QUE_RING_r_PTR_TAIL r) ((i + 1) % s.ringSlots r)).setF (F.QUE_RING_r_PTR_USED r) (s.ringUsed r + 1)
    some (s.makeHandle r i, s'.setSlotReady r i false)
  else none
/-- Release or void the head slot; nothing on an empty ring (R135). -/
def State.release (s : State) (r : Nat) : State :=
  if s.ringUsed r = 0 then s
  else
    let i := s.ringHead r
    let s := (s.setSlotReady r i false).setSlotGen r i (s.slotGen r i + 1)
    (s.setF (F.QUE_RING_r_PTR_HEAD r) ((i + 1) % s.ringSlots r)).setF (F.QUE_RING_r_PTR_USED r) (s.ringUsed r - 1)
/-- A producer found its reservation stale: counted once (R135). -/
def State.noteStale (s : State) (h : Nat) : State :=
  if s.rings.staleSeen.contains h then s
  else { s.bumpF F.QUE_STAT_STALE with rings := { s.rings with staleSeen := s.rings.staleSeen ++ [h] } }
/-- Set the slot of a handle ready, or count the stale reservation (R135, R206). -/
def State.setReady (s : State) (h : Nat) : State :=
  if s.handleCurrent h then s.setSlotReady (handleRing h) (handleSlot h) true else s.noteStale h
/-- Whether a slot is reserved: it lies in `[head, head + used)`. -/
def State.slotReserved (s : State) (r i : Nat) : Bool :=
  decide ((i + s.ringSlots r - s.ringHead r) % s.ringSlots r < s.ringUsed r)
/-- The slot of a reservation of generation `g` that is stale has been reserved again since (R135): it is reserved now, or a later
reservation has been released too. -/
def State.reservedAgain (s : State) (r i g : Nat) : Bool :=
  s.slotGen r i != g && (s.slotReserved r i || s.slotGen r i != (g + 1) % 16384)

def State.hqOf (s : State) (q : Nat) : List Nat := SMap.get (fun _ => []) s.rings.hq q
def State.setHq (s : State) (q : Nat) (l : List Nat) : State :=
  { s with rings := { s.rings with hq := SMap.set (fun _ => []) s.rings.hq q l } }
/-- Push a handle; none when the queue is full (R137). -/
def State.pushHandle (s : State) (q h : Nat) : Option State :=
  if (s.hqOf q).length < 64 then
    let s := s.setHq q (s.hqOf q ++ [h])
    some ((s.setF (F.QUE_HQ_q_TAIL q) ((s.getF (F.QUE_HQ_q_TAIL q) + 1) % 64)).setF (F.QUE_HQ_q_COUNT q) (s.hqOf q).length)
  else none
/-- Pop the oldest handle; none when the queue is empty. -/
def State.popHandle (s : State) (q : Nat) : Option (Nat × State) :=
  match s.hqOf q with
  | [] => none
  | h :: r =>
    let s := s.setHq q r
    some (h, (s.setF (F.QUE_HQ_q_HEAD q) ((s.getF (F.QUE_HQ_q_HEAD q) + 1) % 64)).setF (F.QUE_HQ_q_COUNT q) r.length)
/-- Empty a queue. -/
def State.emptyHq (s : State) (q : Nat) : State :=
  let n := (s.hqOf q).length
  let s := s.setHq q []
  (s.setF (F.QUE_HQ_q_HEAD q) ((s.getF (F.QUE_HQ_q_HEAD q) + n) % 64)).setF (F.QUE_HQ_q_COUNT q) 0

/-- A task owns a ring: the line task those its list declares, a batch task its RINGS range (R134, R232). -/
def State.ownsRing (s : State) (slot r : Nat) : Bool :=
  s.flag (F.QUE_RING_r_CFG_EN r) &&
  (if slot = 0 then s.seq.list.rings.any (fun x => x.ring == r)
   else decide (s.slotField slot 0x90 1 ≤ r) && decide (r < s.slotField slot 0x90 1 + s.slotField slot 0x91 1))
/-- A queue lies in the QUEUES range of a task slot (R232). -/
def State.inQueues (s : State) (slot q : Nat) : Bool :=
  decide (s.slotField slot 0x94 1 ≤ q) && decide (q < s.slotField slot 0x94 1 + s.slotField slot 0x95 1)
/-- A batch task that holds its units names a queue. -/
def State.queueTaken (s : State) (q : Nat) : Bool :=
  ((s.tcc.table.map (fun c => c.1 / 256)).eraseDups).any (fun t => t != 0 && [2, 3, 4, 5, 7, 10].contains (s.taskState t) && s.inQueues t q)
/-- A task owns a handle queue (QUEUES range, R232); the line task those that no placed batch task names (the region map gives none). -/
def State.ownsQueue (s : State) (slot q : Nat) : Bool := if slot = 0 then !s.queueTaken q else s.inQueues slot q

/-! ### Line holds (R218, R220, TT_HOLD) -/

/-- Streams fed by the started bundle: those with a line-due declaration (R210). -/
def State.fedStreams (s : State) : List Nat := (s.seq.list.lineDue.map (fun x => x.1)).eraseDups
def minList : List Nat → Nat
  | [] => 0
  | [a] => a
  | a :: r => min a (minList r)
/-- The lowest set bit at or above `i`, among `fuel` bits. -/
def lowestBit (m : Nat) : Nat → Nat → Nat
  | 0, _ => 0
  | f + 1, i => if m.testBit i then i else lowestBit m f (i + 1)
/-- The lowest-numbered stream of a ring's stream mask. -/
def State.ringStream (s : State) (r : Nat) : Nat :=
  match s.seq.list.rings.find? (fun x => x.ring == r) with
  | some x => lowestBit x.streams 64 0
  | none => 0
/-- Latch a hold in TT_HOLD if none is latched, and count and record it once per stream and round. -/
def State.latchHold (s : State) (cause stream ring : Nat) (turn : Nat := s.tt.turn) : State :=
  let s := if s.flag F.TT_HOLD_VALID then s
    else ((((s.setF F.TT_HOLD_VALID 1).setF F.TT_HOLD_CAUSE cause).setF F.TT_HOLD_STREAM stream).setF F.TT_HOLD_RING ring).setF
      F.TT_HOLD_TURN turn
  if s.seq.heldThisRound.contains stream then s
  else
    { (s.bumpF F.TT_HOLD_CNT_COUNT).record 0x06 cause stream with
      seq := { s.seq with heldThisRound := s.seq.heldThisRound ++ [stream] } }

/-! ### Domains and streams -/

def State.dom (s : State) (n : Nat) : Dom := SMap.get (fun _ => {}) s.raster.doms n
def State.setDom (s : State) (n : Nat) (d : Dom) : State :=
  { s with raster := { s.raster with doms := SMap.set (fun _ => {}) s.raster.doms n d } }
def State.leadDom (s : State) : Nat := s.getF F.TB_CTRL_LEAD
/-- Turn length and vertical total of a domain. -/
def State.turnLen (s : State) (d : Nat) : Nat := s.getF (F.TB_Dn_TURN_LEN d)
def State.vtMin (s : State) (d : Nat) : Nat := s.getF (F.TB_Dn_VTOT_VT_MIN d)
/-- The first cycle count that no turn of L ticks is sure to reach at an ACLK (R228 Budget). -/
def budgetOf (l mhz : Nat) : Nat := l * mhz / 1000
/-- What a word of instruction memory holds that nothing has written since: zero, or a word of the Rulebook's kernel, which is free (R233). -/
def State.imemBase (s : State) (i : Nat) : Word64 :=
  match SMap.find? s.yu.kernels (i / 16384) with
  | some (first, draw) => if first ≤ i % 16384 then BitVec.ofNat 64 (Config.freeValue draw (i % 16384)) else 0#64
  | none => 0#64
/-- A word of instruction memory, by core * 16384 + index. -/
def State.imemWord (s : State) (i : Nat) : Word64 := SMap.get s.imemBase s.yu.imem i
def State.setImem (s : State) (i : Nat) (w : Word64) : State := { s with yu := { s.yu with imem := SMap.set s.imemBase s.yu.imem i w } }
/-- The word is one of the Rulebook's kernel. -/
def State.kernelWord (s : State) (i : Nat) : Bool :=
  (SMap.find? s.yu.imem i).isNone && (match SMap.find? s.yu.kernels (i / 16384) with | some k => decide (k.1 ≤ i % 16384) | none => false)
/-- The TCC writes the Rulebook's kernel into the batch range of a core, in free words (R233). -/
def State.putKernel (s : State) (n : Nat) : State :=
  let first := s.getF (F.VC_n_CTRL_LINE_END n)
  let y := { s.yu with imem := s.yu.imem.filter (fun c => !(c.1 / 16384 == n && decide (first ≤ c.1 % 16384))), kernels := SMap.insert (SMap.erase s.yu.kernels n) n (first, s.freeIdx) }
  { s.drawFree with yu := y }

/-- The cycles C that a turn of the lead domain provides (R39). -/
def State.budget (s : State) : Nat := budgetOf (s.turnLen s.leadDom) (s.getF F.HUB_ACLK_MHZ)
/-- The lead domain's present round. -/
def State.leadRound (s : State) : Nat := (s.dom s.leadDom).round
def State.strm (s : State) (n : Nat) : StreamRt := SMap.get (fun _ => {}) s.raster.streams n
def State.setStrm (s : State) (n : Nat) (x : StreamRt) : State :=
  { s with raster := { s.raster with streams := SMap.set (fun _ => {}) s.raster.streams n x } }
/-- The rest of a stream's round, from a line, is shown from its hold buffer (R220, R284); a hold from an earlier line stands. -/
def State.startHold (s : State) (n line : Nat) : State :=
  match (s.strm n).hold with
  | some h => if line < h then s.setStrm n { s.strm n with hold := some line } else s
  | none => (s.setStrm n { s.strm n with hold := some line }).setF (F.STR_n_STATUS_HOLD n) 1
/-- The line of a stream that a stop of its source in the present turn of the lead domain holds from: the first whose due
tick has not passed (R53, R181, R220). -/
def State.stopLine (s : State) (n : Nat) : Nat :=
  match s.seq.list.lineDue.find? (fun x => x.1 == n) with
  | some (_, f) => (s.dom s.leadDom).turn + 1 - f
  | none => 0
/-- Streams whose source has stopped show the rest of the round from their hold buffers, unless the raster die is already in
another round. -/
def State.holdStreams (s : State) : List Nat → State
  | [] => s
  | n :: r => State.holdStreams (if (s.dom s.leadDom).round = s.tt.round then s.startHold n (s.stopLine n) else s) r

/-! ### Completion records (R379 to R381) and task faults (R256) -/

/-- A fence is reached (R287). -/
def fenceReached (value target : Nat) : Bool := decide ((value + 2 ^ 32 - target % 2 ^ 32) % 2 ^ 32 < 2 ^ 31)
/-- Pending flip sets whose fence a write has made reached are stamped with its tick (R287). -/
def stampFlips (k value now : Nat) (l : List FlipSet) : List FlipSet :=
  l.map (fun f => if f.fence = k ∧ f.stamp = none ∧ fenceReached value f.target then { f with stamp := some now } else f)
/-- A write of a fence counter. -/
def State.writeFence (s : State) (k v : Nat) : State :=
  let s := s.setF (F.CMP_FENCE_k_VALUE k) v
  { s with raster := { s.raster with flips := stampFlips k (v % 2 ^ 32) s.now s.raster.flips } }

/-- A record of completion waits to be written (R381). -/
def State.pushCpl (s : State) (c : Cpl) : State := { s with host := { s.host with cpl := s.host.cpl ++ [c] } }
/-- A COMMAND COMPLETES: its fence is written if it completed with OK (R379), and its record waits. -/
def State.complete (s : State) (c : HostCmd) (code : Nat) (result : Nat := 0) (detail : Nat := 0) : State :=
  let s := if code = 0 ∧ c.flags.testBit 3 then s.writeFence (c.fenceK % 64) c.fenceValue else s
  let s := if c.origin = .boot ∧ code ≠ 0 then { s with power := { s.power with bootFail := true } } else s
  if c.origin = .gone then s
  else s.pushCpl ⟨c.seq, c.opcode, code, (match c.origin with | .fabric _ _ _ => 1 | _ => 0), c.tag, detail, s.leadRound, result,
    if c.flags.testBit 2 then some c.vec else none, c.origin⟩
/-- A cause of R265 that the placed step has met; the first one stands. -/
def State.stepCause (s : State) (cause : Nat) : State :=
  match s.adapt.pend with
  | some p => { s with adapt := { s.adapt with pend := some { p with cause := if p.cause = 0 then cause else p.cause } } }
  | none => s
/-- A slot returns to FREE: its bytes are zero (R235). -/
def State.clearSlot (s : State) (slot : Nat) : State := s.putTable slot 0 (List.replicate 256 0#8)
/-- A task of the placed step has ended: FAULTED and CANCELLED are causes 0x2 and 0x6 (R265). -/
def State.stepTaskEnded (s : State) (slot code : Nat) : State :=
  match s.adapt.pend with
  | some p =>
    if p.slots.contains slot then
      let s := { s with adapt := { s.adapt with pend := some { p with slots := p.slots.filter (fun x => x != slot) } } }
      if code = 0x0D then s.stepCause 2 else if code = 0x09 then s.stepCause 6 else s
    else s
  | none => s
/-- The record of a task that has ended (R381); an adaptation-step task writes none (R265). -/
def State.taskRecord (s : State) (slot code : Nat) : State :=
  if bitsOf (s.slotField slot 0 4) 15 12 = 2 then (s.stepTaskEnded slot code).clearSlot slot
  else
  let sub := s.host.submitters.find? (fun x => x.slot == slot)
  let s := { s with host := { s.host with submitters := s.host.submitters.filter (fun x => x.slot != slot) } }
  s.pushCpl ⟨0, 9, code, 2, s.slotField slot 0x04 4, slot, s.leadRound,
    s.slotField slot 0xAC 4 % 16 + s.slotField slot 0xB0 4 * 2 ^ 32,
    (match sub with | some x => x.vec | none => none), (match sub with | some x => x.origin | none => .host)⟩

/-- A batch task ends FAULTED: latched in the slot and in TASK_FAULT, recorded, and its completion record waits. -/
def State.faultTask (s : State) (slot code unit info : Nat) : State :=
  let s := s.setTaskState slot 9
  let s := (s.setSlotField slot 0xAC 4 (code + unit * 65536)).setSlotField slot 0xB0 4 info
  let s := if s.flag F.TASK_FAULT_VALID then s
    else ((s.setF F.TASK_FAULT_VALID 1).setF F.TASK_FAULT_SLOT slot).setF F.TASK_FAULT_CODE code
  (s.record 0x07 code slot).taskRecord slot 0x0D

/-! ### Vector cores: contexts and the taking of a fault -/

def State.mover (s : State) (m : Nat) : Mover := SMap.get (fun _ => {}) s.movers m

def ctxIdx : CtxId → Nat
  | .line => 0
  | .batch => 1
def State.vcore (s : State) (n : Nat) : VCore := SMap.get (fun _ => {}) s.yu.cores n
def State.setVcore (s : State) (n : Nat) (c : VCore) : State :=
  { s with yu := { s.yu with cores := SMap.set (fun _ => {}) s.yu.cores n c } }
def State.yctx (s : State) (n : Nat) (x : CtxId) : YCtx := SMap.get (fun _ => {}) s.yu.ctxs (n * 2 + ctxIdx x)
def State.setYctx (s : State) (n : Nat) (x : CtxId) (c : YCtx) : State :=
  { s with yu := { s.yu with ctxs := SMap.set (fun _ => {}) s.yu.ctxs (n * 2 + ctxIdx x) c } }
/-- The task slot whose regions, rings and queues a context uses: slot 0 is the line task (R231). -/
def State.ctxTask (s : State) (n : Nat) (x : CtxId) : Nat :=
  match x with
  | .line => 0
  | .batch => (s.vcore n).batchTask

/-- The slot of a handle is voided: released where it is its ring's head, else left not ready. -/
def State.voidHandle (s : State) (h : Nat) : State :=
  if s.handleCurrent h && handleSlot h == s.ringHead (handleRing h) then s.release (handleRing h)
  else s.setSlotReady (handleRing h) (handleSlot h) false
/-- The slots named by a discarded commit list, by a ready bit or a push, are voided (R181): each is the head slot of its ring or stays reserved
and not ready until the round boundary clears it (R221). -/
def voidNamed : List CommitEntry → State → State
  | [], s => s
  | .setReady h :: r, s =>
    voidNamed r (s.voidHandle h)
  | .push h _ :: r, s => voidNamed r (s.voidHandle h)
  | .count _ _ _ _ :: r, s => voidNamed r s

/-- TAKING A FAULT: the context stops issuing with its registers kept; VC_n_FAULT latches the first fault; every fault
is recorded; both loop levels end (R175, R180). A line-context fault discards the commit list, stops the core's launches
for the round and holds the bundle's streams with cause 3 (R181); a batch-context fault faults the task: with code 2 for a grid refusal,
else 1 (R182, R256, log 211). -/
def State.takeFault (s : State) (n : Nat) (x : CtxId) (code info : Nat) : State :=
  let c := s.yctx n x
  let s := if s.flag (F.VC_n_FAULT_VALID n) then s
    else (((((s.setF (F.VC_n_FAULT_VALID n) 1).setF (F.VC_n_FAULT_CTX n) (ctxIdx x)).setF (F.VC_n_FAULT_CODE n) code).setF
      (F.VC_n_FAULT_PC n) c.pc).setReg (R.VC_n_FAULT_INFO n) (BitVec.ofNat 32 info))
  let s := s.record 0x07 code n
  let s := s.setYctx n x { c with loop0 := {}, loop1 := {}, wait := none }
  match x with
  | .line =>
    let v := s.vcore n
    let s := voidNamed v.commit s
    let s := s.setVcore n { v with lineRun := false, lineStop := true, commit := [] }
    (s.latchHold 3 (minList s.fedStreams) 0).holdStreams s.fedStreams
  | .batch =>
    let v := s.vcore n
    let s := s.setVcore n { v with batchFault := true, batchRun := false }
    if v.batchTask = 0 ∨ s.taskState v.batchTask = 9 then s
    else if code = 4 then s.faultTask v.batchTask 2 n info
    else s.faultTask v.batchTask 1 n (s.reg (R.VC_n_FAULT n)).toNat

/-! ### Shared slots and narrow writes (R113, R114, R217) -/

/-- LINE-MODE CORE ACCESSES take the shared slots of banks: (cycle, slice, bank). Where one meets another core's, the conflict is counted, the
lower-numbered core is served and the kernel of the other ends as an overrun (R217). The answer says whether this core is served. -/
def State.claimSlots (s : State) (core : Nat) : List (Nat × Nat × Nat) → State × Bool
  | [] => (s, true)
  | a :: r =>
    let taken := { s with spad := { s.spad with slots := s.spad.slots ++ [(a.1, core, a.2)] } }
    match s.spad.slots.find? (fun x => x.1 == a.1 && x.2.1 != core && x.2.2 == a.2) with
    | none => State.claimSlots taken core r
    | some (_, j, _) =>
      if j < core then (s.bumpF F.TT_SEQ_EVT_CONFLICT, false)
      else State.claimSlots ((taken.bumpF F.TT_SEQ_EVT_CONFLICT).takeFault j .line 9 0) core r

/-- The accesses of an entry's write-back from cycle c on: a read of the words that it covers in part, then the write (R114). -/
def GatherEntry.accesses (e : GatherEntry) (c : Nat) : List (Nat × Nat × Nat) :=
  let at_ := (e.slice, bankOf (e.block * 64))
  if (List.range 8).all (fun k => let n := (e.bytes.filter (fun b => b.1 / 8 == k)).length; n == 0 || n == 8) then [(c, at_)]
  else [(c, at_), (c + 1, at_)]
/-- The write-back of an entry in cycle c: an access of the core whose writes it carries, in that core's mode (R114). -/
def State.flushAt (s : State) (n block c : Nat) : State :=
  match s.spad.gather.find? (fun e => e.slice == n && e.block == block) with
  | none => s
  | some e =>
    let s := if e.line then
        match s.claimSlots e.core (e.accesses c) with
        | (s, true) => s
        | (s, false) => s.takeFault e.core .line 9 0
      else s
    s.flushBlock n block
/-- The room for a narrow write in a slice's gather buffer: the block's entry, or a new one after the oldest of 16 has been written. -/
def State.gatherRoom (s : State) (n block core : Nat) (line : Bool) (t : Nat) : State :=
  if s.spad.gather.any (fun e => e.slice == n && e.block == block) then s
  else
    let s := if (s.gatherOf n).length < 16 then s
      else match s.gatherOf n with
        | e :: _ => s.flushAt n e.block t
        | [] => s
    { s with spad := { s.spad with gather := s.spad.gather ++ [{ slice := n, block := block, core := core, line := line, bytes := [] }] } }
/-- A NARROW WRITE of 1 to 8 aligned bytes, in cycle t, enters the slice's gather buffer; a full entry is written at once (R114). Dropped in an
uninitialised bank (R126). An entry that two cores write belongs to the last writer: the model's choice (log 216). -/
def State.writeNarrow (s : State) (n off core : Nat) (line : Bool) (t : Nat) (bs : List Byte) : State :=
  if s.bankInit n (bankOf off) then
    let s := s.gatherRoom n (off / 64) core line t
    let s := { s with spad := { s.spad with gather := s.spad.gather.map (fun (e : GatherEntry) =>
      if e.slice = n ∧ e.block = off / 64 then { e with core := core, line := line, bytes := mergeBytes e.bytes (off % 64) bs, due := t + 64 } else e) } }
    if s.spad.gather.any (fun e => e.slice == n && e.block == off / 64 && e.bytes.length == 64) then s.flushAt n (off / 64) t else s
  else s.noteUninit n (bankOf off)
/-- A line kernel's FENCE issued in cycle t: its core's entries are written in turn, one every second cycle (R114, R179). -/
def fenceEntries (core : Nat) : Nat → List GatherEntry → State → State
  | _, [], s => s
  | c, e :: r, s => fenceEntries core (c + 2) r (s.flushAt e.slice e.block c)
def State.fenceCore (s : State) (core t : Nat) : State := fenceEntries core (t + 1) (s.spad.gather.filter (fun e => e.core == core)) s

end Sys2Proof.Machine
end

