-- ==== Sys2Proof/Machine/Flags.lean ====
section
/-! DEFINITION. Conditions: the comparison codes of PCMP, PCMPI and BR (R172), of VCMP (R189) and the predicate tests of
BP (R173). The Yuben cores have predicates in place of a flag register. -/

namespace Sys2Proof.Machine

/-- The conditions of R172: 0 EQ, 1 NE, 2 LT, 3 GE, 4 LTU, 5 GEU; 6 to 31 are reserved. -/
def scalarCond (c : Nat) (a b : Word64) : Option Bool :=
  match c with
  | 0 => some (a == b)
  | 1 => some (a != b)
  | 2 => some (a.slt b)
  | 3 => some (!a.slt b)
  | 4 => some (a.ult b)
  | 5 => some (!a.ult b)
  | _ => none

/-- The predicate tests of BP: 0 BANY, 1 BALL, 2 BNONE (R173). -/
def predCond (c : Nat) (p : Pred) : Option Bool :=
  match c with
  | 0 => some (p != 0#128)
  | 1 => some (p == BitVec.allOnes 128)
  | 2 => some (p == 0#128)
  | _ => none

/-- An ordered comparison by code of R189: 0 EQ, 1 NE, 2 LT, 3 GE, 4 LE, 5 GT. -/
def ordCond (c : Nat) (lt eq : Bool) : Bool :=
  match c with
  | 0 => eq
  | 1 => !eq
  | 2 => lt
  | 3 => !lt
  | 4 => lt || eq
  | _ => !(lt || eq)

/-- The lane comparison of VCMP for types INT32, UINT32, PX20 and FP32 (R189); code 6 (UNORD) is FP32 only. -/
def laneCond (t : ElemType) (c a b : Nat) : Bool :=
  match t with
  | .int32 => ordCond c (decide (signedOf 32 a < signedOf 32 b)) (a % 2 ^ 32 == b % 2 ^ 32)
  | .px20 => ordCond c (decide (a % 2 ^ 20 < b % 2 ^ 20)) (a % 2 ^ 20 == b % 2 ^ 20)
  | .fp32 =>
    match decodeFloat fmtFP32 a, decodeFloat fmtFP32 b with
    | .nan, _ => c == 1 || c == 6
    | _, .nan => c == 1 || c == 6
    | .inf x, .inf y => if c = 6 then false else ordCond c (x && !y) (x == y)
    | .inf x, .fin _ _ => if c = 6 then false else ordCond c x false
    | .fin _ _, .inf y => if c = 6 then false else ordCond c (!y) false
    | .fin _ p, .fin _ q => if c = 6 then false else ordCond c (p.lt q) (p.le q && q.le p)
  | _ => ordCond c (decide (a % 2 ^ 32 < b % 2 ^ 32)) (a % 2 ^ 32 == b % 2 ^ 32)

/-- The condition codes VCMP accepts for a type. -/
def vcmpCodeOk (t : ElemType) (c : Nat) : Bool := decide (c ≤ 5) || (c == 6 && t == .fp32)

end Sys2Proof.Machine
end

