-- ==== Sys2Proof/Machine/Operands.lean ====
section
/-! DEFINITION. The operands of a Yuben instruction and its issue: register access, predication (R166, R185), the word
checks of R164, the fetch check of R156, the issue cycle of R161, program counter and hardware loops (R173 to R175). -/

namespace Sys2Proof

/-- imm24 sign-extended to 64 bits. -/
def YWord.simm (w : YWord) : Word64 := w.imm.signExtend 64
/-- imm24 as a number. -/
def YWord.uimm (w : YWord) : Nat := w.imm.toNat
/-- The element type of an instruction's ty field. -/
def YWord.elem (w : YWord) : Machine.ElemType := (Machine.ElemType.ofCode w.ty.toNat).getD .int8

end Sys2Proof

namespace Sys2Proof.Machine

/-- Key of a context's registers. -/
def ctxKey (k : Issue) : Nat := k.core * 2 + ctxIdx k.ctx
/-- Scalar register; s0 reads zero (R155). -/
def State.sget (s : State) (k : Issue) (r : BitVec 5) : Word64 :=
  if r = 0#5 then 0#64 else SMap.get (fun _ => 0#64) s.yu.sreg (ctxKey k * 32 + r.toNat)
/-- Write a scalar register; writes to s0 are discarded (R155). -/
def State.sset (s : State) (k : Issue) (r : BitVec 5) (v : Word64) : State :=
  if r = 0#5 then s
  else { s with yu := { s.yu with sreg := SMap.set (fun _ => 0#64) s.yu.sreg (ctxKey k * 32 + r.toNat) v } }
def State.vget (s : State) (k : Issue) (r : BitVec 5) : Vec := SMap.get (fun _ => 0#4096) s.yu.vreg (ctxKey k * 32 + r.toNat)
def State.vset (s : State) (k : Issue) (r : BitVec 5) (v : Vec) : State :=
  { s with yu := { s.yu with vreg := SMap.set (fun _ => 0#4096) s.yu.vreg (ctxKey k * 32 + r.toNat) v } }
/-- Predicate register; p0 reads all ones (R155). -/
def State.pget (s : State) (k : Issue) (r : Nat) : Pred :=
  if r = 0 then BitVec.allOnes 128 else SMap.get (fun _ => 0#128) s.yu.preg (ctxKey k * 32 + r)
def State.pset (s : State) (k : Issue) (r : Nat) (v : Pred) : State :=
  if r = 0 then s
  else { s with yu := { s.yu with preg := SMap.set (fun _ => 0#128) s.yu.preg (ctxKey k * 32 + r) v } }

/-- Lane `l` is enabled (R185). -/
def State.laneOn (s : State) (k : Issue) (w : YWord) (l : Nat) : Bool := (s.pget k w.p.toNat).toNat.testBit l != w.pn
/-- A scalar, control or timing instruction is enabled (R166). -/
def State.enabled (s : State) (k : Issue) (w : YWord) : Bool := s.laneOn k w 0

/-- Names of registers in the issue bookkeeping: s0 to s31, v0 to v31, p0 to p7. -/
def rS (r : BitVec 5) : Nat := r.toNat
def rV (r : BitVec 5) : Nat := 32 + r.toNat
def rP (r : Nat) : Nat := 64 + r
/-- A scalar destination in the bookkeeping: s0 is never pending. -/
def wS (r : BitVec 5) : List Nat := if r = 0#5 then [] else [rS r]

/-- What an instruction's table row says of its word: the fields it uses, the types it accepts, whether it is predicated
as a whole (R166) or by lane (R185), whether the line context may issue it (R160, R207), the registers it reads and
writes, its latency and the distance to the next issue. -/
structure YSpec where
  useD : Bool := false
  useA : Bool := false
  useB : Bool := false
  useC : Bool := false
  useImm : Bool := false
  tys : List Nat := [0]
  whole : Bool := true
  lineOk : Bool := true
  reads : List Nat := []
  writes : List Nat := []
  lat : Nat := 1
  gap : Nat := 1
  divider : Bool := false

/-- The word has zero in every field its instruction does not use, and an accepted type (R164). -/
def YSpec.wordOk (sp : YSpec) (w : YWord) : Bool :=
  (sp.useD || w.d == 0#5) && (sp.useA || w.a == 0#5) && (sp.useB || w.b == 0#5) && (sp.useC || w.c == 0#5) &&
  (sp.useImm || w.imm == 0#24) && sp.tys.contains w.ty.toNat

/-- What an enabled instruction comes to. -/
inductive YEffect where
  /-- complete; the next instruction in sequence follows -/
  | done (s : State)
  /-- complete, with a latency and a distance to the next issue found at issue -/
  | late (s : State) (lat gap : Nat)
  /-- a loop body is skipped; the instruction after `last` follows at +3 (R174) -/
  | skip (s : State) (last : Nat)
  /-- a taken branch or jump -/
  | jump (s : State) (target : Nat)
  /-- a fault of R180: code and FAULT_INFO; the state holds counts made before it -/
  | fault (s : State) (code info : Nat)
  /-- the instruction has not issued: something it needs is not available (R161) -/
  | stall (s : State)
  /-- issued, and the context waits -/
  | wait (s : State) (w : Wait)
  /-- the context has ended its work (HALT) -/
  | halt (s : State)

/-- Stage 1 of R263: a task of the placed step waits until every sample copy of its window has completed. -/
def State.stepWaits (s : State) (k : Issue) : Bool :=
  match s.adapt.pend with
  | some p => k.ctx == .batch && p.slots.contains (s.vcore k.core).batchTask && anyBelow (fun m => ((s.mover m).queue ++ (s.mover m).busy).any (fun d =>
      d.issuer == .moveList && d.seq == p.step && bitsOf (d.words.getD 0 0) 27 25 == 2)) 16
  | none => false
/-- The context holds its core and issues, and its clock runs (R155, R157, R181, R182, R408, R421). -/
def State.issues (s : State) (k : Issue) : Bool :=
  let v := s.vcore k.core
  !s.power.stopped && !s.stepWaits k && s.unitUsable k.core && ((s.yctx k.core k.ctx).wait == none) && (!v.dbgHalted || v.dbgStep) &&
  (match k.ctx with
   | .line => v.lineRun
   | .batch => v.batchRun && !v.batchFault && v.batchTask != 0 && !v.lineRun && s.flag (F.VC_n_CTRL_BATCH_EN k.core))

/-- The PC lies in its context's range of instruction memory (R156). -/
def State.pcInRange (s : State) (k : Issue) : Bool :=
  let pc := (s.yctx k.core k.ctx).pc
  let e := s.getF (F.VC_n_CTRL_LINE_END k.core)
  match k.ctx with
  | .line => decide (pc < e)
  | .batch => decide (e ≤ pc) && decide (pc < 16384)

/-- The word that instruction memory holds at the PC has an opcode and a function that some table defines (R164, R165). -/
def State.opDefined (s : State) (k : Issue) : Bool :=
  s.kernelWord (k.core * 16384 + (s.yctx k.core k.ctx).pc) || (decodeYuben k (s.imemWord (k.core * 16384 + (s.yctx k.core k.ctx).pc))).isSome

/-- The cycle in which a pending result of a register is ready; 0 if none is pending. -/
def YCtx.ready (c : YCtx) (r : Nat) : Nat := SMap.get (fun _ => 0) c.readyAt r
def maxReady (c : YCtx) : List Nat → Nat
  | [] => 0
  | r :: rs => max (c.ready r) (maxReady c rs)
/-- The issue cycle of R161. -/
def issueCycle (c : YCtx) (sp : YSpec) (w : YWord) (divFree : Nat) : Nat :=
  max (max c.nextIssue (c.ready (rP w.p.toNat))) (max (maxReady c (sp.reads ++ sp.writes)) (if sp.divider then divFree else 0))
/-- The issue cycle of a disabled instruction: it waits only for its predicate (R166). -/
def skipCycle (c : YCtx) (w : YWord) : Nat := max c.nextIssue (c.ready (rP w.p.toNat))
/-- The cycle at which a core's one divider is free of the divisions of both contexts (R168). -/
def State.divFree (s : State) (n : Nat) : Nat := max (s.yctx n .line).divFree (s.yctx n .batch).divFree
/-- Note when results are ready. -/
def noteReady (c : YCtx) (t : Nat) : List Nat → YCtx
  | [] => c
  | r :: rs => noteReady { c with readyAt := SMap.set (fun _ => 0) c.readyAt r t } t rs

/-- One loop level at the end of a body: its new value, and whether the next iteration starts (R174). -/
def LoopLevel.atEnd (l : LoopLevel) (last : Nat) : LoopLevel × Bool :=
  if l.count ≠ 0 ∧ l.stop = last then
    if 1 < l.count then ({ l with count := l.count - 1 }, true) else ({}, false)
  else (l, false)

/-- The context after the instruction at `last` when execution goes on in sequence: the inner loop first, then the
outer one, else the next instruction (R174). -/
def seqNext (c : YCtx) (last : Nat) : YCtx :=
  if c.loop0.count ≠ 0 ∧ (c.loop1.count = 0 ∨ c.loop1.start < c.loop0.start) then
    match c.loop0.atEnd last with
    | (l0, true) => { c with loop0 := l0, pc := l0.start }
    | (l0, false) =>
      match c.loop1.atEnd last with
      | (l1, true) => { c with loop0 := l0, loop1 := l1, pc := l1.start }
      | (l1, false) => { c with loop0 := l0, loop1 := l1, pc := last + 1 }
  else
    match c.loop1.atEnd last with
    | (l1, true) => { c with loop1 := l1, pc := l1.start }
    | (l1, false) =>
      match c.loop0.atEnd last with
      | (l0, true) => { c with loop0 := l0, loop1 := l1, pc := l0.start }
      | (l0, false) => { c with loop0 := l0, loop1 := l1, pc := last + 1 }

/-- A target lies in a loop level's body. -/
def LoopLevel.holds (l : LoopLevel) (t : Nat) : Bool := decide (l.start ≤ t) && decide (t ≤ l.stop)
/-- The context after a taken jump: a level whose body the target leaves ends, with level 1 if it lies within (R175). -/
def jumpTo (c : YCtx) (t : Nat) : YCtx :=
  let leave0 := c.loop0.count ≠ 0 ∧ !c.loop0.holds t
  let inner := decide (c.loop0.start ≤ c.loop1.start) && decide (c.loop1.stop ≤ c.loop0.stop)
  let leave1 := c.loop1.count ≠ 0 ∧ (!c.loop1.holds t ∨ (leave0 ∧ inner))
  { c with pc := t, loop0 := if leave0 then {} else c.loop0, loop1 := if leave1 then {} else c.loop1 }
/-- The PC is the last instruction of an active body: a branch there is illegal (R175). -/
def YCtx.atBodyEnd (c : YCtx) : Bool :=
  (c.loop0.count != 0 && c.loop0.stop == c.pc) || (c.loop1.count != 0 && c.loop1.stop == c.pc)

/-- The context after an instruction issued in cycle `t`. -/
def retire (c : YCtx) (sp : YSpec) (t gap : Nat) : YCtx :=
  let c := noteReady c (t + sp.lat) sp.writes
  { c with nextIssue := t + gap, divFree := if sp.divider then t + 36 else c.divFree }

/-- The core spends the instruction a halted core was granted (R408). -/
def State.spendStep (s : State) (n : Nat) : State :=
  if (s.vcore n).dbgStep then s.setVcore n { s.vcore n with dbgStep := false } else s

/-- A batch instruction has issued: the task's slot counts the cycle (R232, ISSUED). -/
def State.countIssue (s : State) (k : Issue) : State :=
  match k.ctx with
  | .line => s
  | .batch =>
    let slot := (s.vcore k.core).batchTask
    if slot = 0 then s else s.setSlotField slot 0xA0 8 (s.slotField slot 0xA0 8 + 1)

/-- Set the context from its value before the instruction, keeping what the effect changed elsewhere. -/
def State.retireAt (s : State) (k : Issue) (c : YCtx) : State := (s.setYctx k.core k.ctx c).spendStep k.core
/-- The same for an instruction that has issued. -/
def State.issueAt (s : State) (k : Issue) (c : YCtx) : State := (s.countIssue k).retireAt k c

/-- An effect takes hold: `c` is the context before the instruction, `t` its issue cycle. -/
def YEffect.finish (e : YEffect) (k : Issue) (sp : YSpec) (c : YCtx) (t : Nat) : State :=
  match e with
  | .done s' => s'.issueAt k (seqNext (retire (s'.yctx k.core k.ctx) sp t sp.gap) c.pc)
  | .late s' lat gap => s'.issueAt k (seqNext (retire (s'.yctx k.core k.ctx) { sp with lat := lat } t gap) c.pc)
  | .skip s' last => s'.issueAt k (seqNext (retire (s'.yctx k.core k.ctx) sp t 3) last)
  | .jump s' target => s'.issueAt k (jumpTo (retire (s'.yctx k.core k.ctx) sp t 3) target)
  | .fault s' code info => s'.takeFault k.core k.ctx code info
  | .stall s' => s'.retireAt k { s'.yctx k.core k.ctx with wait := some .resource }
  | .wait s' wt => s'.issueAt k { seqNext (retire (s'.yctx k.core k.ctx) sp t 1) c.pc with wait := some wt, back := some (c.pc, c.loop0, c.loop1) }
  | .halt s' => s'.issueAt k { retire (s'.yctx k.core k.ctx) sp t 2 with loop0 := {}, loop1 := {} }

/-- ONE INSTRUCTION ISSUES. A context that does not issue does nothing. Otherwise: the fetch check (R156); a word that R164 forbids
raises the illegal-instruction fault, disabled or not (R10, log 11), as does a word in memory whose opcode no table defines (log 220); a disabled instruction takes one cycle and has no other effect (R166);
an instruction its context may not issue (R160, R207) is illegal; else the effect, given the issue cycle. -/
def yuben (k : Issue) (w : YWord) (sp : YSpec) (eff : Nat → State → YEffect) (s : State) : State :=
  if !s.issues k then s
  else
    let s := s.strike k.upsets
    let s := if k.fetch = .corrected then s.bumpF (F.VC_n_EVT_ICE k.core) else s
    let s := if k.fetch = .uncorrectable then s.record 0x04 4 k.core else s
    if k.fetch = .uncorrectable ∨ !s.pcInRange k then s.takeFault k.core k.ctx 7 0
    else
      let c := s.yctx k.core k.ctx
      if !s.opDefined k || !sp.wordOk w then s.takeFault k.core k.ctx 1 0
      else if sp.whole && !s.enabled k w then s.issueAt k (seqNext { c with nextIssue := skipCycle c w + 1 } c.pc)
      else if k.ctx == .line && !sp.lineOk then s.takeFault k.core k.ctx 1 0
      else
        let t := issueCycle c sp w (s.divFree k.core)
        (eff t s).finish k sp c t

/-- An instruction of the block ends in a next state whatever it meets. -/
def yubenOut (k : Issue) (w : YWord) (sp : YSpec) (eff : Nat → State → YEffect) (s : State) : Host.Outcome State Fault Refusal :=
  .next (yuben k w sp eff s)

/-- A vector register with the enabled lanes replaced (R185). -/
def State.vputLanes (s : State) (k : Issue) (w : YWord) (f : Nat → Nat) : State :=
  let old := s.vget k w.d
  s.vset k w.d (Vec.ofLanes (fun l => if s.laneOn k w l then f l else old.lane l))

/-- Apply an element operation to each element of a lane of type width 16 or 32 (R184). -/
def onElems (t : ElemType) (f : Nat → Nat → Nat) (a b : Nat) : Nat :=
  if t.bits = 16 then
    f (a % 65536) (b % 65536) % 65536 + (f (a / 65536 % 65536) (b / 65536 % 65536) % 65536) * 65536
  else f (a % 2 ^ 32) (b % 2 ^ 32) % 2 ^ 32

/-- The scalar operand of R187 as a lane: bits 31:0, or bits 15:0 in both halves for 16-bit types. -/
def scalarLane (t : ElemType) (x : Word64) : Nat :=
  if t.bits = 16 then x.toNat % 65536 * 65537 else x.toNat % 2 ^ 32

end Sys2Proof.Machine
end

