-- ==== Sys2Proof/Machine/TaskOps.lean ====
section
/-! DEFINITION. Operations on batch tasks that several steps share: work still in progress, the end of a task (R235,
R236), the record counters of a quantisation record (R83, R200) and the line kernel's commit list (R159). -/

namespace Sys2Proof.Machine

/-- A unit's state. -/
def State.gridUnit (s : State) (u : Nat) : GridUnit := SMap.get (fun _ => {}) s.grid.units u
def State.setGridUnit (s : State) (u : Nat) (g : GridUnit) : State :=
  { s with grid := { s.grid with units := SMap.set (fun _ => {}) s.grid.units u g } }
def State.setMover (s : State) (m : Nat) (v : Mover) : State := { s with movers := SMap.set (fun _ => {}) s.movers m v }

/-- The task has a pass at a grid unit. -/
def State.passesOf (s : State) (slot : Nat) : Bool :=
  anyBelow (fun u => (s.gridUnit u).passes.any (fun p => p.task == slot && p.issuer != .moveList) ||
    (s.gridUnit u).waiting.any (fun p => p.task == slot)) 5
/-- The task has a descriptor queued or in progress at a mover. -/
def State.descriptorsOf (s : State) (slot : Nat) : Bool :=
  anyBelow (fun m => (s.mover m).queue.any (fun d => d.task == slot && d.issuer != .moveList) ||
    (s.mover m).busy.any (fun d => d.task == slot && d.issuer != .moveList)) 16
def State.chainsOf (s : State) (slot : Nat) : Bool := s.tcc.chains.any (fun c => c.task == slot)
/-- Passes, descriptors or chains of the task are not complete (R236). -/
def State.workPending (s : State) (slot : Nat) : Bool := s.passesOf slot || s.descriptorsOf slot || s.chainsOf slot

/-- The core a task holds. -/
def State.taskCore (s : State) (slot : Nat) : Nat := s.slotField slot 0x08 1 % 16
/-- A task's batch context gives up its core. -/
def State.freeCore (s : State) (slot : Nat) : State :=
  let n := s.taskCore slot
  let v := s.vcore n
  if v.batchTask = slot then s.setVcore n { v with batchTask := 0, batchRun := false, batchFault := false } else s

/-- RUNNING ends as DONE once HALT has issued and every pass, descriptor and chain is complete (R236). -/
def State.tryFinish (s : State) (slot : Nat) : State :=
  if s.tcc.halted.contains slot && !s.workPending slot && s.taskState slot == 2 then
    let s := { s with tcc := { s.tcc with halted := s.tcc.halted.filter (fun x => x != slot) } }
    ((s.setTaskState slot 8).freeCore slot).taskRecord slot 0
  else s

/-- Apply additions to the record at device address `a` of a slice, in one read-modify-write of the two words that hold its counters, each
saturating at 32 bits (R83, R200); lost where a word is uncorrectable. -/
def State.addCounts (s : State) (a elems sats specials : Nat) : State :=
  let n := (a - spadBase) / sliceSize
  let off := (a - spadBase) % sliceSize + 0x08
  match s.readSlice n off 16 with
  | (s, bs, bad) =>
    let up := fun i add => leBytes 4 (min (leNat ((bs.drop i).take 4) + add) 0xFFFFFFFF)
    if bad then s else s.writeSlice n off (up 0 sats ++ up 4 elems ++ up 8 specials ++ bs.drop 12)
/-- A record that a line kernel counts into is known to the Rulebook from then on (log 93). -/
def State.noteRecord (s : State) (a : Nat) : State :=
  let r := ((a - spadBase) / sliceSize, (a - spadBase) % sliceSize)
  if s.adapt.records.contains r then s else { s with adapt := { s.adapt with records := s.adapt.records ++ [r] } }
/-- The accesses of a commit list's counts after a HALT in cycle h: a read and a write for each, in the order of their records (R200). -/
def commitAccs (h : Nat) : List CommitEntry → List (Nat × Nat × Nat)
  | [] => []
  | .count a _ _ _ :: r =>
    let at_ := ((a - spadBase) / sliceSize, bankOf ((a - spadBase) % sliceSize))
    (h + 1, at_) :: (h + 2, at_) :: commitAccs (h + 2) r
  | _ :: r => commitAccs h r

/-- Apply a line kernel's commit list in program order (R159, R200, R206): a push to a full queue drops its handle and is recorded. -/
def applyCommit : List CommitEntry → State → State
  | [], s => s
  | .setReady h :: r, s => applyCommit r (s.setReady h)
  | .push h q :: r, s => applyCommit r ((s.pushHandle q h).getD (s.record 0x07 0 q))
  | .count a e x p :: r, s => applyCommit r ((s.addCounts a e x p).noteRecord a)

/-- Put an action on the commit list; additions to one record share one entry; an action beyond 32 entries is illegal (R159, R200). -/
def State.commit (s : State) (core : Nat) (e : CommitEntry) : Option State :=
  let v := s.vcore core
  let merged : Option (List CommitEntry) :=
    match e with
    | .count a x y z =>
      if v.commit.any (fun c => match c with | .count a' _ _ _ => a' == a | _ => false) then
        some (v.commit.map (fun c => match c with
          | .count a' x' y' z' => if a' = a then .count a' (x' + x) (y' + y) (z' + z) else .count a' x' y' z'
          | c => c))
      else none
    | _ => none
  match merged with
  | some l => some (s.setVcore core { v with commit := l })
  | none => if v.commit.length < 32 then some (s.setVcore core { v with commit := v.commit ++ [e] }) else none

end Sys2Proof.Machine
end

