-- ==== Sys2Proof/Machine/Accum.lean ====
section
/-! DEFINITION. Accumulator memory: the word layout of R105, its SECDED code and poison pattern (R107), reads with
correction, writes with error injection (R111), and the scrub (R108). -/

namespace Sys2Proof.Machine

/-- A stored word in its used parts: three sticky flags, claim tag, check byte, integer (R105). -/
structure AccParts where
  nan : Bool
  pinf : Bool
  ninf : Bool
  tag : Nat
  ecc : Nat
  n : Nat
deriving DecidableEq, Repr

def AccParts.ofWord (w : AccWord) : AccParts :=
  let v := w.toNat
  ⟨v.testBit 127, v.testBit 126, v.testBit 125, bitsOf v 124 120, bitsOf v 119 112, v % 2 ^ 112⟩
/-- Bits 127:120, the status byte. -/
def AccParts.status (a : AccParts) : Nat := a.nan.toNat * 128 + a.pinf.toNat * 64 + a.ninf.toNat * 32 + a.tag % 32
def AccParts.toWord (a : AccParts) : AccWord :=
  BitVec.ofNat 128 (a.status * 2 ^ 120 + a.ecc % 256 * 2 ^ 112 + a.n % 2 ^ 112)
/-- The 120 stored bits: the integer, then the status byte as bits 112 to 119 (R107). -/
def storedBits (w : AccWord) : Nat := w.toNat % 2 ^ 112 + w.toNat / 2 ^ 120 * 2 ^ 112
def eccByte (w : AccWord) : Nat := bitsOf w.toNat 119 112
/-- A word from its stored bits and check byte. -/
def accOfStored (b ecc : Nat) : AccWord :=
  BitVec.ofNat 128 (b % 2 ^ 112 + ecc % 256 * 2 ^ 112 + b / 2 ^ 112 % 256 * 2 ^ 120)

/-- Positions 1 to 127 that are not powers of two, ascending: stored bit k has the k-th (R107). -/
def eccPositions : List Nat := (List.range 128).filter (fun p => p != 0 && 2 ^ p.log2 != p)
/-- Check bits 0 to 6: the XOR of the positions of the set stored bits. -/
def eccLow (b : Nat) : List Nat → Nat → Nat
  | [], _ => 0
  | p :: ps, k => (if b.testBit k then p else 0) ^^^ eccLow b ps (k + 1)
/-- The check byte of 120 stored bits. -/
def eccOf (b : Nat) : Nat :=
  let lo := eccLow b eccPositions 0
  lo + (countBits b 120 + countBits lo 7) % 2 * 128
/-- The poison pattern: the correct check byte with bits 0 and 1 inverted. -/
def poisonOf (b : Nat) : Nat := eccOf b ^^^ 3

/-- What a read of a word finds. -/
inductive AccRead where
  | clean (w : AccWord)
  | corrected (w : AccWord)
  | bad (poison : Bool)
deriving DecidableEq, Repr

/-- The check of a stored word (R107): an odd overall parity is a single error, corrected; an even parity with a syndrome
is uncorrectable, and poisoned when the deviation is that of the poison pattern. -/
def accCheck (w : AccWord) : AccRead :=
  let b := storedBits w
  let e := eccByte w
  let syn := (eccLow b eccPositions 0) ^^^ (e % 128)
  let odd := (countBits b 120 + countBits e 8) % 2 = 1
  if odd then
    let b' := match eccPositions.idxOf? syn with
      | some k => b ^^^ (2 ^ k)
      | none => b
    .corrected (accOfStored b' (eccOf b'))
  else if syn = 0 then .clean w
  else .bad (syn == 3)

def zeroAcc (_ : Nat) : AccWord := 0#128
/-- The stored word of a physical row and column (index row * 512 + column). -/
def State.accWord (s : State) (i : Nat) : AccWord := SMap.get zeroAcc s.grid.acc i
def State.putAcc (s : State) (i : Nat) (w : AccWord) : State :=
  { s with grid := { s.grid with acc := SMap.set zeroAcc s.grid.acc i w } }

/-- Bit errors strike stored accumulator words: (index, bit). -/
def State.strikeAcc (s : State) : List (Nat × Nat) → State
  | [] => s
  | (i, b) :: r => State.strikeAcc (s.putAcc i (s.accWord i ^^^ BitVec.ofNat 128 (2 ^ (b % 128)))) r

/-- A read of an accumulator word: the corrected word, or none if it is uncorrectable. Corrections are counted, and the
corrected value queued for a scrub slot; uncorrectable reads are counted, latched if nothing is latched, and recorded. -/
def State.readAcc (s : State) (i : Nat) : State × Option AccWord :=
  match accCheck (s.accWord i) with
  | .clean w => (s, some w)
  | .corrected w =>
    let s := s.bumpF F.ACC_ECC_CE_CNT
    ({ s with grid := { s.grid with accWriteBack := if s.grid.accWriteBack.contains i then s.grid.accWriteBack else s.grid.accWriteBack ++ [i] } },
     some w)
  | .bad p =>
    let s := s.bumpF F.ACC_ECC_UE_CNT
    let s := if s.flag F.ACC_ECC_ADDR_VALID then s
      else (((s.setF F.ACC_ECC_ADDR_VALID 1).setF F.ACC_ECC_ADDR_POISON p.toNat).setF F.ACC_ECC_ADDR_ROW (i / 512)).setF
        F.ACC_ECC_ADDR_COL (i % 512)
    (s.record 0x04 2 (i % 512), none)

/-- The word is the one ACC_INJECT names, and it is armed (R111). -/
def State.injectsAt (s : State) (i : Nat) : Bool :=
  s.flag F.ACC_INJECT_ARM && s.getF F.ACC_INJECT_ROW == i / 512 && s.getF F.ACC_INJECT_COL == i % 512
/-- The stored bits an injection flips are not named: free values, two different ones for KIND 0b10. -/
def injectMask (idx kind : Nat) : Nat :=
  let a := Config.freeValue idx 0 % 120
  let b := (a + 1 + Config.freeValue idx 1 % 119) % 120
  if kind = 1 then 2 ^ a else if kind = 2 then 2 ^ a ^^^ 2 ^ b else 0

/-- A word left in the write-back queue is dropped once it is written. -/
def State.dropAccBack (s : State) (i : Nat) : State :=
  { s with grid := { s.grid with accWriteBack := s.grid.accWriteBack.filter (fun x => x != i) } }

/-- Every write of data to an accumulator word: the check byte is computed, then an armed injection strikes the stored
bits and ARM is cleared (R111). -/
def State.writeAcc (s : State) (i : Nat) (a : AccParts) : State :=
  let b := storedBits a.toWord
  let s := s.dropAccBack i
  if s.injectsAt i then
    let m := injectMask s.freeIdx (s.getF F.ACC_INJECT_KIND)
    ((s.drawFree).setF F.ACC_INJECT_ARM 0).putAcc i (accOfStored (b ^^^ m) (eccOf b))
  else s.putAcc i (accOfStored b (eccOf b))

/-- A write of the poison pattern over given stored bits: no injection, ARM is cleared (R107, R111). -/
def State.poisonAcc (s : State) (i b : Nat) : State :=
  let s := s.dropAccBack i
  let s := if s.injectsAt i then s.setF F.ACC_INJECT_ARM 0 else s
  s.putAcc i (accOfStored b (poisonOf b))

/-- One scrub access of a word: read, correct, rewrite a correctable word (R108). -/
def State.scrubAcc (s : State) (i : Nat) : State :=
  match s.readAcc i with
  | (s, some w) => s.writeAcc i (AccParts.ofWord w)
  | (s, none) => s
/-- Queued corrected words are written back in scrub slots. -/
def landAccBacks : List Nat → State → State
  | [], s => s
  | i :: r, s =>
    landAccBacks r (match accCheck (s.accWord i) with
      | .corrected w => s.writeAcc i (AccParts.ofWord w)
      | _ => s.dropAccBack i)

/-- The place of a column bank's scrub: words visited so far; the row is their number modulo ACC_ROWS. -/
def State.scrubAt (s : State) (b : Nat) : Nat := SMap.get (fun _ => 0) s.grid.scrubPos b
/-- Sweeps that all banks have completed. -/
def State.scrubSweeps (s : State) : Nat :=
  (List.range 512).foldl (fun m b => min m (s.scrubAt b / s.getF F.ACC_ROWS_ROWS)) (s.scrubAt 0 / s.getF F.ACC_ROWS_ROWS)
/-- A pass in its timeline reads or writes a column bank. -/
def State.bankInPass (s : State) (b : Nat) : Bool :=
  anyBelow (fun u => match (s.gridUnit u).passes with
    | p :: _ => decide ((if u = 1 ∨ u = 3 then 256 else 0) ≤ b) && decide (b < (if u = 1 ∨ u = 3 then 256 else 0) + p.columns)
    | [] => false) 5
/-- One bank reads, corrects and rewrites its next word, and wraps at ACC_ROWS; the sweep of all banks that it may complete is counted. -/
def State.scrubBank (s : State) (b : Nat) : State :=
  let rows := s.getF F.ACC_ROWS_ROWS
  let n := s.scrubAt b
  let t := s.scrubAcc (n % rows * 512 + b)
  let t := { t with grid := { t.grid with scrubPos := SMap.set (fun _ => 0) t.grid.scrubPos b (n + 1) } }
  if (n + 1) % rows = 0 ∧ s.scrubSweeps < t.scrubSweeps then t.bumpF F.ACC_SCRUB_CNT_SWEEPS else t
def scrubBanks : List Nat → State → State
  | [], s => s
  | b :: r, s => scrubBanks r (if decide (b < 512) && !s.bankInPass b then s.scrubBank b else s)
/-- ACC_SCRUB_READ: what waits is written back, and each of the given column banks, whose PERIOD idle cycles have passed, scrubs its next row
(R108); a bank that the pass at the head of its unit uses is not idle. -/
def execAccScrubRead (found : ScrubFind) (s : State) : Host.Outcome State Fault Refusal :=
  let s := s.strikeAcc found.flips
  let s := landAccBacks s.grid.accWriteBack s
  .next (if s.flag F.ACC_SCRUB_EN then scrubBanks found.banks s else s)

end Sys2Proof.Machine
end

