-- ==== Sys2Proof/Machine/Grid.lean ====
section
/-! DEFINITION. The matrix grid: descriptors and their refusal (R89 to R98, R110, R473), the placing of a pass with its
weight tile (R92, R93), what a pass does to accumulator rows and slices (R66, R95, R96, R99 to R101, R107, R122), the
drain (R68 to R70), and the grid's commands. -/

namespace Sys2Proof.Machine

/-! ### Descriptor fields (R97) -/

/-- Word `i` of a descriptor. -/
def dword (ws : List Nat) (i : Nat) : Nat := ws.getD i 0
def dbits (ws : List Nat) (i hi lo : Nat) : Nat := bitsOf (dword ws i) hi lo
def dflag (ws : List Nat) (i b : Nat) : Bool := (dword ws i).testBit b
def gMode (ws : List Nat) : Nat := dbits ws 0 31 30
def gLx (ws : List Nat) : Bool := dflag ws 0 29 && decide (gMode ws < 2)
def gRaw (ws : List Nat) : Bool := dflag ws 0 28
def gAType (ws : List Nat) : Nat := dbits ws 0 27 24
def gWType (ws : List Nat) : Nat := dbits ws 0 23 20
def gDType (ws : List Nat) : Nat := dbits ws 0 19 16
/-- A pass that forms products. -/
def gProduct (ws : List Nat) : Bool := decide (gMode ws < 2) && !dflag ws 0 29
/-- A pass that drains rows. -/
def gDrains (ws : List Nat) : Bool := gMode ws == 2 || (decide (gMode ws < 2) && dflag ws 0 15)
/-- A pass that drains rounded elements. -/
def gRounds (ws : List Nat) : Bool := gDrains ws && !gRaw ws
def gKeep (ws : List Nat) : Bool := dflag ws 0 14
def gLanes (ws : List Nat) : Nat := 2 ^ dbits ws 0 13 12
def gPad (ws : List Nat) : Nat := dbits ws 0 11 10
def gActOp (ws : List Nat) : Nat := dbits ws 0 9 8
def gScaleEn (ws : List Nat) : Bool := dflag ws 0 7
def gCscaleEn (ws : List Nat) : Bool := dflag ws 0 6
def gBiasEn (ws : List Nat) : Bool := dflag ws 0 5
def gClaim (ws : List Nat) : Nat := dbits ws 0 4 0
def gAccRow (ws : List Nat) : Nat := dbits ws 3 25 16
def gM (ws : List Nat) : Nat := dbits ws 3 10 0
def gN (ws : List Nat) : Nat := dbits ws 4 25 16
def gK (ws : List Nat) : Nat := dbits ws 4 10 0
def gZp (ws : List Nat) : Int := signedOf 8 (dbits ws 13 23 16)
def gValidLo (ws : List Nat) : Nat := dbits ws 12 10 0
def gValidHi (ws : List Nat) : Nat := dbits ws 12 26 16
/-- A slice address: slice and offset. -/
def slAddr (w : Nat) : Nat × Nat := (bitsOf w 31 28, bitsOf w 21 0)

/-- Operand families (R62). -/
inductive Family where
  | int | fp8 | fp16
deriving DecidableEq, Repr
def Family.p : Family → Nat
  | .int => 0 | .fp8 => 32 | .fp16 => 48
/-- The family of a pair of type codes, if R91 lists the pair. -/
def familyOf (a w : Nat) : Option Family :=
  let isInt := fun c => c == 0 || c == 6
  let isF8 := fun c => c == 7 || c == 8
  if isInt a && isInt w then some .int
  else if (isF8 a && (isF8 w || isInt w)) || (isInt a && isF8 w) then some .fp8
  else if a = 9 ∧ w = 9 then some .fp16 else none
def gFamily (ws : List Nat) : Option Family := familyOf (gAType ws) (gWType ws)
def typeOf (c : Nat) : ElemType := (ElemType.ofCode c).getD .int8

/-- Tile limits of a unit (R91): the double rate holds for INT4 activations with integer weights. -/
def tileN (u : Nat) : Nat := if u = 4 then 512 else 256
def tileK (u : Nat) (ws : List Nat) : Nat :=
  if gAType ws = 6 ∧ gFamily ws = some .int then 2 * tileN u else tileN u
/-- Row period r (R91, R101). -/
def rowPeriod (ws : List Nat) : Nat :=
  if gLx ws || (gMode ws == 2 && gRaw ws) then ceilDiv (gN ws) 32
  else if gMode ws = 2 then 1
  else if gAType ws = 9 then 4 else 1
/-- Rows of a unit (R89, R106). -/
def State.unitRows (s : State) (u : Nat) : Nat :=
  if u = 4 then s.getF F.ACC_ROWS_ROWS else s.getF F.ACC_ROWS_ROWS / 2
/-- Index of accumulator word (row, column) of a unit's region (R89). -/
def State.accIndex (s : State) (u row col : Nat) : Nat :=
  let r := if u = 2 ∨ u = 3 then row + s.getF F.ACC_ROWS_ROWS / 2 else row
  let c := if u = 1 ∨ u = 3 then col + 256 else col
  r * 512 + c
/-- The unit exists in the mode in force and in the capability word (R90). -/
def State.unitExists (s : State) (u : Nat) : Bool :=
  if u = 4 then !s.flag F.GRID_CTRL_QUARTER && s.flag F.HUB_CAP0_WHOLE
  else decide (u < 4) && s.flag F.GRID_CTRL_QUARTER && (s.getF F.HUB_CAP0_Q_MASK).testBit u

/-- Bytes of `n` packed elements. -/
def packedBytes (c n : Nat) : Nat := ceilDiv (n * (typeOf c).bits) 8
/-- Tile row pitch P (R92). -/
def tilePitch (c n : Nat) : Nat := ceilDiv (n * (typeOf c).bits) 512 * 64

/-- An operand interval of a pass: slice, offset, bytes, written. -/
structure Span where
  slice : Nat
  off : Nat
  len : Nat
  write : Bool
deriving DecidableEq, Repr

/-- The column sums are read by an integer pass with a zero point (R97). -/
def gUsesColsum (ws : List Nat) : Bool := gFamily ws == some .int && (gScaleEn ws || gZp ws != 0)

/-- Slice intervals of the weight tile: lane `i` of `w` holds the tile's wide rows i, i + w, … (R92). -/
def tileSpans (ws : List Nat) : List Span :=
  let (sl, off) := slAddr (dword ws 5)
  let bytes := gK ws * tilePitch (gWType ws) (gN ws)
  let rows := ceilDiv bytes 512
  (List.range (gLanes ws)).filterMap (fun i =>
    if i < rows then
      let mine := (rows - i + gLanes ws - 1) / gLanes ws
      let short := if (rows - 1) % gLanes ws = i then rows * 512 - bytes else 0
      some ⟨(sl + i) % 16, off, mine * 512 - short, false⟩
    else none)

/-- Type, K and N of a tile. -/
def GridTile.shape (t : GridTile) : Nat × Nat × Nat := (t.wType, t.k, t.n)
/-- The reduction length and columns in force: those of the resident tile when it is kept (R93). -/
def gKN (ws : List Nat) (tile : Option (Nat × Nat × Nat)) : Nat × Nat :=
  match tile with
  | some t => if gProduct ws && gKeep ws then t.2 else (gK ws, gN ws)
  | none => (gK ws, gN ws)
/-- The tile that a pass leaves at its unit: the kept one, the one it loads, or none (R93). -/
def gShape (ws : List Nat) (prev : Option (Nat × Nat × Nat)) : Option (Nat × Nat × Nat) :=
  if gProduct ws then (if gKeep ws then prev else some (gWType ws, gK ws, gN ws)) else none
/-- The timeline of R101: S, E and the last cycle, of a pass issued in cycle c after a pass (S0, E0). -/
def timeline (ws : List Nat) (kn : Nat × Nat) (c : Nat) (prev : Option (Nat × Nat)) : Nat × Nat × Nat :=
  let p := prev.getD (0, 0)
  let loads := gProduct ws && !gKeep ws
  let tload := ceilDiv (kn.1 * tilePitch (gWType ws) kn.2) (512 * gLanes ws)
  let start := if loads then max (max (c + 4) p.1 + tload) p.2 else max (c + 4) p.2
  let r := if gLx ws || (gMode ws == 2 && gRaw ws) then ceilDiv kn.2 32 else rowPeriod ws
  let stop := start + max (gM ws * r) 8
  let row := start + (gM ws - 1) * r
  (start, stop, max (stop - 1) (if gMode ws = 2 then row + 34 else if gDrains ws then row + 36 else row + 22))

/-- Every interval the pass touches besides its descriptor (R92, R94, R96, R97, R99). -/
def passSpans (ws : List Nat) (act drain : Nat × Nat) (tile : Option (Nat × Nat × Nat)) : List Span :=
  let kn := gKN ws tile
  let stride := dbits ws 2 21 0
  let vec := fun i => let (sl, off) := slAddr (dword ws i); (⟨sl, off, kn.2 * 4, false⟩ : Span)
  (if gProduct ws then
    ((List.range (gM ws)).filter (fun m => decide (gValidLo ws ≤ m) && decide (m < gValidHi ws))).map
      (fun m => ⟨act.1, act.2 + m * stride, packedBytes (gAType ws) kn.1, false⟩) else []) ++
  (if gProduct ws && !gKeep ws then tileSpans ws else []) ++
  (if gLx ws then (List.range (gM ws)).map (fun m => ⟨act.1, act.2 + m * stride, gN ws * 16, false⟩) else []) ++
  (if gScaleEn ws && (gProduct ws || gRounds ws) then
    let (sl, off) := slAddr (dword ws 6); [⟨sl, off, 4 * gM ws, false⟩] else []) ++
  (if gRounds ws && gCscaleEn ws then [vec 7] else []) ++
  (if gRounds ws && gBiasEn ws then [vec 8] else []) ++
  (if gRounds ws && gUsesColsum ws then [vec 9] else []) ++
  (if gDrains ws then
    (List.range (gM ws)).map (fun m => ⟨drain.1, drain.2 + m * dbits ws 11 21 0,
      if gRaw ws then kn.2 * 16 else packedBytes (gDType ws) kn.2, true⟩) else [])

/-- A task's regions cover an interval (R118). -/
def State.inRegions (s : State) (slot : Nat) (g : Span) : Bool :=
  s.slotReads slot && anyBelow (fun r =>
    let x := s.spadRegion slot r
    x.slice == g.slice && decide (x.base ≤ g.off) && decide (g.off + g.len ≤ x.bound) && (!g.write || x.wen)) 4

/-- An interval is within a usable slice with its banks on, and within the issuing task's regions. -/
def State.spanOk (s : State) (slot : Nat) (g : Span) : Bool :=
  s.unitUsable g.slice && decide (g.off + g.len ≤ sliceSize) && (g.len == 0 || s.banksOn g.slice g.off g.len) && s.inRegions slot g

/-! ### Refusals (R110) -/

/-- Reserved bits of the 16 words (R97). -/
def gReserved (ws : List Nat) : Bool :=
  [1, 5, 6, 7, 8, 9, 10].any (fun i => dbits ws i 27 22 != 0) || dbits ws 2 31 22 != 0 || dbits ws 11 31 22 != 0 ||
  [3, 4].any (fun i => dbits ws i 31 26 != 0 || dbits ws i 15 11 != 0) ||
  dbits ws 12 31 27 != 0 || dbits ws 12 15 11 != 0 || dbits ws 13 31 24 != 0
/-- Reserved encodings of the fields the mode uses (R98). -/
def gReservedCode (ws : List Nat) : Bool :=
  gMode ws == 3 ||
  ((gProduct ws || gRounds ws) && (decide (12 < gAType ws) || decide (12 < gWType ws))) ||
  (gProduct ws && !gKeep ws && dbits ws 0 13 12 == 3) || (gProduct ws && decide (1 < gPad ws)) || (gRounds ws && gActOp ws == 3)
/-- Alignment and wide-row rules (R92, R94, R96, R97). -/
def gMisaligned (ws : List Nat) (act drain : Nat × Nat) (kn : Nat × Nat) : Bool :=
  let off512 := fun i => (slAddr (dword ws i)).2 % 512 != 0
  let stride := dbits ws 2 21 0
  let bytes := packedBytes (gAType ws) kn.1
  ((gProduct ws || gLx ws) && (act.2 % 64 != 0 || stride % 64 != 0)) ||
  (gProduct ws && (List.range (gM ws)).any (fun m =>
    if bytes ≤ 512 then (act.2 + m * stride) / 512 != (act.2 + m * stride + bytes - 1) / 512
    else (act.2 + m * stride) % 512 != 0)) ||
  (gProduct ws && !gKeep ws && off512 5) ||
  (gScaleEn ws && (gProduct ws || gRounds ws) && (off512 6 || (gMode ws != 2 && (slAddr (dword ws 6)).1 == act.1))) ||
  (gRounds ws && ((gCscaleEn ws && off512 7) || (gBiasEn ws && off512 8) || (gUsesColsum ws && off512 9))) ||
  (gDrains ws && (drain.2 % 512 != 0 || dbits ws 11 21 0 % 512 != 0))
/-- A number that orders non-NaN FP32 codes by value; both zeros give 0. -/
def fp32Order (v : Nat) : Int := if v.testBit 31 then -((v % 2 ^ 31 : Nat) : Int) else ((v % 2 ^ 31 : Nat) : Int)
/-- A clamp bound is a NaN, or the bounds are out of order (R98). -/
def clampBad (ws : List Nat) : Bool :=
  isNaN fmtFP32 (dword ws 14) || isNaN fmtFP32 (dword ws 15) || decide (fp32Order (dword ws 15) < fp32Order (dword ws 14))

/-- Task slot that stands for the issuer of a pass: 0 for the move list (R93). -/
def ownerOf (is : Issuer) (task : Nat) : Nat := match is with | .moveList => 0 | _ => task

/-- Issuer and tile of the pass that a new one of an issuer follows at a unit (R93): a batch pass follows the batch passes that wait. -/
def GridUnit.previous (g : GridUnit) (is : Issuer) : Option Nat × Option (Nat × Nat × Nat) :=
  match (if is = .moveList then none else g.waiting.getLast?) with
  | some p => (some (ownerOf p.issuer p.task), p.shape)
  | none => (g.prevOwner, g.tile.map (fun t => t.shape))
/-- KEEP_W is not allowed: another issuer's pass, or no tile or one of another type, stands before (R93). -/
def keepRefused (ws : List Nat) (owner : Nat) (prev : Option Nat × Option (Nat × Nat × Nat)) : Bool :=
  gProduct ws && gKeep ws && (prev.1 != some owner || (match prev.2 with | some t => t.1 != gWType ws | none => true))
/-- The accumulator rows of a batch descriptor lie outside its task's ACC range (R239). -/
def State.rowsOutside (s : State) (u : Nat) (ws : List Nat) (is : Issuer) (task : Nat) : Bool :=
  let acc0 := s.slotField task 0x0C 4
  match is with
  | .moveList => false
  | _ => !(s.slotField task 0x08 4).testBit (4 + u) || decide (gAccRow ws < bitsOf acc0 10 0) ||
      decide (bitsOf acc0 10 0 + bitsOf acc0 26 16 < gAccRow ws + gM ws)
/-- The causes of R110 that a descriptor meets at a unit, in the order of their codes. -/
def State.gridCauses (s : State) (u : Nat) (ws : List Nat) (act drain : Nat × Nat) (is : Issuer) (task : Nat) : List (Nat × Bool) :=
  let prev := (s.gridUnit u).previous is
  let kn := gKN ws prev.2
  let zr := (typeOf (gAType ws)).zpRange
  let usesZp := !gScaleEn ws && (gProduct ws || gRounds ws)
  [(1, gReserved ws || gReservedCode ws),
   (2, gProduct ws && (gFamily ws).isNone),
   (3, !s.unitExists u),
   (4, gM ws == 0 || decide (s.unitRows u < gM ws) ||
      (!(gProduct ws && gKeep ws) && (gN ws == 0 || decide (tileN u < gN ws))) ||
      (gProduct ws && ((!gKeep ws && gK ws == 0) || decide (tileK u ws < kn.1))) ||
      (gProduct ws && (decide (1024 < gValidLo ws) || decide (1024 < gValidHi ws)))),
   (5, decide (s.unitRows u < gAccRow ws + gM ws) || s.rowsOutside u ws is task),
   (6, gMisaligned ws act drain kn),
   (7, !((passSpans ws act drain prev.2).all (s.spanOk task))),
   (8, gRounds ws && (gDType ws == 5 || gDType ws == 6 || decide (12 < gDType ws) || (gActOp ws == 2 && clampBad ws))),
   (9, keepRefused ws (ownerOf is task) prev),
   (10, usesZp && gZp ws != 0 && (gFamily ws != some .int || decide (gZp ws < zr.1) || decide (zr.2 < gZp ws)))]

/-- The lowest code a descriptor meets, 0 when it is accepted. -/
def firstCause : List (Nat × Bool) → Nat
  | [] => 0
  | (c, b) :: r => if b then c else firstCause r
def State.gridRefusal (s : State) (u : Nat) (ws : List Nat) (act drain : Nat × Nat) (is : Issuer) (task : Nat) : Nat :=
  firstCause (s.gridCauses u ws act drain is task)

/-- GRID_FAULT's issuer code. -/
def srcCode : Issuer → Nat
  | .moveList => 0 | .core _ => 1 | _ => 2
/-- A refusal is latched if none is, and recorded. -/
def State.refusePass (s : State) (u code : Nat) (is : Issuer) (addr : Nat) : State :=
  let s := if s.flag F.GRID_FAULT_VALID then s
    else (((((s.setF F.GRID_FAULT_VALID 1).setF F.GRID_FAULT_UNIT (0x10 + u)).setF F.GRID_FAULT_SRC (srcCode is)).setF
      F.GRID_FAULT_CODE code).setF F.GRID_FAULT_DESC_LO_ADDR (addr % 2 ^ 32)).setF F.GRID_FAULT_DESC_HI_ADDR (addr / 2 ^ 32)
  s.record 0x07 code (0x10 + u)

/-- The 16 words of a descriptor read from a slice. -/
def wordsOf : Nat → List Byte → List Nat
  | 0, _ => []
  | n + 1, bs => leNat (bs.take 4) :: wordsOf n (bs.drop 4)
def State.readDescriptor (s : State) (n off : Nat) : State × List Nat × Bool :=
  match s.readSlice n off 64 with
  | (s, bs, bad) => (s, wordsOf 16 bs, bad)

/-! ### Loading a tile (R92, R93) -/

/-- Element `e` of a byte row. -/
def elemAt (c : Nat) (bs : List Byte) (e : Nat) : Nat :=
  let b := (typeOf c).bits
  if b = 4 then ((bs.getD (e / 2) 0#8).toNat >>> (4 * (e % 2))) % 16
  else leNat ((bs.drop (e * (b / 8))).take (b / 8))

/-- Read `n` 64-bit words of the tile from byte `b` on: their bytes, and whether each is uncorrectable. -/
def readTileWords (ws : List Nat) : Nat → Nat → State → State × List Byte × List Bool
  | _, 0, s => (s, [], [])
  | b, n + 1, s =>
    let (sl, off) := slAddr (dword ws 5)
    let i := b / 512
    match s.readSlice ((sl + i % gLanes ws) % 16) (off + i / gLanes ws * 512 + b % 512) 8 with
    | (s, bs, bad) =>
      match readTileWords ws (b + 8) n s with
      | (s, bs', bads) => (s, bs ++ bs', bad :: bads)

/-- Read tile rows from row `k` on. -/
def readTileRows (ws : List Nat) : Nat → Nat → State → State × List Nat × List Bool
  | _, 0, s => (s, [], [])
  | k, n + 1, s =>
    let p := tilePitch (gWType ws) (gN ws)
    match readTileWords ws (k * p) (p / 8) s with
    | (s, bs, bads) =>
      let codes := (List.range (gN ws)).map (elemAt (gWType ws) bs)
      let bad := (List.range (gN ws)).map (fun j => bads.getD (j * (typeOf (gWType ws)).bits / 64) false)
      match readTileRows ws (k + 1) n s with
      | (s, cs, bs') => (s, codes ++ cs, bad ++ bs')

/-- A PASS ENTERS A UNIT: a product pass loads its tile, or keeps the unit's (R93); the unit's previous pass and tile are now this one's. -/
def State.admitPass (s : State) (p : GridPass) : State :=
  let g := s.gridUnit p.unit
  let (s, tile) : State × Option GridTile :=
    if gProduct p.words then
      if gKeep p.words then (s, g.tile)
      else if p.tiled.isSome then (s, p.tile)
      else match readTileRows p.words 0 (gK p.words) s with
        | (s, codes, bad) => (s, some ⟨gWType p.words, gK p.words, gN p.words, codes, bad⟩)
    else (s, none)
  s.setGridUnit p.unit { g with prevOwner := some (ownerOf p.issuer p.task), tile := tile, passes := g.passes ++ [{ p with tile := tile }] }
/-- PLACING A PASS at a unit: a pass of the move list enters at once; a batch pass enters, or waits for a gap and behind those that wait, so
that a unit's batch passes keep their order (R102, R104). -/
def State.placePass (s : State) (p : GridPass) (admitted : Bool) : State :=
  let g := s.gridUnit p.unit
  if admitted && (p.issuer == .moveList || g.waiting.isEmpty) then s.admitPass p
  else s.setGridUnit p.unit { g with waiting := g.waiting ++ [{ p with shape := gShape p.words (g.previous p.issuer).2 }] }

/-! ### What a pass does (R99) -/

/-- The sign of a value: true for negative. -/
def FVal.isNeg : FVal → Bool
  | .nan => false
  | .inf n => n
  | .fin n q => n || decide (q.num < 0)

/-- Running sum of one accumulator word: exact sum in units of 2^-p, and the flags of R66. -/
structure DotSum where
  n : Int := 0
  nan : Bool := false
  pinf : Bool := false
  ninf : Bool := false
deriving DecidableEq, Repr

/-- One product (R66). -/
def DotSum.add (d : DotSum) (p : Nat) (a w : FVal) : DotSum :=
  match a.times w with
  | .nan => { d with nan := true }
  | .inf _ => if a.isNeg == w.isNeg then { d with pinf := true } else { d with ninf := true }
  | .fin _ q => { d with n := d.n + q.num * (2 ^ p : Nat) / q.den }

/-- The sum over k of a row of activations and column j of a tile. -/
def dotProduct (p : Nat) (wt : ElemType) (t : GridTile) (j : Nat) : Nat → List FVal → DotSum
  | _, [] => {}
  | k, a :: as => (dotProduct p wt t j (k + 1) as).add p a (decodeElem wt (t.codes.getD (k * t.n + j) 0))

/-- A column of the tile holds an element read from an uncorrectable word. -/
def columnBad (t : GridTile) (j : Nat) : Bool :=
  (List.range t.k).any (fun k => t.bad.getD (k * t.n + j) false)

/-- What arrives at word j of a row: the sum and flags, or an uncorrectable operand. -/
structure Incoming where
  sum : DotSum
  bad : Bool
deriving DecidableEq, Repr

/-- A scale entry delivered with a row: its word was uncorrectable; or the entry, and whether R77 and R96 accept it. -/
structure RowScale where
  bad : Bool
  entry : ScaleEntry
  invalid : Bool
deriving DecidableEq, Repr

/-- A scale entry as a pass takes it: whether R77 and R96 accept it. -/
def scaleWord (ws : List Nat) (v : Nat) : RowScale :=
  let e := ScaleEntry.ofWord v
  ⟨false, e, !e.valid (typeOf (gAType ws)) || (e.zp != 0 && gFamily ws != some .int)⟩
/-- Read the scale entry of row m (R96). -/
def State.rowScale (s : State) (ws : List Nat) (m : Nat) : State × RowScale :=
  if gScaleEn ws then
    let (sl, off) := slAddr (dword ws 6)
    match s.readSlice sl (off + 4 * m) 4 with
    | (s, bs, bad) =>
      (s, if bad then ⟨true, ScaleEntry.ofWord (leNat bs), false⟩ else scaleWord ws (leNat bs))
  else (s, ⟨false, ⟨false, false, gZp ws, 0x3C00⟩, false⟩)
/-- An invalid scale entry is counted and recorded once for its row (R96, R471). -/
def State.noteScale (s : State) (u : Nat) (rs : RowScale) : State :=
  if rs.invalid && !rs.bad then (s.bumpF F.GRID_SCALE_BAD_COUNT).record 0x07 0x80 (0x10 + u) else s

/-- The elements of a padded row (R95). -/
def paddedRow (ws : List Nat) (k : Nat) (rs : RowScale) : List FVal :=
  let t := typeOf (gAType ws)
  List.replicate k (decodeElem t (if gPad ws = 0 then (if gFamily ws = some .int then wrapTo t.bits rs.entry.zp else 0) else dbits ws 13 15 0 % 2 ^ t.bits))
/-- The activations of row m, and whether its data was uncorrectable; padded rows are not read (R94, R95). -/
def State.actRow (s : State) (p : GridPass) (k m : Nat) (rs : RowScale) : State × List FVal × Bool :=
  let ws := p.words
  let t := typeOf (gAType ws)
  if gValidLo ws ≤ m ∧ m < gValidHi ws then
    match s.readSlice p.act.1 (p.act.2 + m * dbits ws 2 21 0) (packedBytes (gAType ws) k) with
    | (s, bs, bad) => (s, (List.range k).map (fun e => decodeElem t (elemAt (gAType ws) bs e)), bad)
  else (s, paddedRow ws k rs, false)

/-- What an LX word brings: its integer and the flags of its status byte (R99). -/
def lxIncoming (v : Nat) (bad : Bool) : Incoming :=
  let w := BitVec.ofNat 128 v
  let a := AccParts.ofWord w
  ⟨⟨lxInt w, a.nan, a.pinf, a.ninf⟩, bad⟩
/-- The incoming words of an LX row (R99): integer and status byte of each 16-byte word. -/
def State.lxRow (s : State) (p : GridPass) (n m : Nat) : Nat → State × List Incoming
  | 0 => (s, [])
  | j + 1 =>
    match State.lxRow s p n m j with
    | (s, l) =>
      match s.readSlice p.act.1 (p.act.2 + m * dbits p.words 2 21 0 + 16 * j) 16 with
      | (s, bs, bad) => (s, l ++ [lxIncoming (leNat bs) bad])

/-- A word as the drain takes it: none if it may not be drained. -/
abbrev RowWord := Option AccParts

/-- Apply one incoming word (R99, R100, R107): the state, the word as written, and whether it was a duplicate. Nothing is written for a
duplicate, and a THEN_DRAIN pass then drains the word as it stands: the model's choice (log 210). -/
def State.applyWord (s : State) (ws : List Nat) (i : Nat) (x : Incoming) : State × RowWord × Bool :=
  if gMode ws = 0 then
    if x.bad then ((s.drawFree).poisonAcc i (Config.freeValue s.freeIdx 0), none, false)
    else
      let a : AccParts := ⟨x.sum.nan, x.sum.pinf, x.sum.ninf, gClaim ws, 0, wrapTo 112 x.sum.n⟩
      (s.writeAcc i a, some a, false)
  else
    let old := s.accWord i
    match s.readAcc i with
    | (s, none) => (s.poisonAcc i (storedBits old), none, false)
    | (s, some w) =>
      let a := AccParts.ofWord w
      if gClaim ws ≠ 0 ∧ a.tag = gClaim ws then (s, some a, true)
      else if x.bad then ((s.drawFree).poisonAcc i (Config.freeValue s.freeIdx 0), none, false)
      else
        let b : AccParts := ⟨a.nan || x.sum.nan, a.pinf || x.sum.pinf, a.ninf || x.sum.ninf, gClaim ws, 0,
          wrapTo 112 (lxInt w + x.sum.n)⟩
        (s.writeAcc i b, some b, false)

/-- Apply a row of incoming words from column j on. -/
def applyRow (p : GridPass) (row : Nat) : Nat → List Incoming → State → State × List RowWord × Bool
  | _, [], s => (s, [], false)
  | j, x :: xs, s =>
    match s.applyWord p.words (s.accIndex p.unit row j) x with
    | (s, w, d) =>
      match applyRow p row (j + 1) xs s with
      | (s, ws, d') => (s, w :: ws, d || d')

/-- Read a row of words for a drain pass. -/
def drainRowWords (p : GridPass) (row : Nat) : Nat → State → State × List RowWord
  | 0, s => (s, [])
  | n + 1, s =>
    match drainRowWords p row n s with
    | (s, l) =>
      match s.readAcc (s.accIndex p.unit row n) with
      | (s, w) => (s, l ++ [w.map AccParts.ofWord])

/-- A column vector of `n` 4-byte values: none if it lies in an uncorrectable word. -/
def State.colVector (s : State) (on : Bool) (addr n dflt : Nat) : State × Option (List Nat) :=
  if on then
    let (sl, off) := slAddr addr
    match s.readSlice sl off (4 * n) with
    | (s, bs, bad) => (s, if bad then none else some (wordsOf n bs))
  else (s, some (List.replicate n dflt))

/-- The vectors of a pass, read once before row 0 drains. -/
structure ColVectors where
  scale : List Nat := []
  bias : List Nat := []
  sums : List Nat := []
  bad : Bool := false
deriving DecidableEq, Repr
def State.colVectors (s : State) (ws : List Nat) (n : Nat) : State × ColVectors :=
  if gRounds ws then
    match s.colVector (gCscaleEn ws) (dword ws 7) n 0x3F800000 with
    | (s, a) =>
      match s.colVector (gBiasEn ws) (dword ws 8) n 0 with
      | (s, b) =>
        match s.colVector (gUsesColsum ws) (dword ws 9) n 0 with
        | (s, c) =>
          match a, b, c with
          | some a, some b, some c => (s, ⟨a, b, c, false⟩)
          | _, _, _ => (s, ⟨[], [], [], true⟩)
  else (s, {})

/-- A column whose scale or bias is not finite drains to the value of NAN_SEEN (R69). -/
def ColVectors.badCol (v : ColVectors) (j : Nat) : Bool :=
  match decodeFloat fmtFP32 (v.scale.getD j 0), decodeFloat fmtFP32 (v.bias.getD j 0) with
  | .fin _ _, .fin _ _ => false
  | _, _ => true
def fp32Q (v : Nat) : ExactQ := match decodeFloat fmtFP32 v with | .fin _ q => q | _ => ⟨0, 1⟩

/-- One drained element (R69, R70). A drain whose operand pair R91 does not list has no binary point: a free value. -/
def drainElem (idx : Nat) (ws : List Nat) (v : ColVectors) (rs : RowScale) (j : Nat) (a : AccParts) : Nat :=
  let t := typeOf (gDType ws)
  if a.nan || a.pinf || a.ninf || rs.invalid || rs.entry.special || v.badCol j then
    specialResult (a.nan || rs.invalid || rs.entry.special || v.badCol j) a.pinf a.ninf t
  else match gFamily ws with
    | none => Config.freeValue idx j % 2 ^ t.bits
    | some f =>
      let z := if f = .int then rs.entry.zp else 0
      let cs := if gUsesColsum ws then signedOf 32 (v.sums.getD j 0) else 0
      encodeSat t false (drainExact (signedOf 112 a.n) f.p (fp16Q rs.entry.scale) z cs (fp32Q (v.scale.getD j 0))
        (fp32Q (v.bias.getD j 0)) (gActOp ws) (dword ws 14) (dword ws 15))

/-- All words of a row if none is withheld. -/
def allWords : List RowWord → Option (List AccParts)
  | [] => some []
  | some a :: r => (allWords r).map (a :: ·)
  | none :: _ => none
/-- The little-endian bytes of packed elements. -/
def packElems (bytes : Nat) : List Nat → List Byte
  | [] => []
  | x :: r => leBytes bytes x ++ packElems bytes r
def drainElems (f : Nat → AccParts → Nat) : Nat → List AccParts → List Nat
  | _, [] => []
  | j, a :: r => f j a :: drainElems f (j + 1) r

/-- The write of a drained row: counted where the output slot is stale, and discarded where it has been reserved again (R135). -/
def State.putRow (s : State) (p : GridPass) (off : Nat) (bs : List Byte) : State :=
  match p.out with
  | some h =>
    let s := if s.handleCurrent h then s else s.noteStale h
    if s.reservedAgain (handleRing h) (handleSlot h) (handleGen h) then s else s.writeSlice p.drain.1 off bs
  | none => s.writeSlice p.drain.1 off bs
/-- The stored word of a RAW drain, with its check byte (R99). -/
def rawWord (a : AccParts) : Nat := ({ a with ecc := eccOf (storedBits a.toWord) }).toWord.toNat
/-- Drain a row: written whole, or neither written nor signalled when a word or operand was uncorrectable (R107, R122). -/
def State.drainRow (s : State) (p : GridPass) (v : ColVectors) (rs : RowScale) (m : Nat) (words : List RowWord) : State × Bool :=
  let off := p.drain.2 + m * dbits p.words 11 21 0
  match allWords words with
  | none => (s, false)
  | some l =>
    if gRaw p.words then
      (s.putRow p off (packElems 16 (l.map rawWord)), true)
    else if v.bad || rs.bad then (s, false)
    else
      let t := typeOf (gDType p.words)
      let idx := s.freeIdx
      let s := if (gFamily p.words).isNone then s.drawFree else s
      (s.putRow p off (packElems (t.bits / 8) (drainElems (drainElem idx p.words v rs) 0 l)), true)

/-- What came of the rows of a pass: all drained rows complete, some operand or word uncorrectable, a duplicate met. -/
structure PassEnd where
  complete : Bool := true
  bad : Bool := false
  dup : Bool := false
deriving DecidableEq, Repr

/-- The incoming words of a row of activations: its sums over the columns of the tile. -/
def productRow (ws : List Nat) (f : Family) (t : GridTile) (n : Nat) (acts : List FVal) (bad : Bool) (rs : RowScale) : List Incoming :=
  (List.range n).map (fun j =>
    let d := dotProduct f.p (typeOf (gWType ws)) t j 0 acts
    ⟨{ d with nan := d.nan || rs.entry.special || rs.invalid }, bad || rs.bad || columnBad t j⟩)
/-- The incoming words of row m of an overwrite or accumulate pass. -/
def State.incoming (s : State) (p : GridPass) (k n m : Nat) (rs : RowScale) : State × List Incoming :=
  if gLx p.words then s.lxRow p n m n
  else
    match s.actRow p k m rs, p.tile, gFamily p.words with
    | (s, acts, bad), some t, some f => (s, productRow p.words f t n acts bad rs)
    | (s, _, _), _, _ => (s, [])

/-- Run row m: operands, accumulator words, drain. -/
def State.runRow (s : State) (p : GridPass) (v : ColVectors) (m : Nat) : State × PassEnd :=
  let kn := gKN p.words (p.tile.map (fun t => t.shape))
  match (if gProduct p.words || gRounds p.words then s.rowScale p.words m
         else (s, (⟨false, ⟨false, false, 0, 0x3C00⟩, false⟩ : RowScale))) with
  | (s, rs) =>
    let s := s.noteScale p.unit rs
    let row := gAccRow p.words + m
    if gMode p.words = 2 then
      match drainRowWords p row kn.2 s with
      | (s, l) =>
        match s.drainRow p v rs m l with
        | (s, ok) => (s, ⟨ok, !ok, false⟩)
    else
      match s.incoming p kn.1 kn.2 m rs with
      | (s, xs) =>
        match applyRow p row 0 xs s with
        | (s, l, dup) =>
          let bad := l.any (fun w => w.isNone)
          if gDrains p.words then
            match s.drainRow p v rs m l with
            | (s, ok) => (s, ⟨ok, bad || !ok, dup⟩)
          else (s, ⟨true, bad, dup⟩)

/-- Run rows 0 to n - 1 in order. -/
def runRows (p : GridPass) (v : ColVectors) : Nat → State → State × PassEnd
  | 0, s => (s, {})
  | m + 1, s =>
    match runRows p v m s with
    | (s, e) =>
      match s.runRow p v m with
      | (s, e') => (s, ⟨e.complete && e'.complete, e.bad || e'.bad, e.dup || e'.dup⟩)

/-- Columns drained with a non-finite scale or bias: counted once a pass each, and recorded (R69, R471). -/
def noteCols (u : Nat) (v : ColVectors) : Nat → State → State
  | 0, s => s
  | n + 1, s =>
    let s := noteCols u v n s
    if v.badCol n then (s.bumpF F.GRID_SCALE_BAD_COUNT).record 0x07 0x81 (0x10 + u) else s

/-- What a pass adds to the counters: a duplicate, the pass, the cycles of its rows (R100, R101). -/
def State.passCounts (s : State) (p : GridPass) (e : PassEnd) : State :=
  let s := if e.dup then ((s.bumpF F.GRID_DUP_COUNT).setF F.GRID_DUP_LAST_TAG (gClaim p.words)).record 0x07 0x82 (0x10 + p.unit) else s
  let s := s.bumpF F.GRID_PASSES_COUNT
  let occ := max (gM p.words * rowPeriod p.words) 8 * (if p.unit = 4 then 4 else 1)
  { s with grid := { s.grid with occupancy := s.grid.occupancy + occ } }

/-- The whole effect of a pass on accumulator rows, slices and counters. -/
def State.runPass (s : State) (p : GridPass) : State × PassEnd :=
  let n := (gKN p.words (p.tile.map (fun t => t.shape))).2
  match s.colVectors p.words n with
  | (s, v) =>
    let s := if gRounds p.words && !v.bad then noteCols p.unit v n s else s
    match runRows p v (gM p.words) s with
    | (s, e) =>
      (s.passCounts p e, e)

/-- Passes that the Rulebook makes at a unit for a save or a restore count as any do (R101): their number and the cycles of their rows. -/
def State.countPasses (s : State) (u n cycles : Nat) : State :=
  let s := s.bumpF F.GRID_PASSES_COUNT n
  { s with grid := { s.grid with occupancy := s.grid.occupancy + cycles * (if u = 4 then 4 else 1) } }

/-! ### Mode, injection and the diagnostic window -/

/-- Every grid unit is idle. -/
def State.gridIdle (s : State) : Bool := !anyBelow (fun u => !(s.gridUnit u).passes.isEmpty || !(s.gridUnit u).waiting.isEmpty) 5
/-- A unit forgets the pass before it. -/
def forgetTiles : Nat → State → State
  | 0, s => s
  | u + 1, s => let s := forgetTiles u s; s.setGridUnit u { s.gridUnit u with prevOwner := none, tile := none }
/-- Put a grid mode in force; the residents of the cells are forgotten (R90, R93). -/
def State.setGridMode (s : State) (quarter : Bool) : State :=
  if s.flag F.GRID_CTRL_QUARTER == quarter then s
  else ((forgetTiles 5 s).setF F.GRID_CTRL_QUARTER quarter.toNat).setF F.GRID_STATUS_QUARTER quarter.toNat

end Sys2Proof.Machine
end

