-- ==== Sys2Proof/Machine/MemOps.lean ====
section
/-! DEFINITION. DRAM: the mapped range (R22, R146), the channel of an address (R147), error checks and traffic, and the
shared cache (R144). -/

namespace Sys2Proof.Machine

/-- End of mapped DRAM: the installed capacity, less the inline-ECC reservation (R146). -/
def State.dramEnd (s : State) : Nat :=
  if s.flag F.MC_CFG_IECC then s.mc.installed / 32 * 31 else s.mc.installed

/-- A DRAM region of a task lies wholly within DRAM, the host memory window or one device's fabric window (R118); an empty one lies anywhere. -/
def regionPlaced (base bound : Nat) : Bool :=
  decide (bound ≤ base) || decide (bound ≤ 0x1000000000) || (decide (0x2000000000 ≤ base) && decide (bound ≤ 0x4000000000)) ||
  (decide (0x10000000000 ≤ base) && decide (bound ≤ 0x20000000000) && base / 0x10000000 == (bound - 1) / 0x10000000)

/-- The little-endian bytes of a 64-bit number. -/
def le64 (v : Nat) : List Byte := leBytes 8 v
/-- Channel of a DRAM address (R147). -/
def State.channelOf (s : State) (a : Nat) : Nat :=
  let n := s.mc.mapping.length
  if n = 0 then 0
  else
    let stripe := a / 256
    let g := stripe / n
    let h := crc32c (le64 (g ^^^ s.mc.key))
    s.mc.mapping.getD ((stripe % n + h % n) % n) 0
/-- The channel of an address is out of service: its stripes are refused (R152). -/
def State.channelLost (s : State) (a : Nat) : Bool := s.getF (F.MC_CHc_STAT_STATE (s.channelOf a)) == 3

/-- Count bytes of a channel in the round's traffic (R151). -/
def State.addTraffic (s : State) (a n : Nat) : State :=
  let c := s.channelOf a
  { s with mc := { s.mc with traffic := SMap.set (fun _ => 0) s.mc.traffic c (SMap.get (fun _ => 0) s.mc.traffic c + n) } }
/-- Count the bytes of an interval on their channels, stripe by stripe. -/
def trafficOver (a len : Nat) : Nat → State → State
  | 0, s => s
  | k + 1, s =>
    let s := trafficOver a len k s
    let st := (a / 256 + k) * 256
    let lo := max a st
    let hi := min (a + len) (st + 256)
    if lo < hi then s.addTraffic lo (hi - lo) else s
def State.traffic (s : State) (a len : Nat) : State := trafficOver a len (ceilDiv (a % 256 + len) 256) s

/-- Errors in a run of words. -/
def State.eccSum (s : State) (w : Nat) : Nat → Nat
  | 0 => 0
  | k + 1 => s.errAt w + State.eccSum s (w + 1) k
/-- Errors in one check code of DRAM: that of a 64-byte block (R146). -/
def State.eccErr (s : State) (g : Nat) : Nat := s.eccSum (g * 8) 8
/-- The error check of one check code on a read (R146, R471). -/
def State.dramCode (s : State) (g : Nat) : State :=
  match s.eccErr g with
  | 0 => s
  | 1 => (s.bumpF F.MC_ECC_CE).clearErrs (g * 8) 8
  | _ => (s.bumpF F.MC_ECC_UE).record 0x04 3 (s.channelOf (g * 64))
def State.dramCodes (s : State) (g : Nat) : Nat → State
  | 0 => s
  | n + 1 => State.dramCodes (s.dramCode g) (g + 1) n
/-- How many check codes an interval meets. -/
def codeCount (a len : Nat) : Nat := (a + len - 1) / 64 + 1 - a / 64
/-- Some check code of an interval is uncorrectable. -/
def State.dramBad (s : State) (a len : Nat) : Bool :=
  anyBelow (fun k => decide (2 ≤ s.eccErr (a / 64 + k))) (codeCount a len)
/-- A write clears the errors of the check codes it covers whole; what is left uncorrectable stays so (R122, R146). -/
def State.overwriteDram (s : State) (a len : Nat) : State :=
  s.clearErrs ((a + 63) / 64 * 8) (((a + len) / 64 - (a + 63) / 64) * 8)

/-- Some byte of an interval lies on a channel that retrains: a request to it waits (R152). -/
def State.stripesWait (s : State) (a len : Nat) : Bool :=
  anyBelow (fun k => s.getF (F.MC_CHc_STAT_STATE (s.channelOf ((a / 256 + k) * 256))) == 2) (ceilDiv (a % 256 + len) 256)
/-- Some byte of an interval lies on a channel that is out of service. -/
def State.stripesLost (s : State) (a len : Nat) : Bool :=
  anyBelow (fun k => s.channelLost ((a / 256 + k) * 256)) (ceilDiv (a % 256 + len) 256)

/-- A read of DRAM: the state, the bytes, and whether it met uncorrectable data or a lost stripe. -/
def State.readDram (s : State) (a len : Nat) : State × List Byte × Bool :=
  (s.dramCodes (a / 64) (codeCount a len), s.memBytes a len, s.dramBad a len || s.stripesLost a len)
/-- A read of DRAM whose bytes count in the round's traffic (R151). -/
def State.countedRead (s : State) (a len : Nat) : State × List Byte × Bool :=
  match s.readDram a len with
  | (s, r) => (s.traffic a len, r)
/-- A write of DRAM: dropped on a lost stripe. -/
def State.writeDram (s : State) (a : Nat) (bs : List Byte) : State × Bool :=
  if s.stripesLost a bs.length then (s, false)
  else (((s.overwriteDram a bs.length).putMem a bs).traffic a bs.length, true)

/-! ### Shared cache (R144) -/

def cacheSet (line : Nat) : Nat := line % 8192
def State.cacheOf (s : State) (set : Nat) : List (Nat × Nat) := SMap.get (fun _ => []) s.shc.sets set
def State.setCache (s : State) (set : Nat) (l : List (Nat × Nat)) : State :=
  { s with shc := { s.shc with sets := SMap.set (fun _ => []) s.shc.sets set l } }
/-- The way a miss allocates into: a free permitted way, else that of the least recently used line in permitted ways. -/
def pickWay (mask : Nat) (l : List (Nat × Nat)) : Option Nat :=
  match (List.range 16).find? (fun w => mask.testBit w && !(l.any (fun e => e.2 == w))) with
  | some w => some w
  | none => (l.reverse.find? (fun e => mask.testBit e.2)).map (fun e => e.2)
/-- Read one 128-byte line through the cache: hit, or miss and allocation; the state and whether it hit. -/
def State.cacheLine (s : State) (cls : Nat) (noalloc : Bool) (line : Nat) : State × Bool :=
  let set := cacheSet line
  let l := s.cacheOf set
  let mask := s.getF (F.SHC_WAYS_c_MASK cls)
  if !s.flag F.SHC_CTRL_EN then (s.bumpF F.SHC_MISS_COUNT, false)
  else match l.find? (fun e => e.1 == line) with
    | some e => ((s.bumpF F.SHC_HIT_COUNT).setCache set (e :: l.filter (fun x => x.1 != line)), true)
    | none =>
      let s := s.bumpF F.SHC_MISS_COUNT
      if noalloc || mask == 0 then (s, false)
      else match pickWay mask l with
        | some w => (s.setCache set ((line, w) :: l.filter (fun x => x.2 != w)), false)
        | none => (s, false)
/-- A line is not kept. -/
def State.dropLine (s : State) (line : Nat) : State := s.setCache (cacheSet line) ((s.cacheOf (cacheSet line)).filter (fun e => e.1 != line))
/-- Read the lines of an interval: hits and misses are counted; a miss is channel traffic and a read of DRAM with its checks, and a line
that holds uncorrectable bytes is not kept. The flag says that some missed byte was uncorrectable. -/
def cacheLines (cls : Nat) (noalloc : Bool) (a len : Nat) : Nat → State → State × Bool
  | 0, s => (s, false)
  | k + 1, s =>
    match cacheLines cls noalloc a len k s with
    | (s, bad) =>
      let line := a / 128 + k
      let lo := max a (line * 128)
      let n := min (a + len) ((line + 1) * 128) - lo
      match s.cacheLine cls noalloc line with
      | (s, true) => (s, bad)
      | (s, false) =>
        let b := s.dramBad lo n
        let s := if s.dramBad (line * 128) 128 then s.dropLine line else s
        ((s.dramCodes (lo / 64) (codeCount lo n)).traffic (line * 128) 128, bad || b)
/-- A read of DRAM through the shared cache (R144): the state, the bytes, and whether it met uncorrectable data or a lost stripe. -/
def State.cacheRead (s : State) (cls : Nat) (noalloc : Bool) (a len : Nat) : State × List Byte × Bool :=
  match cacheLines cls noalloc a len (if len = 0 then 0 else ceilDiv (a % 128 + len) 128) s with
  | (s', bad) => (s', s.memBytes a len, bad || s.stripesLost a len)

/-- SHC_CTRL.INV: every line is invalidated; the bit clears when done (R144). -/
def execShcInv (s : State) : Host.Outcome State Fault Refusal :=
  .next ({ s with shc := { sets := [] } }.setF F.SHC_CTRL_INV 0)

end Sys2Proof.Machine
end

