-- ==== Sys2Proof/Machine/FabricOps.lean ====
section
/-! DEFINITION. Sending on the fabric: ports, queues in class order, replay buffers and routing (R330 to R343). -/

namespace Sys2Proof.Machine

def State.fport (s : State) (p : Nat) : FabPort := SMap.get (fun _ => {}) s.raster.fab.ports p
def State.setFport (s : State) (p : Nat) (x : FabPort) : State :=
  { s with raster := { s.raster with fab := { s.raster.fab with ports := SMap.set (fun _ => {}) s.raster.fab.ports p x } } }
def State.portUp (s : State) (p : Nat) : Bool := s.flag (F.FAB_Pp_STATUS_UP p)
def State.portEdge (s : State) (p : Nat) : Bool := s.flag (F.FAB_Pp_STATUS_EDGE p)
/-- A port that carries traffic other than training and idle flits (R338, R343). -/
def State.portOpen (s : State) (p : Nat) : Bool :=
  s.portUp p && !s.portEdge p && !s.flag (F.FAB_Pp_STATUS_MISWIRED p)
/-- A flit is dropped and counted. -/
def State.dropFlit (s : State) : State := s.bumpF F.FAB_EVT_DROP

/-- Insert a flit behind those of its class and of the classes before it (R334). -/
def insertFlit (f : FabFlit) : List FabFlit → List FabFlit
  | [] => [f]
  | g :: r => if f.cls < g.cls then f :: g :: r else g :: insertFlit f r
/-- Flits are sent in order while the replay buffer of 128 has room and the link is not retraining (R330, R335). -/
def pumpFlits : Nat → FabPort → FabPort
  | 0, x => x
  | n + 1, x =>
    if x.retrain then x
    else match x.tx with
      | [] => x
      | f :: r =>
        if x.replay.length < 128 then
          pumpFlits n { x with tx := r, replay := x.replay ++ [(x.nextSeq, f)], nextSeq := (x.nextSeq + 1) % 4096 }
        else x
def FabPort.pump (x : FabPort) : FabPort := pumpFlits x.tx.length x
/-- Queue a flit on a port. -/
def State.queueFlit (s : State) (p : Nat) (f : FabFlit) : State :=
  let x := s.fport p
  s.setFport p ({ x with tx := insertFlit f x.tx }).pump

def State.ownX (s : State) : Nat := s.getF F.FAB_COORD_X
def State.ownY (s : State) : Nat := s.getF F.FAB_COORD_Y
/-- A 6-bit coordinate as an integer. -/
def coord (c : Nat) : Int := signedOf 6 c
/-- The first valid detour entry that matches a destination (R341, R342). -/
def detourFrom (s : State) (x y : Int) : Nat → Nat → Option Nat
  | _, 0 => none
  | i, n + 1 =>
    if s.flag (F.FAB_DETOUR_i_LO_VALID i) && decide (coord (s.getF (F.FAB_DETOUR_i_LO_XLO i)) ≤ x) &&
       decide (x ≤ coord (s.getF (F.FAB_DETOUR_i_LO_XHI i))) && decide (coord (s.getF (F.FAB_DETOUR_i_LO_YLO i)) ≤ y) &&
       decide (y ≤ coord (s.getF (F.FAB_DETOUR_i_LO_YHI i)))
    then some (s.getF (F.FAB_DETOUR_i_HI_PORT i)) else detourFrom s x y (i + 1) n
/-- The output port toward a destination (R341): detour, parent for the origin, E or W, then S or N. -/
def State.routePort (s : State) (dx dy : Nat) : Nat :=
  let x := coord dx
  let y := coord dy
  match detourFrom s x y 0 64 with
  | some p => p
  | none =>
    if x = 0 ∧ y = 0 ∧ s.flag F.FAB_PARENT_VALID then s.getF F.FAB_PARENT_PORT
    else if coord s.ownX < x then 1
    else if x < coord s.ownX then 3
    else if coord s.ownY < y then 2 else 0
/-- Send a flit toward its destination; dropped and counted when its port is an edge or down (R343). -/
def State.sendFlit (s : State) (f : FabFlit) : State :=
  let p := s.routePort f.dx f.dy
  if s.portOpen p then s.queueFlit p f else s.dropFlit
/-- A flit of this device. -/
def State.ownFlit (s : State) (cls typ dx dy arg : Nat) (payload : List Byte) : FabFlit :=
  ⟨cls, typ, dx, dy, s.ownX, s.ownY, 127, arg, payload⟩

/-- Device coordinates of a fabric window address (R21). -/
def windowX (a : Nat) : Nat := ((a - 0x10000000000) / 0x10000000 % 64 + 32) % 64
def windowY (a : Nat) : Nat := ((a - 0x10000000000) / 0x10000000 / 64 + 32) % 64
def windowOffset (a : Nat) : Nat := (a - 0x10000000000) % 0x10000000

end Sys2Proof.Machine
end

