-- ==== Sys2Proof/Machine/RegOps.lean ====
section
/-! DEFINITION. The fields of a register by access type (R8, R9, R10). -/

namespace Sys2Proof.Machine

/-- The bits of a register whose fields satisfy a test. -/
def fieldBits (p : RegField → Bool) : List RegField → Nat
  | [] => 0
  | f :: r => if p f then (2 ^ (f.hi + 1 - f.lo) - 1) <<< f.lo ||| fieldBits p r else fieldBits p r
/-- The bits of the fields of an access type at an offset. -/
def accMask (off : Nat) (a : Access) : Nat :=
  match regRow? off with
  | some r => fieldBits (fun f => f.acc == a) r.fields
  | none => 0
/-- The bits of every field at an offset. -/
def namedMask (off : Nat) : Nat :=
  match regRow? off with
  | some r => fieldBits (fun _ => true) r.fields
  | none => 0
/-- `v` in the bits of a mask, `old` elsewhere. -/
def mergeBits (old v mask : Nat) : Nat := (old &&& (0xFFFFFFFF ^^^ mask)) ||| (v &&& mask)
/-- Write the RW fields of a register. -/
def State.putRw (s : State) (off v : Nat) : State :=
  s.setReg off (BitVec.ofNat 32 (mergeBits (s.reg off).toNat v (accMask off .rw)))
/-- Write the RW fields of `n` consecutive registers from the little-endian words of an image; offsets that hold no register
are passed over. -/
def State.putImage (s : State) (off : Nat) : Nat → List Byte → State
  | 0, _ => s
  | n + 1, bs =>
    State.putImage (if (regRow? off).isSome then s.putRw off (leNat (bs.take 4)) else s) (off + 4) n (bs.drop 4)
/-- An image holds a reserved bit that is not zero. -/
def imageReserved (off : Nat) : Nat → List Byte → Bool
  | 0, _ => false
  | n + 1, bs => leNat (bs.take 4) &&& (0xFFFFFFFF ^^^ namedMask off) != 0 || imageReserved (off + 4) n (bs.drop 4)

end Sys2Proof.Machine
end

