-- ==== Sys2Proof/Machine/AdaptOps.lean ====
section
/-! DEFINITION. The adaptation table of the loaded bundle (R388), its descriptor pairs (R259) and where its state sets
lie (R258). -/

namespace Sys2Proof.Machine

/-- A little-endian field of a list of bytes. -/
def fieldAt (bs : List Byte) (off len : Nat) : Nat := leNat ((bs.drop off).take len)
/-- The adaptation table of the loaded bundle, empty where there is none. -/
def State.adaptTable (s : State) : List Byte :=
  match s.seq.bundle with
  | some b => b.adapt
  | none => []
/-- Adapters declared. -/
def adapters (t : List Byte) : Nat := fieldAt t 0 1
def adaptCores (t : List Byte) : List Nat := (List.range 16).filter (fun n => (fieldAt t 4 2).testBit n)
def adaptEntry (t : List Byte) : Nat := fieldAt t 6 2
/-- Region and offset of a state set. -/
def setRegion (t : List Byte) (i : Nat) : Nat := fieldAt t (0x18 + i) 1
def setOffset (t : List Byte) (i : Nat) : Nat := fieldAt t (0x1C + 4 * i) 4
def setSize (t : List Byte) : Nat := fieldAt t 0x24 4
/-- Start of adapter i's entry, and its fields. -/
def adapterAt (i : Nat) : Nat := 64 + 64 * i
def adKind (t : List Byte) (i : Nat) : Nat := fieldAt t (adapterAt i) 1
def adRank (t : List Byte) (i : Nat) : Nat := fieldAt t (adapterAt i + 1) 1
def adType (t : List Byte) (i : Nat) : Nat := fieldAt t (adapterAt i + 2) 1
def adParams (t : List Byte) (i : Nat) : Nat := fieldAt t (adapterAt i + 4) 4
def adParts (t : List Byte) (i : Nat) : Nat := fieldAt t (adapterAt i + 8) 4
def adPairs (t : List Byte) (i : Nat) : Nat := fieldAt t (adapterAt i + 0xC) 2
/-- Slice and DOFF of the first descriptor of pair k. -/
def adPair (t : List Byte) (i k : Nat) : Nat × Nat :=
  let w := fieldAt t (adapterAt i + 0x10 + 4 * k) 4
  (bitsOf w 31 28, bitsOf w 15 0)
/-- Slice and offset of the k-th quantisation record of an α adapter. -/
def adRecord (t : List Byte) (i k : Nat) : Nat × Nat :=
  let w := fieldAt t (adapterAt i + 0x20 + 4 * k) 4
  (bitsOf w 31 28, bitsOf w 21 0)
/-- 64-element blocks of an adapter's parameters. -/
def adBlocks (t : List Byte) (i : Nat) : Nat := ceilDiv (adParams t i) 64
/-- Byte offsets, within an adapter's parts, of its first moment, of its moment scales, and of what follows them: the working
weights, or the learned α of an α adapter (R258). -/
def adMoments (t : List Byte) (i : Nat) : Nat := 2 * adParams t i
def adScales (t : List Byte) (i : Nat) : Nat := 4 * adParams t i
def adWorking (t : List Byte) (i : Nat) : Nat := adScales t i + 4 * adBlocks t i

/-- Descriptor pairs of the table: slice, DOFF of the first (R259). -/
def tablePairs (t : List Byte) : List (Nat × Nat) :=
  ((List.range (adapters t)).map (fun i => (List.range (min 4 (adPairs t i))).map (adPair t i))).flatten
/-- The descriptor offset a PASS reads: the live one of a declared pair, its own otherwise (R259). -/
def State.pairOffset (s : State) (slice doff : Nat) : Nat :=
  if (tablePairs s.adaptTable).contains (slice, doff) then doff + s.getF F.TT_ADP_STATUS_LIVE else doff
/-- A pass's descriptor belongs to a declared pair. -/
def State.isPair (s : State) (addr : Nat) : Bool :=
  (tablePairs s.adaptTable).any (fun p => addr == sliceAddr p.1 (p.2 * 64) || addr == sliceAddr p.1 (p.2 * 64 + 64))

/-- Device address of a byte of a line-task region, coded as SPACE 0x0 to 0x7 (R129, R388). -/
def State.lineAddr (s : State) (region off : Nat) : Nat :=
  if region < 4 then let g := s.spadRegion 0 region; sliceAddr g.slice (g.base + off)
  else (s.dramRegion 0 (region - 4)).base + off
/-- Device address of a byte of a state set. -/
def State.setAddr (s : State) (i off : Nat) : Nat :=
  s.lineAddr (setRegion s.adaptTable i) (setOffset s.adaptTable i + off)

/-- A transfer reads the standby set: the seal's (stage 11 of R263). -/
def State.readsStandby (s : State) (ws : List Nat) : Bool :=
  let i := 1 - s.getF F.TT_ADP_STATUS_LIVE
  let off := dword ws 1 + bitsOf (dword ws 2) 15 0 * 2 ^ 32
  dbits ws 2 31 28 == setRegion s.adaptTable i && decide (setOffset s.adaptTable i ≤ off) && decide (off < setOffset s.adaptTable i + setSize s.adaptTable)
/-- A failed descriptor of the step: a sample copy of the line task, or a transfer of a step task; one that reads the standby set is the
seal's, any other the exchange's (R263, R265, log 223). -/
def State.noteAdaptFail (s : State) (d : MoverDesc) : State :=
  match d.issuer with
  | .moveList =>
    if dbits d.words 0 27 25 = 2 then
      if (s.adapt.pend.map (fun p => p.step)) = some d.seq then s.stepCause 3
      else if s.adapt.step = d.seq then { s with adapt := { s.adapt with copyFailed := true } } else s
    else s
  | _ =>
    if (match s.adapt.pend with | some p => p.slots.contains d.task | none => false) then
      s.stepCause (if s.readsStandby d.words then 5 else 3)
    else s
/-- A pass is stage 7's: it drains LX sums of FP16 products to FP32 (R263; log 223). -/
def isGradientDrain (ws : List Nat) : Bool := gMode ws == 2 && !gRaw ws && gFamily ws == some .fp16 && gDType ws == 0xB
/-- The drain of the summed gradient meets a special flag: the step is discarded (stage 7 of R263). -/
def State.noteSpecial (s : State) (p : GridPass) : State :=
  match p.issuer with
  | .core _ =>
    if (match s.adapt.pend with | some q => q.slots.contains p.task | none => false) && isGradientDrain p.words &&
       anyBelow (fun m => anyBelow (fun j =>
         let a := AccParts.ofWord (s.accWord (s.accIndex p.unit (gAccRow p.words + m) j))
         a.nan || a.pinf || a.ninf) (gN p.words)) (gM p.words)
    then s.stepCause 4 else s
  | _ => s

end Sys2Proof.Machine
end

