-- ==== Sys2Proof/Machine/ScalarMem.lean ====
section
/-! DEFINITION. Scalar loads and stores: the narrow view of a region of the context's task (R114, R118, R171). -/

namespace Sys2Proof.Machine

/-- The task address offset sa + imm, a 64-bit number. -/
def taskOffset (s : State) (k : Issue) (w : YWord) : Nat := (s.sget k w.a + w.simm).toNat
/-- Bits 4:2 of the region field must be zero. -/
def regionOk (w : YWord) : Bool := decide (w.c.toNat < 4)
/-- Load latency: own slice or a mesh neighbour's (R171, R193). -/
def loadLat (s : State) (k : Issue) (region : Nat) : Nat :=
  if (s.spadRegion (s.ctxTask k.core k.ctx) region).slice = k.core then 6 else 8

/-- A failed access check: the window refusal is counted, either is recorded, and the access fault carries the offset
(R22, R120, R180). -/
def accessFault (s : State) (window : Bool) (o : Nat) : YEffect :=
  .fault (if window then s.refuseWindow else s.refuseAccess) 2 o

/-- Accesses of a core in given cycles: in line mode each takes its bank's shared slot, and a kernel that loses one ends as an overrun (R217). -/
def lineSlots (k : Issue) (accs : List (Nat × Nat × Nat)) (f : State → YEffect) (s : State) : YEffect :=
  match k.ctx with
  | .batch => f s
  | .line =>
    match s.claimSlots k.core accs with
    | (s, true) => f s
    | (s, false) => .fault s 9 0
/-- One access, in cycle t. -/
def lineSlot (k : Issue) (t n off : Nat) (f : State → YEffect) (s : State) : YEffect := lineSlots k [(t, n, bankOf off)] f s

/-- A load of `size` bytes, widened by `ext`. An uncorrectable word raises the data-error fault (R122). -/
def scalarLoad (size : Nat) (ext : Nat → Word64) (k : Issue) (w : YWord) (s : State) : Host.Outcome State Fault Refusal :=
  yubenOut k w { useD := true, useA := true, useC := true, useImm := true, reads := [rS w.a], writes := wS w.d,
                 lat := loadLat s k w.c.toNat }
    (fun t s =>
      if !regionOk w then .fault s 1 0
      else
        let o := taskOffset s k w
        match s.checkTask k.core (s.ctxTask k.core k.ctx) w.c.toNat o size size false with
        | .ok n off =>
          lineSlot k t n off (fun s => match s.readSlice n off size with
            | (s', bs, bad) => if bad then .fault s' 3 o else .done (s'.sset k w.d (ext (leNat bs)))) s
        | .refused => accessFault s false o
        | .window => accessFault s true o) s

/-- A store of the low `size` bytes of sb into the slice's gather buffer. -/
def scalarStore (size : Nat) (k : Issue) (w : YWord) (s : State) : Host.Outcome State Fault Refusal :=
  yubenOut k w { useA := true, useB := true, useC := true, useImm := true, reads := [rS w.a, rS w.b] }
    (fun t s =>
      if !regionOk w then .fault s 1 0
      else
        let o := taskOffset s k w
        match s.checkTask k.core (s.ctxTask k.core k.ctx) w.c.toNat o size size true with
        | .ok n off => .done (s.writeNarrow n off k.core (k.ctx == .line) t (leBytes size (s.sget k w.b).toNat))
        | .refused => accessFault s false o
        | .window => accessFault s true o) s

/-- Sign extension from `8 n` bits. -/
def sext (n v : Nat) : Word64 := BitVec.ofInt 64 (signedOf (8 * n) v)
def zext (v : Nat) : Word64 := BitVec.ofNat 64 v

def execLb (k : Issue) (w : YWord) (s : State) := scalarLoad 1 (sext 1) k w s
def execLbu (k : Issue) (w : YWord) (s : State) := scalarLoad 1 zext k w s
def execLh (k : Issue) (w : YWord) (s : State) := scalarLoad 2 (sext 2) k w s
def execLhu (k : Issue) (w : YWord) (s : State) := scalarLoad 2 zext k w s
def execLw (k : Issue) (w : YWord) (s : State) := scalarLoad 4 (sext 4) k w s
def execLwu (k : Issue) (w : YWord) (s : State) := scalarLoad 4 zext k w s
def execLd (k : Issue) (w : YWord) (s : State) := scalarLoad 8 zext k w s
def execSb (k : Issue) (w : YWord) (s : State) := scalarStore 1 k w s
def execSh (k : Issue) (w : YWord) (s : State) := scalarStore 2 k w s
def execSw (k : Issue) (w : YWord) (s : State) := scalarStore 4 k w s
def execSd (k : Issue) (w : YWord) (s : State) := scalarStore 8 k w s

end Sys2Proof.Machine
end

