-- ==== Sys2Proof/Machine/Control.lean ====
section
/-! DEFINITION. Predicates, branches, hardware loops, system instructions, waits and the time stamp (R172 to R179). -/

namespace Sys2Proof.Machine

/-- A destination predicate is p1 to p7; a source predicate p0 to p7 (R155, R172). -/
def pdOk (r : BitVec 5) : Bool := decide (1 ≤ r.toNat) && decide (r.toNat < 8)
def psOk (r : BitVec 5) : Bool := decide (r.toNat < 8)
/-- Every bit of a predicate. -/
def predAll (b : Bool) : Pred := if b then BitVec.allOnes 128 else 0#128

/-- Set every bit of pd to a condition. -/
def setPredCond (k : Issue) (w : YWord) (s : State) (b : Word64) : YEffect :=
  if !pdOk w.d then .fault s 1 0
  else match scalarCond w.c.toNat (s.sget k w.a) b with
    | some r => .done (s.pset k w.d.toNat (predAll r))
    | none => .fault s 1 0
def execPcmp (k : Issue) (w : YWord) (s : State) :=
  yubenOut k w { useD := true, useA := true, useB := true, useC := true, reads := [rS w.a, rS w.b], writes := [rP w.d.toNat] }
    (fun _ s => setPredCond k w s (s.sget k w.b)) s
def execPcmpi (k : Issue) (w : YWord) (s : State) :=
  yubenOut k w { useD := true, useA := true, useC := true, useImm := true, reads := [rS w.a], writes := [rP w.d.toNat] }
    (fun _ s => setPredCond k w s w.simm) s

/-- pd := f(pa, pb). -/
def predOp2 (f : Pred → Pred → Pred) (k : Issue) (w : YWord) (s : State) : Host.Outcome State Fault Refusal :=
  yubenOut k w { useD := true, useA := true, useB := true, reads := [rP w.a.toNat, rP w.b.toNat], writes := [rP w.d.toNat] }
    (fun _ s => if pdOk w.d && psOk w.a && psOk w.b then
        .done (s.pset k w.d.toNat (f (s.pget k w.a.toNat) (s.pget k w.b.toNat)))
      else .fault s 1 0) s
/-- pd := f(pa). -/
def predOp1 (f : Pred → Pred) (k : Issue) (w : YWord) (s : State) : Host.Outcome State Fault Refusal :=
  yubenOut k w { useD := true, useA := true, reads := [rP w.a.toNat], writes := [rP w.d.toNat] }
    (fun _ s => if pdOk w.d && psOk w.a then .done (s.pset k w.d.toNat (f (s.pget k w.a.toNat))) else .fault s 1 0) s
def execPand (k : Issue) (w : YWord) (s : State) := predOp2 (fun a b => a &&& b) k w s
def execPor (k : Issue) (w : YWord) (s : State) := predOp2 (fun a b => a ||| b) k w s
def execPxor (k : Issue) (w : YWord) (s : State) := predOp2 (fun a b => a ^^^ b) k w s
def execPandn (k : Issue) (w : YWord) (s : State) := predOp2 (fun a b => a &&& ~~~b) k w s
def execPnot (k : Issue) (w : YWord) (s : State) := predOp1 (fun a => ~~~a) k w s
def execPmov (k : Issue) (w : YWord) (s : State) := predOp1 (fun a => a) k w s
/-- Bits 0 to min(sa, 128) - 1 of pd set, the rest clear. -/
def execPfirst (k : Issue) (w : YWord) (s : State) :=
  yubenOut k w { useD := true, useA := true, reads := [rS w.a], writes := [rP w.d.toNat] }
    (fun _ s => if pdOk w.d then .done (s.pset k w.d.toNat (BitVec.ofNat 128 (2 ^ (min (s.sget k w.a).toNat 128) - 1))) else .fault s 1 0) s
/-- sd := a number made from pa. -/
def predToScalar (f : Pred → Word64) (k : Issue) (w : YWord) (s : State) : Host.Outcome State Fault Refusal :=
  yubenOut k w { useD := true, useA := true, reads := [rP w.a.toNat], writes := wS w.d }
    (fun _ s => if psOk w.a then .done (s.sset k w.d (f (s.pget k w.a.toNat))) else .fault s 1 0) s
def execPcnt (k : Issue) (w : YWord) (s : State) := predToScalar (fun p => BitVec.ofNat 64 (countBits p.toNat 128)) k w s
def execPany (k : Issue) (w : YWord) (s : State) := predToScalar (fun p => if p = 0#128 then 0#64 else 1#64) k w s

/-! ### Branches and jumps (R173) -/

/-- PC + imm, a 64-bit number: an address outside the context's range faults at its fetch (R156). -/
def branchTarget (s : State) (k : Issue) (w : YWord) : Nat := (BitVec.ofNat 64 (s.yctx k.core k.ctx).pc + w.simm).toNat
/-- The link value PC + 1. -/
def linkValue (s : State) (k : Issue) : Word64 := BitVec.ofNat 64 ((s.yctx k.core k.ctx).pc + 1)
/-- A branch as the last instruction of a body is illegal (R175). -/
def branchEff (k : Issue) (s : State) (e : YEffect) : YEffect := if (s.yctx k.core k.ctx).atBodyEnd then .fault s 1 0 else e

def execBr (k : Issue) (w : YWord) (s : State) :=
  yubenOut k w { useA := true, useB := true, useC := true, useImm := true, reads := [rS w.a, rS w.b] }
    (fun _ s => branchEff k s (match scalarCond w.c.toNat (s.sget k w.a) (s.sget k w.b) with
      | some true => .jump s (branchTarget s k w)
      | some false => .done s
      | none => .fault s 1 0)) s
def execJ (k : Issue) (w : YWord) (s : State) :=
  yubenOut k w { useImm := true } (fun _ s => branchEff k s (.jump s (branchTarget s k w))) s
def execJal (k : Issue) (w : YWord) (s : State) :=
  yubenOut k w { useD := true, useImm := true, writes := wS w.d, lat := 3 }
    (fun _ s => branchEff k s (.jump (s.sset k w.d (linkValue s k)) (branchTarget s k w))) s
def execJr (k : Issue) (w : YWord) (s : State) :=
  yubenOut k w { useA := true, reads := [rS w.a] } (fun _ s => branchEff k s (.jump s (s.sget k w.a).toNat)) s
def execJalr (k : Issue) (w : YWord) (s : State) :=
  yubenOut k w { useD := true, useA := true, reads := [rS w.a], writes := wS w.d, lat := 3 }
    (fun _ s => branchEff k s (.jump (s.sset k w.d (linkValue s k)) (s.sget k w.a).toNat)) s
def execBp (k : Issue) (w : YWord) (s : State) :=
  yubenOut k w { useA := true, useC := true, useImm := true, reads := [rP w.a.toNat] }
    (fun _ s => branchEff k s (if !psOk w.a then .fault s 1 0 else
      match predCond w.c.toNat (s.pget k w.a.toNat) with
      | some true => .jump s (branchTarget s k w)
      | some false => .done s
      | none => .fault s 1 0)) s

/-! ### Hardware loops (R174, R175) -/

/-- A disabled loop instruction skips its body and waits only for its predicate (R166). -/
def loopSpec (s : State) (k : Issue) (w : YWord) (useA : Bool) (reads : List Nat) : YSpec :=
  { useA := useA, useC := true, useImm := true, whole := false, reads := if s.enabled k w then reads else [] }

/-- Start a loop at level c with `count` iterations of the `body` instructions that follow. A body length of 0 or a level above 1, outside
their ranges, is an illegal instruction: the model's choice (log 213). -/
def loopEff (k : Issue) (w : YWord) (count body : Nat) (bad : Bool) (s : State) : YEffect :=
  let c := s.yctx k.core k.ctx
  let l : LoopLevel := ⟨c.pc + 1, c.pc + body, count⟩
  if !s.enabled k w then .skip s (c.pc + body)
  else if bad || body == 0 || decide (1 < w.c.toNat) then .fault s 1 0
  else if w.c = 0#5 then
    if c.loop0.count ≠ 0 then .fault s 1 0
    else if count = 0 then .skip s (c.pc + body)
    else .done (s.setYctx k.core k.ctx { c with loop0 := l })
  else
    if c.loop1.count ≠ 0 ∨ (c.loop0.count ≠ 0 ∧ c.loop0.stop < l.stop) then .fault s 1 0
    else if count = 0 then .skip s (c.pc + body)
    else .done (s.setYctx k.core k.ctx { c with loop1 := l })

/-- Complete a loop start: the context keeps the level the effect set. -/
def loopOut (k : Issue) (w : YWord) (sp : YSpec) (count : State → Nat) (body : Nat) (bad : Bool) (s : State) :
    Host.Outcome State Fault Refusal :=
  yubenOut k w sp (fun _ s => loopEff k w (count s) body bad s) s
def execLoop (k : Issue) (w : YWord) (s : State) :=
  loopOut k w (loopSpec s k w true [rS w.a]) (fun s => (s.sget k w.a).toNat % 2 ^ 32) (w.uimm % 4096) (w.uimm / 4096 != 0) s
def execLoopi (k : Issue) (w : YWord) (s : State) :=
  loopOut k w (loopSpec s k w false []) (fun _ => w.uimm / 4096) (w.uimm % 4096) false s

/-! ### System instructions (R179) -/

def execNop (k : Issue) (w : YWord) (s : State) := yubenOut k w {} (fun _ s => .done s) s

/-- HALT. Line context: the commit list is applied and the kernel ends; the batch context issues from h + 2 (R157, R159).
Batch context: a data error of a pass that no GWAIT covered is raised here (R439); else the task's work on this core
ends and is reported to the TCC (R236). -/
def haltEff (k : Issue) (t : Nat) (s : State) : YEffect :=
  let v := s.vcore k.core
  match k.ctx with
  | .line =>
    lineSlots k (commitAccs t v.commit) (fun s =>
      let s := applyCommit v.commit s
      let s := s.setVcore k.core { s.vcore k.core with lineRun := false, commit := [] }
      let b := s.yctx k.core .batch
      .halt (s.setYctx k.core .batch { b with nextIssue := max b.nextIssue (t + 2) })) s
  | .batch =>
    if (s.yctx k.core .batch).dataErr then .fault s 3 (s.yctx k.core .batch).dataAt
    else
      let s := s.setVcore k.core { v with batchRun := false }
      .halt ({ s with tcc := { s.tcc with halted := s.tcc.halted ++ [v.batchTask] } }.tryFinish v.batchTask)
def execHalt (k : Issue) (w : YWord) (s : State) := yubenOut k w {} (fun t s => haltEff k t s) s

/-- FENCE writes the core's gather-buffer entries to their banks; +34 in the line context. -/
def execFence (k : Issue) (w : YWord) (s : State) :=
  yubenOut k w {} (fun t s => match k.ctx with
    | .line => .late (s.fenceCore k.core t) 34 34
    | .batch => .done (s.flushCore k.core)) s
def execTrap (k : Issue) (w : YWord) (s : State) := yubenOut k w { useImm := true } (fun _ s => .fault s 8 w.uimm) s

/-! ### Waits (R176, R177) -/

/-- WAITC: cycle T of the current turn, or the next cycle if T is not after the issue cycle; a late one in the line
context is counted, the first of each round recorded. T = C in the extra edge names cycle 0 of the next turn (R163). -/
def execWaitc (k : Issue) (w : YWord) (s : State) :=
  yubenOut k w { useImm := true } (fun t s =>
    if w.uimm / 65536 ≠ 0 then .fault s 1 0
    else if t < w.uimm ∨ (t = w.uimm ∧ t = s.budget) then .wait s (.cycle w.uimm)
    else match k.ctx with
      | .batch => .done s
      | .line =>
        let s := s.bumpF (F.VC_n_EVT_LATE k.core)
        let v := s.vcore k.core
        .done (if v.lateSeen then s else (s.record 0x07 0 k.core).setVcore k.core { v with lateSeen := true })) s
/-- WAITN: n cycles after the issue; n = 0, outside its range, is an illegal instruction: the model's choice (log 213). -/
def execWaitn (k : Issue) (w : YWord) (s : State) :=
  yubenOut k w { useImm := true } (fun t s => if w.uimm = 0 then .fault s 1 0 else .wait s (.edge (t + w.uimm))) s
/-- WAITTURN: cycle 0 of the k-th turn after the current one; k outside its range is illegal as in `execWaitn` (log 213). -/
def execWaitturn (k : Issue) (w : YWord) (s : State) :=
  yubenOut k w { useImm := true, lineOk := false } (fun _ s =>
    if w.uimm = 0 ∨ 16383 < w.uimm then .fault s 1 0 else .wait s (.turns (s.tt.ordinal + w.uimm))) s

def execWaitrdy (k : Issue) (w : YWord) (s : State) :=
  yubenOut k w { useD := true, useImm := true, writes := [rP w.d.toNat] } (fun _ s =>
    let r := bitsOf w.uimm 23 16
    if !pdOk w.d then .fault s 1 0
    else if !s.ownsRing (s.ctxTask k.core k.ctx) r then .fault s 5 r
    else .wait s (.ready w.d.toNat r (w.uimm % 65536))) s
def execWaithq (k : Issue) (w : YWord) (s : State) :=
  yubenOut k w { useD := true, useImm := true, writes := [rP w.d.toNat] } (fun _ s =>
    let q := bitsOf w.uimm 23 16
    if !pdOk w.d then .fault s 1 0
    else if !s.ownsQueue (s.ctxTask k.core k.ctx) q then .fault s 5 q
    else .wait s (.handles w.d.toNat q (w.uimm % 65536))) s

/-- A halo slot is armed at the head of a ring and has not arrived. -/
def State.haloAwaited (s : State) (r : Nat) : Bool :=
  s.rings.halo.any (fun a => a.ring == r && a.slot == s.ringHead r && a.gen == s.slotGen r (s.ringHead r))
/-- The head slot of a ring is not ready at its consumption deadline: the hold is latched, for cause 2 if a halo is awaited (R218, R224). -/
def State.missedSlot (s : State) (r : Nat) (halo : Bool) : State := s.latchHold (if halo then 2 else 0) (s.ringStream r) r
/-- The deadline of a WAITRDY is a consumption deadline of an armed halo slot: the line context's finds it not arrived (R224). -/
def missedHalo (k : Issue) (r : Nat) (s : State) : State :=
  if k.ctx = .line ∧ s.headReady r = false ∧ s.haloAwaited r = true then s.missedSlot r true else s
/-- The wait of a context ends: its cycle or turn is reached, or the awaited thing has arrived or its deadline passed.
The result predicate says whether it arrived; in the line context issue goes on in cycle D + 1 either way (R177), but not before the cycle
after the wait's own issue where D lies before it: the model's choice (log 212). -/
def endDeadlineWait (k : Issue) (pd d : Nat) (arrived : Bool) (s : State) : State :=
  let s := s.pset k pd (predAll arrived)
  let c := s.yctx k.core k.ctx
  let n := match k.ctx with
    | .line => max c.nextIssue (d + 1)
    | .batch => c.nextIssue
  s.setYctx k.core k.ctx { c with wait := none, nextIssue := n, readyAt := SMap.erase c.readyAt (rP pd) }
def execWaitEnd (core : Nat) (ctx : CtxId) (s : State) : Host.Outcome State Fault Refusal :=
  let k : Issue := ⟨core, ctx, .clean, []⟩
  let c := s.yctx core ctx
  .next (match c.wait with
    | none => s
    | some (.cycle t) => s.setYctx core ctx { c with wait := none, nextIssue := t }
    | some (.edge t) => s.setYctx core ctx { c with wait := none, nextIssue := t }
    | some (.turns n) => if n ≤ s.tt.ordinal then s.setYctx core ctx { c with wait := none, nextIssue := 0 } else s
    | some (.ready pd r d) => endDeadlineWait k pd d (s.headReady r) (missedHalo k r s)
    | some (.handles pd q d) => endDeadlineWait k pd d (!(s.hqOf q).isEmpty) s
    | some .resource => s.setYctx core ctx { c with wait := none })

/-- sd := (turn shifted left 16) OR cycle, for the issue cycle (R178). -/
def execTstamp (k : Issue) (w : YWord) (s : State) :=
  yubenOut k w { useD := true, writes := wS w.d } (fun t s => .done (s.sset k w.d (BitVec.ofNat 64 (s.tt.turn * 65536 ||| t % 65536)))) s

end Sys2Proof.Machine
end

