-- ==== Sys2Proof/Machine/StreamOps.lean ====
section
/-! DEFINITION. Streams: settings in force, pixel formats (R277, R278), capture frames and RASTER traffic on the die
link (R13 to R16). -/

namespace Sys2Proof.Machine

def State.strH (s : State) (n : Nat) : Nat := s.getF (F.STR_n_SIZE_H n)
def State.strW (s : State) (n : Nat) : Nat := s.getF (F.STR_n_SIZE_W n)
/-- An enabled output stream, an enabled capture stream. -/
def State.isOutput (s : State) (n : Nat) : Bool := s.flag (F.STR_n_CFG_EN n) && s.getF (F.STR_n_CFG_KIND n) == 0
def State.isCapture (s : State) (n : Nat) : Bool := s.flag (F.STR_n_CFG_EN n) && s.getF (F.STR_n_CFG_KIND n) == 1
/-- The index of an enabled tensor-fed layer of a stream (R274). -/
def State.tensorLayer (s : State) (n : Nat) : Option Nat :=
  (List.range 8).find? (fun l => s.flag (F.STR_n_Ll_CFG_EN n l) && s.getF (F.STR_n_Ll_CFG_SRC n l) == 2)

/-- Bytes of one pixel of a format (R277). -/
def pixelBytes : Nat → Nat
  | 0 => 2 | 1 => 2 | 2 => 2 | 3 => 3 | 7 => 8 | _ => 4

/-- An n-bit code as a fraction in units of 2^-16: k * 2^16 / (2^n - 1), RNA (R278). -/
def expandCode (n k : Nat) : Nat := roundNat .rna (k * 65536) (2 ^ n - 1)

/-- A pixel's code in a format (R277, R278). -/
def decodePixel (fmt v : Nat) : Pixel :=
  match fmt with
  | 0 => ⟨expandCode 5 (bitsOf v 15 11), expandCode 6 (bitsOf v 10 5), expandCode 5 (bitsOf v 4 0), 65536⟩
  | 1 => ⟨expandCode 5 (bitsOf v 14 10), expandCode 5 (bitsOf v 9 5), expandCode 5 (bitsOf v 4 0), expandCode 1 (bitsOf v 15 15)⟩
  | 2 => ⟨expandCode 4 (bitsOf v 11 8), expandCode 4 (bitsOf v 7 4), expandCode 4 (bitsOf v 3 0), expandCode 4 (bitsOf v 15 12)⟩
  | 3 => ⟨expandCode 8 (bitsOf v 23 16), expandCode 8 (bitsOf v 15 8), expandCode 8 (bitsOf v 7 0), 65536⟩
  | 4 => ⟨expandCode 8 (bitsOf v 23 16), expandCode 8 (bitsOf v 15 8), expandCode 8 (bitsOf v 7 0), expandCode 8 (bitsOf v 31 24)⟩
  | 5 => ⟨expandCode 10 (bitsOf v 29 20), expandCode 10 (bitsOf v 19 10), expandCode 10 (bitsOf v 9 0), 65536⟩
  | 6 => ⟨expandCode 10 (bitsOf v 29 20), expandCode 10 (bitsOf v 19 10), expandCode 10 (bitsOf v 9 0), expandCode 2 (bitsOf v 31 30)⟩
  | _ => ⟨bitsOf v 59 40, bitsOf v 39 20, bitsOf v 19 0, 65536⟩
/-- The PX20 triple word of three components (R61). -/
def tripleWord (p : Pixel) : Nat := p.r % 2 ^ 20 * 2 ^ 40 + p.g % 2 ^ 20 * 2 ^ 20 + p.b % 2 ^ 20
/-- The pixels of a line of bytes. -/
def linePixels (fmt : Nat) : Nat → List Byte → List Pixel
  | 0, _ => []
  | n + 1, bs => decodePixel fmt (leNat (bs.take (pixelBytes fmt))) :: linePixels fmt n (bs.drop (pixelBytes fmt))

/-- The pixels of a received line as a capture stream writes them: X bits zero (R277), alpha ones (R291). -/
def captureBytes (fmt : Nat) : Nat → List Byte → List Byte
  | 0, _ => []
  | n + 1, bs =>
    let v := leNat (bs.take (pixelBytes fmt))
    leBytes (pixelBytes fmt) (if fmt = 5 then v % 2 ^ 30 else if fmt = 4 then 255 * 2 ^ 24 + v % 2 ^ 24 else v) ++
      captureBytes fmt n (bs.drop (pixelBytes fmt))

/-- Device address of line y of frame buffer i of a stream (R291). -/
def State.frameLine (s : State) (n i y : Nat) : Nat :=
  let pitch := s.getF (F.STR_n_FRM_CFG_PITCH n) * 64
  s.getF (F.STR_n_FRM_BASE_BASE n) * 65536 + i * (ceilDiv (pitch * s.strH n) 4096 * 4096) + y * pitch
/-- The frame of a number. -/
def StreamRt.frame? (x : StreamRt) (id : Nat) : Option CapFrame := x.frames.find? (fun f => f.id == id)

def State.setDl (s : State) (d : DieLink) : State := { s with raster := { s.raster with dl := d } }
/-- Flits of a transfer: 120 payload bytes each (R12). -/
def flitsOf (bytes : Nat) : Nat := max 1 (ceilDiv bytes 120)
def State.toRaster (s : State) (b : DlBody) (bytes : Nat) : State :=
  s.setDl { s.raster.dl with toRaster := s.raster.dl.toRaster ++ [⟨b, flitsOf bytes, false, s.now, none⟩] }
def State.toTensor (s : State) (b : DlBody) (bytes : Nat) : State :=
  s.setDl { s.raster.dl with toTensor := s.raster.dl.toTensor ++ [⟨b, flitsOf bytes, false, s.now, none⟩] }

end Sys2Proof.Machine
end

