-- ==== Sys2Proof/Machine/Movers.lean ====
section
/-! DEFINITION. The Rook movers: descriptors and their checks (R116, R127 to R131), transfers (R130 to R132, R345, R344),
completion and ring handling (R133, R474), the regulator (R141) and the movers' commands. -/

namespace Sys2Proof.Machine

/-! ### Descriptor fields (R128) -/

def mKind (ws : List Nat) : Nat := dbits ws 0 31 28
def mClass (ws : List Nat) : Nat := dbits ws 0 27 25
def mCrc (ws : List Nat) : Nat := dbits ws 0 24 23
def mSrcType (ws : List Nat) : Nat := dbits ws 0 22 19
def mDstType (ws : List Nat) : Nat := dbits ws 0 18 15
def mNoAlloc (ws : List Nat) : Bool := dflag ws 0 14
def mSrcRing (ws : List Nat) : Bool := dflag ws 0 13
def mDstRing (ws : List Nat) : Bool := dflag ws 0 12
def mDone (ws : List Nat) : Nat := dbits ws 0 11 10
def mHq (ws : List Nat) : Nat := dbits ws 0 7 0
def mSrcRingNo (ws : List Nat) : Nat := dbits ws 2 23 16
def mDstRingNo (ws : List Nat) : Nat := dbits ws 4 23 16
def mSrcAddr (ws : List Nat) : Nat := dword ws 1 + dbits ws 2 15 0 * 2 ^ 32
def mDstAddr (ws : List Nat) : Nat := dword ws 3 + dbits ws 4 15 0 * 2 ^ 32
def mD0 (ws : List Nat) : Nat := dword ws 5
def mD1 (ws : List Nat) : Nat := dbits ws 6 15 0
def mD2 (ws : List Nat) : Nat := dbits ws 6 31 16
def mD3 (ws : List Nat) : Nat := dbits ws 7 15 0
/-- Stride of dimension k, source (8, 10, 12) or destination (9, 11, 13). -/
def mStride (ws : List Nat) (i : Nat) : Int := signedOf 32 (dword ws i)
def mLink (ws : List Nat) : Bool := mKind ws == 1 || mKind ws == 2
def mRows (ws : List Nat) : Bool := mKind ws == 0xE || mKind ws == 0xF
/-- Bits of a source and of a destination element: triple words for link kinds, wide rows for the in-slice kinds. -/
def mSrcBits (ws : List Nat) : Nat := if mLink ws then 64 else if mRows ws then 4096 else (typeOf (mSrcType ws)).bits
def mDstBits (ws : List Nat) : Nat := if mLink ws then 64 else if mRows ws then 4096 else (typeOf (mDstType ws)).bits
/-- Bytes of a dimension-0 run. -/
def mSrcRun (ws : List Nat) : Nat := mD0 ws * mSrcBits ws / 8
def mDstRun (ws : List Nat) : Nat := mD0 ws * mDstBits ws / 8

/-- Code 0x1: a reserved bit or encoding, or a field out of range (R128 to R131, R116). -/
def mStatic (ws : List Nat) (link : Bool) : Bool :=
  dbits ws 0 9 8 != 0 || dbits ws 2 27 24 != 0 || dbits ws 4 27 24 != 0 || dbits ws 7 31 16 != 0 || dflag ws 15 30 ||
  dbits ws 15 23 0 != 0 || !([0, 1, 2, 0xE, 0xF].contains (mKind ws)) || decide (4 < mClass ws) || mCrc ws == 3 ||
  decide (12 < mSrcType ws) || decide (12 < mDstType ws) || mDone ws == 3 || (mDone ws != 0 && !mDstRing ws) ||
  mD0 ws == 0 || mD1 ws == 0 || mD2 ws == 0 || mD3 ws == 0 ||
  (!mSrcRing ws && !(mKind ws == 2 || mKind ws == 0xE) && decide (8 ≤ dbits ws 2 31 28) && dbits ws 2 31 28 != 0xF) ||
  (!mDstRing ws && mKind ws != 1 && decide (0xC ≤ dbits ws 4 31 28) && dbits ws 4 31 28 != 0xF) ||
  (mKind ws == 0 && (mSrcType ws == 6 || mDstType ws == 6) && mD0 ws % 2 == 1) ||
  (mLink ws && (mSrcType ws != 0xC || mDstType ws != 0xC || mCrc ws != 0)) || (link && !mLink ws) ||
  (mRows ws && (mD1 ws != 1 || mD2 ws != 1 || mD3 ws != 1 || mCrc ws != 0 || mSrcType ws != mDstType ws))

/-! ### The two sides -/

/-- One side of a transfer. -/
inductive MSide where
  | none
  | link
  | region (r : Nat)
  | dram (r : Nat)
  | slot (slice base size : Nat)
  | halo (port : Nat)
  | absolute
deriving DecidableEq, Repr

/-- A place an access reaches, or the completion code it is refused with. -/
inductive Place where
  | slice (n off : Nat)
  | dram (a : Nat)
  | host (a : Nat)
  | fabric (a : Nat)
  | halo (port a : Nat)
  | fail (code : Nat)
deriving DecidableEq, Repr

def sideOfSpace (sp : Nat) : MSide :=
  if sp < 4 then .region sp else if sp < 8 then .dram (sp - 4) else if sp < 12 then .halo (sp - 8) else .absolute
/-- The slot of a handle as a side. -/
def State.slotSide (s : State) (h : Nat) : MSide :=
  .slot (handleSlice h) (s.slotOffset (handleRing h) (handleSlot h)) (s.ringRows (handleRing h) * 512)
def State.srcSide (s : State) (d : MoverDesc) : MSide :=
  if mKind d.words = 0xE then .none
  else if mKind d.words = 2 then .link
  else match d.src with
    | some h => s.slotSide h
    | none => sideOfSpace (dbits d.words 2 31 28)
def State.dstSide (s : State) (d : MoverDesc) : MSide :=
  if mKind d.words = 1 then .link
  else match d.dst with
    | some h => s.slotSide h
    | none => sideOfSpace (dbits d.words 4 31 28)
/-- The slice a side lies in. -/
def State.sideSlice (s : State) (task : Nat) : MSide → Option Nat
  | .region r => some (s.spadRegion task r).slice
  | .slot n _ _ => some n
  | _ => none

/-- The presence map marks a device (R339). -/
def State.devPresent (s : State) (y x : Nat) : Bool := s.raster.fab.presence.contains (y * 64 + x)
/-- A device address outside the slices (R21, R22, R344, R367). -/
def State.mapDevice (s : State) (a len : Nat) (write : Bool) : Place :=
  if a + len ≤ s.dramEnd then .dram a
  else if spadBase ≤ a ∧ a + len ≤ spadBase + 16 * sliceSize then
    if s.unitUsable ((a - spadBase) / sliceSize) then .slice ((a - spadBase) / sliceSize) ((a - spadBase) % sliceSize) else .fail 2
  else if 0x2000000000 ≤ a ∧ a + len ≤ 0x4000000000 then
    if s.flag F.PCI_STATUS_BME then
      .host (s.host.hwin + (a - 0x2000000000))
    else .fail 2
  else if 0x10000000000 ≤ a ∧ a + len ≤ 0x20000000000 then
    if windowX a = s.ownX ∧ windowY a = s.ownY then
      let l := s.getF F.FAB_EXPORT_BASE * 2 ^ 20 + windowOffset a
      if s.flag F.FAB_EXPORT_EN && (!write || s.flag F.FAB_EXPORT_WEN) && decide (l + len ≤ s.dramEnd) then .dram l else .fail 2
    else if s.devPresent (windowY a) (windowX a) then .fabric a else .fail 2
  else .fail 2

/-- The place of `len` bytes at offset `off` of a side (R118, R129). -/
def State.locate (s : State) (task : Nat) (side : MSide) (off : Int) (len : Nat) (write : Bool) : Place :=
  if off < 0 then .fail 2
  else
    let o := off.toNat
    match side with
    | .region r =>
      let g := s.spadRegion task r
      if s.slotReads task && g.admits o len write && decide (g.base + o + len ≤ sliceSize) then .slice g.slice (g.base + o) else .fail 2
    | .dram r =>
      let g := s.dramRegion task r
      if s.slotReads task && decide (g.base + o + len ≤ g.bound) && (!write || g.wen) then s.mapDevice (g.base + o) len write else .fail 2
    | .slot n base size => if o + len ≤ size then .slice n (base + o) else .fail 2
    | .halo p => .halo p o
    | .absolute => s.mapDevice o len write
    | _ => .fail 2

/-! ### Spans and overlap (R130) -/

/-- Lowest and highest end of a side's data, relative to its base; `i` selects the strides. -/
def sideSpan (ws : List Nat) (i : Nat) (base : Int) (run : Nat) : Int × Int :=
  let ext := fun (n : Nat) (k : Nat) => ((n - 1 : Nat) : Int) * mStride ws k
  let e := [ext (mD1 ws) i, ext (mD2 ws) (i + 2), ext (mD3 ws) (i + 4)]
  (base + (e.map (fun x => min x 0)).foldl (· + ·) 0, base + (e.map (fun x => max x 0)).foldl (· + ·) 0 + run)
/-- A side's base as a device address, when it has one. -/
def State.sideBase (s : State) (task : Nat) : MSide → Option Nat
  | .region r => let g := s.spadRegion task r; some (sliceAddr g.slice g.base)
  | .slot n base _ => some (sliceAddr n base)
  | .dram r => some (s.dramRegion task r).base
  | .absolute => some 0
  | _ => none
def State.overlaps (s : State) (d : MoverDesc) (src dst : MSide) : Bool :=
  match s.sideBase d.task src, s.sideBase d.task dst with
  | some a, some b =>
    let x := sideSpan d.words 8 (a + mSrcAddr d.words : Nat) (mSrcRun d.words)
    let y := sideSpan d.words 9 (b + mDstAddr d.words : Nat) (mDstRun d.words)
    decide (x.1 < y.2) && decide (y.1 < x.2)
  | _, _ => false

/-- A slice side within a mover's reach: own slice, or a neighbour (R117). -/
def State.reaches (s : State) (m n : Nat) : Bool := s.unitUsable n && (n == m || neighbours m n)
/-- Code 0x2: a pairing R127 does not allow, or a slice out of reach. -/
def State.pairBad (s : State) (m : Nat) (d : MoverDesc) (src dst : MSide) : Bool :=
  let a := s.sideSlice d.task src
  let b := s.sideSlice d.task dst
  let abs := src == .absolute || dst == .absolute
  let out := fun (x : Option Nat) => match x with | some n => !s.reaches m n | none => false
  if abs then d.issuer != .rulebook
  else match mKind d.words with
    | 0 => (a != some m && b != some m) || out a || out b
    | 1 => !d.link || a != some m
    | 2 => !d.link || b != some m
    | 0xE => b != some m
    | _ => a != some m || b != some m

/-- Code 0xA: an invalid link target (R129, R227). -/
def State.linkBad (s : State) (d : MoverDesc) : Bool :=
  let v := dword d.words 14
  let n := bitsOf v 31 26
  if mKind d.words = 1 then
    bitsOf v 25 0 != 0 || !s.isOutput n || (s.tensorLayer n).isNone || s.getF (F.STR_n_CFG_DOM n) != s.leadDom ||
      decide (s.strH n ≤ d.line)
  else bitsOf v 25 14 != 0 || !s.isCapture n || decide (s.strH n ≤ bitsOf v 13 0)

/-- The completion code a descriptor is refused with at its start, 0 when it runs; the lowest that applies. -/
def State.startCode (s : State) (m : Nat) (d : MoverDesc) : Nat :=
  let src := s.srcSide d
  let dst := s.dstSide d
  let offBad := fun (side : MSide) (addr : Nat) => match side with
    | .region r => ((s.spadRegion d.task r).base + addr) % 512 != 0
    | .slot _ base _ => (base + addr) % 512 != 0
    | _ => false
  let ringBad := (mSrcRing d.words && d.chain.isNone && mKind d.words != 0xE && mKind d.words != 2 && !s.ownsRing d.task (mSrcRingNo d.words)) ||
    (mDstRing d.words && d.chain.isNone && mKind d.words != 1 && !s.ownsRing d.task (mDstRingNo d.words))
  if d.code ≠ 0 then d.code
  else if mStatic d.words d.link then 1
  else if mRows d.words && (offBad dst (mDstAddr d.words) || offBad src (mSrcAddr d.words)) then 1
  else if ringBad then 9
  else if s.pairBad m d src dst then 2
  else if (mKind d.words == 0 || mKind d.words == 0xF) && s.overlaps d src dst then 6
  else if mLink d.words && s.linkBad d then 0xA
  else 0

/-! ### The transfer -/

/-- The class of a descriptor; one with a reserved class is served as HOST. -/
def servedClass (d : MoverDesc) : Nat := min (mClass d.words) 4

/-- What a transfer carries along: the state, the code it has failed with, the bytes read and written so far in
traversal order, bytes for another device by address, and ranges of host memory (address, length) whose reads fail. -/
structure Xfer where
  s : State
  code : Nat := 0
  src : List Byte := []
  dst : List Byte := []
  out : SMap Byte := []
  fails : List (Nat × Nat) := []
  /-- a write has been made, or been discarded -/
  wrote : Bool := false

/-- Read at a place; code 0x2 for a host read that fails, 0x4 for uncorrectable data, 0x7 for a bank that is not on (R122, R124, R133,
R367). -/
def Xfer.read (x : Xfer) (m : Nat) (d : MoverDesc) (p : Place) (len : Nat) : Xfer × List Byte :=
  match p with
  | .slice n off =>
    if !(x.s.reaches m n || d.issuer == .rulebook) then ({ x with code := 2 }, [])
    else if !x.s.banksOn n off len then ({ x with code := 7 }, [])
    else match x.s.readSlice n off len with
      | (s, bs, bad) => ({ x with s := s, code := if bad then 4 else 0 }, bs)
  | .dram a =>
    match x.s.cacheRead (servedClass d) (mNoAlloc d.words) a len with
    | (s, bs, bad) => ({ x with s := s, code := if bad then 4 else 0 }, bs)
  | .host a =>
    if x.fails.any (fun f => decide (f.1 < a + len) && decide (a < f.1 + f.2)) then ({ x with code := 2 }, []) else (x, x.s.hostBytes a len)
  | .fabric a =>
    match d.remote with
    | some r => (x, (List.range len).map (fun i => SMap.get (fun _ => 0#8) r.got (a + i)))
    | none => ({ x with code := 2 }, [])
  | .halo _ _ => ({ x with code := 1 }, [])
  | .fail c => ({ x with code := c }, [])

/-- Write at a place (R117, R119, R120, R124 to R126); bytes for other devices are gathered. -/
def Xfer.write (x : Xfer) (m : Nat) (d : MoverDesc) (p : Place) (bs : List Byte) : Xfer :=
  match p with
  | .slice n off =>
    if !(x.s.reaches m n || d.issuer == .rulebook) then { x with code := 2 }
    else if !(x.s.banksOn n off bs.length || d.banks.contains (n * 32 + bankOf off)) then { x with code := 7 }
    else if n != m && d.issuer != .rulebook && !x.s.windowOpen n m off (off + bs.length) then { x with s := x.s.refuseWindow, code := 3 }
    else { x with s := x.s.writeSlice n off bs, code := if x.s.banksInit n off bs.length then 0 else 7, wrote := true }
  | .dram a => match x.s.writeDram a bs with | (s, ok) => { x with s := s, code := if ok then 0 else 4, wrote := true }
  | .host a => { x with s := x.s.putHost a bs }
  | .fabric a => { x with out := putBytes' x.out a bs }
  | .halo _ a => { x with out := putBytes' x.out a bs }
  | .fail c => { x with code := c }
where
  /-- Gather bytes by address. -/
  putBytes' : SMap Byte → Nat → List Byte → SMap Byte
    | m, _, [] => m
    | m, a, b :: bs => putBytes' (SMap.insert (SMap.erase m a) a b) (a + 1) bs

/-- A write that is made, or discarded because its slot is another reservation's (R135). -/
def Xfer.put (x : Xfer) (m : Nat) (d : MoverDesc) (discard : Bool) (p : Place) (bs : List Byte) : Xfer :=
  if discard then { x with wrote := true } else x.write m d p bs

/-- Elements packed at a width. -/
def packBits (b : Nat) : List Nat → Nat
  | [] => 0
  | c :: r => c % 2 ^ b + packBits b r * 2 ^ b
/-- Convert the bytes of `n` elements (R131). -/
def convertBytes (ws : List Nat) (n : Nat) (bs : List Byte) : List Byte :=
  if mSrcType ws = mDstType ws then bs
  else leBytes (n * mDstBits ws / 8) (packBits (mDstBits ws)
    ((List.range n).map (fun e => convertElem (typeOf (mSrcType ws)) (typeOf (mDstType ws)) (elemAt (mSrcType ws) bs e))))

/-- Offsets of run `j` (R130): i1 fastest, i3 slowest. -/
def runOffset (ws : List Nat) (i base j : Nat) : Int :=
  (base : Int) + ((j % mD1 ws : Nat) : Int) * mStride ws i + ((j / mD1 ws % mD2 ws : Nat) : Int) * mStride ws (i + 2) +
    ((j / mD1 ws / mD2 ws : Nat) : Int) * mStride ws (i + 4)
def runCount (ws : List Nat) : Nat := mD1 ws * mD2 ws * mD3 ws
/-- Elements of one read, of at most 128 bytes. -/
def readElems (ws : List Nat) : Nat := max 1 (1024 / mSrcBits ws)

/-- One read of a run, from element `e` on, and its write. `discard` drops the writes (a stale destination reserved again). -/
def xferChunk (m : Nat) (d : MoverDesc) (src dst : MSide) (discard : Bool) (so dsto : Int) (e : Nat) (x : Xfer) : Xfer :=
  if x.code ≠ 0 then x
  else
    let n := min (readElems d.words) (mD0 d.words - e)
    let sl := n * mSrcBits d.words / 8
    let dl := n * mDstBits d.words / 8
    match x.read m d (x.s.locate d.task src (so + (e * mSrcBits d.words / 8 : Nat)) sl false) sl with
    | (x, bs) =>
      if x.code ≠ 0 then x
      else
        let o := convertBytes d.words n bs
        let x := { x with src := x.src ++ bs, dst := x.dst ++ o }
        if dst == .link then x
        else x.put m d discard (x.s.locate d.task dst (dsto + (e * mDstBits d.words / 8 : Nat)) dl true) o
def xferRun (m : Nat) (d : MoverDesc) (src dst : MSide) (discard : Bool) (j : Nat) : Nat → Xfer → Xfer
  | 0, x => x
  | c + 1, x =>
    xferChunk m d src dst discard (runOffset d.words 8 (mSrcAddr d.words) j) (runOffset d.words 9 (mDstAddr d.words) j)
      (c * readElems d.words) (xferRun m d src dst discard j c x)
def xferRuns (m : Nat) (d : MoverDesc) (src dst : MSide) (discard : Bool) : Nat → Xfer → Xfer
  | 0, x => x
  | j + 1, x =>
    xferRun m d src dst discard j (ceilDiv (mD0 d.words) (readElems d.words)) (xferRuns m d src dst discard j x)

/-- CRC append, or check and strip (R132). -/
def xferCrc (m : Nat) (d : MoverDesc) (src dst : MSide) (discard : Bool) (x : Xfer) : Xfer :=
  let last := runCount d.words - 1
  if x.code ≠ 0 then x
  else if mCrc d.words = 1 then
    x.put m d discard (x.s.locate d.task dst (runOffset d.words 9 (mDstAddr d.words) last + mDstRun d.words) 4 true) (leBytes 4 (crc32c x.dst))
  else if mCrc d.words = 2 then
    match x.read m d (x.s.locate d.task src (runOffset d.words 8 (mSrcAddr d.words) last + mSrcRun d.words) 4 false) 4 with
    | (x, bs) => if x.code ≠ 0 then x else if leNat bs = crc32c x.src then x else { x with code := 5 }
  else x

/-- A fill of wide rows (R116); one that covers a whole uninitialised bank initialises it (R126). -/
def fillRow (m : Nat) (d : MoverDesc) (dst : MSide) (discard : Bool) (r : Nat) (x : Xfer) : Xfer :=
  if x.code ≠ 0 then x
  else x.put m d discard (x.s.locate d.task dst (mDstAddr d.words + 512 * r : Nat) 512 true)
    ((List.replicate 128 (leBytes 4 (dword d.words 14))).flatten)
def fillRows (m : Nat) (d : MoverDesc) (dst : MSide) (discard : Bool) : Nat → Xfer → Xfer
  | 0, x => x
  | r + 1, x => fillRow m d dst discard r (fillRows m d dst discard r x)
/-- Mark the banks a fill covers whole as initialised. -/
def initBanks (n off len : Nat) : Nat → State → State
  | 0, s => s
  | b + 1, s =>
    let s := initBanks n off len b s
    if off ≤ b * 0x20000 ∧ (b + 1) * 0x20000 ≤ off + len ∧ s.bankOn n b then
      s.setF (F.SPAD_n_BANK_INIT n) (s.getF (F.SPAD_n_BANK_INIT n) ||| 2 ^ b)
    else s

/-- A copy within a slice: rows in order, two cycles each (R116). -/
def copyRow (m : Nat) (d : MoverDesc) (src dst : MSide) (discard : Bool) (r : Nat) (x : Xfer) : Xfer :=
  if x.code ≠ 0 then x
  else match x.read m d (x.s.locate d.task src (mSrcAddr d.words + 512 * r : Nat) 512 false) 512 with
    | (x, bs) =>
      if x.code ≠ 0 then x
      else x.put m d discard (x.s.locate d.task dst (mDstAddr d.words + 512 * r : Nat) 512 true) bs
def copyRows (m : Nat) (d : MoverDesc) (src dst : MSide) (discard : Bool) : Nat → Xfer → Xfer
  | 0, x => x
  | r + 1, x => copyRow m d src dst discard r (copyRows m d src dst discard r x)

/-- The destination reservation is stale, and its slot has been reserved again: writes are discarded (R135). -/
def State.staleDst (s : State) (d : MoverDesc) : Bool :=
  match d.dst with | some h => !s.handleCurrent h | none => false
def State.discards (s : State) (d : MoverDesc) : Bool :=
  match d.dst with
  | some h => s.reservedAgain (handleRing h) (handleSlot h) (handleGen h)
  | none => false

/-- A fill of wide rows. The banks that it covers whole take its writes, and are initialised once it has completed (R126). -/
def State.fill (s : State) (m : Nat) (d : MoverDesc) (dst : MSide) (discard : Bool) : Xfer :=
  match s.sideSlice d.task dst, s.locate d.task dst (mDstAddr d.words : Nat) (512 * mD0 d.words) true with
  | some n, .slice _ off =>
    let x := fillRows m d dst discard (mD0 d.words) { s := initBanks n off (512 * mD0 d.words) 32 s }
    if x.code ≠ 0 || discard then { x with s := x.s.setF (F.SPAD_n_BANK_INIT n) (s.getF (F.SPAD_n_BANK_INIT n)) } else x
  | _, _ => fillRows m d dst discard (mD0 d.words) { s := s }
/-- The runs of a link-in descriptor: the words of its line in traversal order (R130). -/
def linkRuns (m : Nat) (d : MoverDesc) (dst : MSide) (discard : Bool) (got : SMap Byte) : Nat → Xfer → Xfer
  | 0, x => x
  | j + 1, x =>
    let x := linkRuns m d dst discard got j x
    if x.code ≠ 0 then x
    else
      let n := 8 * mD0 d.words
      x.put m d discard (x.s.locate d.task dst (runOffset d.words 9 (mDstAddr d.words) j) n true) ((List.range n).map (fun i => SMap.get (fun _ => 0#8) got (j * n + i)))
/-- The whole data movement of a descriptor; `fails` are ranges of host memory whose reads fail. -/
def State.moveData (s : State) (m : Nat) (d : MoverDesc) (fails : List (Nat × Nat)) : Xfer :=
  let src := s.srcSide d
  let dst := s.dstSide d
  let discard := s.discards d
  match mKind d.words with
  | 0xE => s.fill m d dst discard
  | 0xF => copyRows m d src dst discard (mD0 d.words) { s := s }
  | 2 =>
    match d.remote with
    | some r => if !r.need.isEmpty || r.failed then { s := s } else linkRuns m d dst discard r.got (runCount d.words) { s := s }
    | none => { s := s }
  | _ => xferCrc m d src dst discard (xferRuns m d src dst discard (runCount d.words) { s := s, fails := fails })
/-- The data movement, with the first write that finds the reservation stale counted (R135). -/
def State.transfer (s : State) (m : Nat) (d : MoverDesc) (fails : List (Nat × Nat) := []) : Xfer :=
  let x := s.moveData m d fails
  match d.dst with
  | some h => if x.wrote && s.staleDst d then { x with s := x.s.noteStale h } else x
  | none => x

/-! ### Completion -/

/-- A batch task fails for a cause of R256 outside its vector code: it stops and ends FAULTED. -/
def State.failTask (s : State) (slot code unit info : Nat) : State :=
  if slot = 0 ∨ s.taskState slot < 2 ∨ 7 < s.taskState slot then s
  else
    let n := s.taskCore slot
    let v := s.vcore n
    let s := if v.batchTask = slot then s.setVcore n { v with batchRun := false, batchFault := true } else s
    s.faultTask slot code unit info

/-- Release the slot of a handle if it is its ring's head (R135). -/
def State.releaseHandle (s : State) (h : Nat) : State :=
  if s.handleCurrent h && handleSlot h == s.ringHead (handleRing h) then s.release (handleRing h) else s

/-- A descriptor or chain that a core's batch context started has failed: MVWAIT reports the first in issue order (R205). -/
def State.noteMvFail (s : State) (n seq code : Nat) : State :=
  let y := s.yctx n .batch
  s.setYctx n .batch { y with mvFails := y.mvFails ++ [(seq, code)] }

/-- Stage `i` of chain `id` has handled its handle with a code; a failure ends the chain (R138, R205). -/
def State.stageDone (s : State) (id i code : Nat) : State :=
  match s.tcc.chains.find? (fun c => c.id == id) with
  | none => s
  | some c =>
    let stages := c.stages.mapIdx (fun k g => if k = i then { g with left := g.left - 1, busy := false } else g)
    let rest := s.tcc.chains.filter (fun x => x.id != id)
    if code ≠ 0 then
      let s := { s with tcc := { s.tcc with chains := rest } }
      match c.core with
      | some n => s.noteMvFail n c.seq code
      | none => s
    else if stages.all (fun g => g.left == 0) then { s with tcc := { s.tcc with chains := rest } }
    else { s with tcc := { s.tcc with chains := s.tcc.chains.map (fun x => if x.id = id then { c with stages := stages } else x) } }

/-- The queue a chain stage pushes to, unless it is the last. -/
def State.stageOut (s : State) (ch : Option (Nat × Nat)) : Option Nat :=
  match ch with
  | none => none
  | some (id, i) =>
    match s.tcc.chains.find? (fun c => c.id == id) with
    | none => none
    | some c => match c.stages[i]? with
      | some g => if g.last then none else some g.outQ
      | none => none

/-- The queues the completion of a descriptor pushes to. -/
def State.pushesTo (s : State) (d : MoverDesc) : Option Nat :=
  match d.chain with
  | some c => s.stageOut (some c)
  | none => if mDone d.words = 2 then some (mHq d.words) else none
/-- The completion must push to a full queue: it waits (R137). -/
def State.pushWaits (s : State) (q : Option Nat) : Bool :=
  match q with | some q => decide (64 ≤ (s.hqOf q).length) | none => false

/-- A failed descriptor is latched in MOV_n_ERR if nothing is, and recorded (R133). -/
def State.latchMover (s : State) (m : Nat) (d : MoverDesc) (code : Nat) : State :=
  let s := if s.flag (F.MOV_n_ERR_VALID m) then s
    else (((s.setF (F.MOV_n_ERR_VALID m) 1).setF (F.MOV_n_ERR_CLASS m) (mClass d.words)).setF (F.MOV_n_ERR_TASK m) d.task).setF
      (F.MOV_n_ERR_CODE m) code
  s.record 0x07 code m

/-- Set the destination slot ready and push its handle, as the descriptor or its chain stage asks (R128, R138, R474). -/
def State.doneAction (s : State) (d : MoverDesc) : State :=
  match d.dst with
  | none => s
  | some h =>
    if mDone d.words = 0 ∧ (s.stageOut d.chain).isNone then s
    else if s.handleCurrent h then
      let s := s.setReady h
      match s.pushesTo d with
      | some q => (s.pushHandle q h).getD s
      | none => s
    else s.noteStale h

/-- A DESCRIPTOR COMPLETES with a code (R133, R474): source slot released, DONE and TALLY applied on success, failure
latched and recorded; issuer, chain and task are told. `landed` is false when its data did not arrive (link in). -/
def State.finishDesc (s : State) (m : Nat) (d : MoverDesc) (code : Nat) (landed : Bool := true) : State :=
  let s := match d.src with | some h => s.releaseHandle h | none => s
  let s :=
    if code ≠ 0 then (s.noteAdaptFail d).latchMover m d code
    else if !landed then s
    else
      let s := s.doneAction d
      if dflag d.words 15 31 then
        let t := dbits d.words 15 29 24
        s.setF (F.QUE_TALLY_i_VALUE t) (s.getF (F.QUE_TALLY_i_VALUE t) + 1)
      else s
  let s := match d.chain with | some (id, i) => s.stageDone id i code | none => s
  let s := match d.issuer with
    | .core n => if code = 0 || d.chain.isSome then s else s.noteMvFail n d.seq code
    | _ => s
  let s := if code ≠ 0 ∧ code ≠ 8 ∧ d.issuer ≠ .moveList then s.failTask d.task 3 (0x18 + m) code else s
  s.tryFinish d.task

/-! ### Queues (R127, R141) -/

/-- A mover's queue has no entry for an issuer other than the move list: it is full, or, while a bundle is started, 48 of its entries are
taken by such issuers and the other 16 are held (R127). -/
def State.moverFull (s : State) (m : Nat) : Bool :=
  let q := (s.mover m).queue
  decide (64 ≤ q.length) || (s.seq.started && decide (48 ≤ (q.filter (fun d => d.issuer != .moveList)).length))
/-- PLACE A DESCRIPTOR in a mover's queue; one with a destination ring reserves its slot now (R474). -/
def State.queueDesc (s : State) (m : Nat) (d : MoverDesc) : State :=
  let r := mDstRingNo d.words
  match (if mDstRing d.words && d.dst.isNone && d.code == 0 && mKind d.words != 1 && s.ownsRing d.task r then s.reserve r else none) with
  | some (h, s) => s.setMover m { s.mover m with queue := (s.mover m).queue ++ [{ d with dst := some h }] }
  | none => s.setMover m { s.mover m with queue := (s.mover m).queue ++ [d] }

/-- Tokens a descriptor's reads and writes cost: 64 bytes each, both sides, the access of a CRC with them; none for the in-slice kinds
(R116, R132, R141). -/
def tokenCost (ws : List Nat) : Nat :=
  if mRows ws then 0 else runCount ws * (ceilDiv (mSrcRun ws) 64 + ceilDiv (mDstRun ws) 64) + (if mCrc ws = 0 then 0 else 1)
/-- Tokens of its first request, of at most 128 bytes (R127). -/
def firstCost (ws : List Nat) : Nat := if mRows ws then 0 else ceilDiv (min 128 (mSrcRun ws)) 64
def State.tokens (s : State) (m c : Nat) : Nat := SMap.get (fun _ => 0) s.bwr.tokens (m * 8 + c)
def State.setTokens (s : State) (m c v : Nat) : State :=
  { s with bwr := { tokens := SMap.set (fun _ => 0) s.bwr.tokens (m * 8 + c) v } }
/-- The bucket lets the descriptor start: it is not enforced, or holds the tokens of the first request while no descriptor of the class
that started before still waits for tokens. -/
def State.bucketOk (s : State) (m : Nat) (d : MoverDesc) : Bool :=
  let c := mClass d.words
  s.flag (F.BWR_n_c_UNLIM m c) ||
    (decide (firstCost d.words ≤ s.tokens m c) && !(s.mover m).busy.any (fun x => servedClass x == c && x.owed != 0))

/-- The source ring's head for a descriptor that consumes it, when it may start (R474). -/
def State.readySource (s : State) (d : MoverDesc) : Bool :=
  d.src.isSome || !mSrcRing d.words || mKind d.words == 0xE || mKind d.words == 2 || !s.ownsRing d.task (mSrcRingNo d.words) ||
    s.headReady (mSrcRingNo d.words)
/-- The destination ring has a slot for a descriptor that has not yet reserved one (R135). -/
def State.freeDest (s : State) (d : MoverDesc) : Bool :=
  d.dst.isSome || !mDstRing d.words || mKind d.words == 1 || !s.ownsRing d.task (mDstRingNo d.words) ||
    decide (s.ringUsed (mDstRingNo d.words) < s.ringSlots (mDstRingNo d.words))
/-- A descriptor may start. -/
def State.startable (s : State) (m : Nat) (d : MoverDesc) : Bool :=
  d.code != 0 || (s.readySource d && (mStatic d.words d.link || (s.freeDest d && s.bucketOk m d)))

/-- The next descriptor of a class, if it may start (classes start in queue order). -/
def State.headOf (s : State) (m c : Nat) : Option MoverDesc :=
  match (s.mover m).queue.find? (fun d => servedClass d == c) with
  | some d => if s.startable m d then some d else none
  | none => none
/-- Weighted round robin 1 : 2 : 1 over ADAPT, BATCH, HOST (R127). -/
def wrrClass (i : Nat) : Nat := if i % 4 = 0 then 2 else if i % 4 = 3 then 4 else 3
/-- The first class of the round robin from position i on whose head may start, with the next position. -/
def State.wrrPick (s : State) (m i : Nat) : Nat → Option (MoverDesc × Nat)
  | 0 => none
  | k + 1 => match s.headOf m (wrrClass i) with
    | some d => some (d, (i + 1) % 4)
    | none => State.wrrPick s m (i + 1) k
/-- Service order: RASTER, HALO, then the round robin. -/
def State.pickDesc (s : State) (m : Nat) : Option (MoverDesc × Nat) :=
  match s.headOf m 0 with
  | some d => some (d, (s.mover m).wrr)
  | none => match s.headOf m 1 with
    | some d => some (d, (s.mover m).wrr)
    | none => s.wrrPick m (s.mover m).wrr 4

/-- Banks a slice destination touches. -/
def State.dstBanks (s : State) (d : MoverDesc) : List Nat :=
  match s.dstSide d with
  | .region r =>
    let g := s.spadRegion d.task r
    let y := sideSpan d.words 9 ((g.base + mDstAddr d.words : Nat) : Int) (mDstRun d.words)
    (List.range 32).filterMap (fun b => if ((b * 0x20000 : Nat) : Int) < y.2 ∧ y.1 < (((b + 1) * 0x20000 : Nat) : Int) ∧ s.bankOn g.slice b = true then some (g.slice * 32 + b) else none)
  | .slot n base size =>
    (List.range 32).filterMap (fun b => if b * 0x20000 < base + size ∧ base < (b + 1) * 0x20000 ∧ s.bankOn n b = true then some (n * 32 + b) else none)
  | _ => []
def bumpInflight (up : Bool) : List Nat → State → State
  | [], s => s
  | b :: r, s =>
    let v := SMap.get (fun _ => 0) s.spad.inflight b
    bumpInflight up r { s with spad := { s.spad with inflight := SMap.set (fun _ => 0) s.spad.inflight b (if up then v + 1 else v - 1) } }

/-- 64-byte blocks of gathered remote bytes: some block is covered only in part. -/
def partialBlocks (out : SMap Byte) : Bool :=
  out.any (fun c => (out.filter (fun e => e.1 / 64 == c.1 / 64)).length != 64)
/-- The blocks' first addresses, ascending. -/
def blocksOf (out : SMap Byte) : List Nat := (out.filter (fun c => c.1 % 64 == 0)).map (fun c => c.1)
def blockBytes (out : SMap Byte) (a : Nat) : List Byte := (List.range 64).map (fun i => SMap.get (fun _ => 0#8) out (a + i))

/-- Send write flits for gathered blocks to a device's window; the last asks for an acknowledgement (R344). -/
def sendWrites (out : SMap Byte) : List Nat → State → State
  | [], s => s
  | a :: r, s =>
    sendWrites out r (s.sendFlit (s.ownFlit 4 0x18 (windowX a) (windowY a)
      (windowOffset a / 64 + (if r.isEmpty then 2 ^ 22 else 0)) (blockBytes out a)))
/-- Send halo flits to a port's neighbour, or discard and count them at an edge or a port that is down (R345). -/
def sendHalos (p : Nat) (out : SMap Byte) : List Nat → State → State
  | [], s => s
  | a :: r, s =>
    sendHalos p out r
      (if s.portOpen p then
        s.queueFlit p (s.ownFlit 1 0x04 (s.getF (F.FAB_Pp_STATUS_PEER_X p)) (s.getF (F.FAB_Pp_STATUS_PEER_Y p))
          (bitsOf a 25 22 * 2 ^ 21 + bitsOf a 21 6 * 2 ^ 5) (blockBytes out a))
      else s.dropFlit)

/-- Blocks of a remote source that the descriptor reads. -/
def remoteBlocks (s : State) (d : MoverDesc) (src : MSide) : List Nat :=
  let runs := (List.range (runCount d.words)).map (fun j =>
    match s.locate d.task src (runOffset d.words 8 (mSrcAddr d.words) j) (mSrcRun d.words) false with
    | .fabric a => (List.range (ceilDiv (a % 64 + mSrcRun d.words) 64)).map (fun k => a / 64 * 64 + 64 * k)
    | _ => [])
  (runs.flatten ++ (if mCrc d.words = 2 then
    match s.locate d.task src (runOffset d.words 8 (mSrcAddr d.words) (runCount d.words - 1) + mSrcRun d.words) 4 false with
    | .fabric a => [a / 64 * 64]
    | _ => [] else [])).eraseDups
/-- Send one read request a block (R344). -/
def sendReads : List Nat → State → State
  | [], s => s
  | a :: r, s => sendReads r (s.sendFlit (s.ownFlit 4 0x19 (windowX a) (windowY a) (windowOffset a / 64) (leBytes 64 1)))

/-- Reads of a mover whose data have not arrived: those of `p`'s classes (R127). -/
def readsOut (p : Nat → Bool) (busy : List MoverDesc) : Nat :=
  busy.foldl (fun n d => match d.remote with
    | some r => if p (servedClass d) && !r.failed then n + (r.need.length - r.later.length) else n
    | none => n) 0
/-- Reads a mover may yet send for a class: 1,024 in all, of which 256 are held for RASTER and HALO. -/
def State.readRoom (s : State) (m cls : Nat) : Nat :=
  let b := (s.mover m).busy
  let all := 1024 - readsOut (fun _ => true) b
  if cls < 2 then all else min all (768 - readsOut (fun c => decide (2 ≤ c)) b)
/-- A read has been answered: the next that waits is sent, of the oldest descriptor that has one. -/
def sendLater (m : Nat) : List MoverDesc → List MoverDesc → State → State
  | _, [], s => s
  | front, d :: r, s =>
    match d.remote with
    | some x =>
      match x.later with
      | a :: l =>
        if x.failed || s.readRoom m (servedClass d) == 0 then sendLater m (front ++ [d]) r s
        else sendReads [a] (s.setMover m { s.mover m with busy := front ++ { d with remote := some { x with later := l } } :: r })
      | [] => sendLater m (front ++ [d]) r s
    | none => sendLater m (front ++ [d]) r s
/-- A side that reaches another device's window (its first byte tells). -/
def State.remoteSide (s : State) (d : MoverDesc) (side : MSide) (addr : Nat) (write : Bool) : Option Nat :=
  match s.locate d.task side (addr : Nat) 1 write with
  | .fabric a => some (windowY a * 64 + windowX a)
  | _ => none

/-- The captured input line of a link-in descriptor, as triple words, if the bound frame holds it (R223). -/
def State.capturedLine (s : State) (n line words : Nat) : Option (List Byte) :=
  match s.seq.binds.find? (fun b => b.stream == n) with
  | none => none
  | some b =>
    match (s.strm n).frame? b.frame with
    | none => none
    | some f =>
      if f.lines.contains line then
        let fmt := s.getF (F.STR_n_FRM_CFG_FMT n)
        let px := linePixels fmt (s.strW n) (s.memBytes (s.frameLine n f.buf line) (s.strW n * pixelBytes fmt))
        some (packElems 8 ((px.take words).map tripleWord))
      else none

/-- THE START of a descriptor: it leaves the queue; its code is decided, its source slot fixed, its writes counted in
flight toward their banks, its tokens taken, and remote requests sent. -/
def State.startDesc (s : State) (m : Nat) (d : MoverDesc) (fails : List (Nat × Nat)) : State :=
  let d := if d.src.isNone && d.chain.isNone && mSrcRing d.words && mKind d.words != 0xE && mKind d.words != 2 && s.ownsRing d.task (mSrcRingNo d.words)
    then { d with src := some (s.makeHandle (mSrcRingNo d.words) (s.ringHead (mSrcRingNo d.words))) } else d
  let (d, s) := match (if mDstRing d.words && d.dst.isNone && d.code == 0 && !mStatic d.words d.link && mKind d.words != 1 &&
        s.ownsRing d.task (mDstRingNo d.words) then s.reserve (mDstRingNo d.words) else none) with
    | some (h, s) => ({ d with dst := some h }, s)
    | none => (d, s)
  let code := s.startCode m d
  let pays := code == 0 && !s.flag (F.BWR_n_c_UNLIM m (mClass d.words))
  let have_ := s.tokens m (mClass d.words)
  let d := { d with code := code, banks := if code = 0 then s.dstBanks d else [], owed := if pays then tokenCost d.words - have_ else 0 }
  let s := bumpInflight true d.banks s
  let s := if pays then s.setTokens m (mClass d.words) (have_ - tokenCost d.words) else s
  let (d, s) : MoverDesc × State :=
    if code ≠ 0 then (d, s)
    else if mKind d.words = 2 then
      let v := dword d.words 14
      match s.capturedLine (bitsOf v 31 26) (bitsOf v 13 0) (mD0 d.words * runCount d.words) with
      | some bs => ({ d with remote := some { need := [0] } }, s.toTensor (.linkIn m bs) bs.length)
      | none => (d, s)
    else match s.remoteSide d (s.srcSide d) (mSrcAddr d.words) false with
      | some dev =>
        let l := remoteBlocks s d (s.srcSide d)
        let k := s.readRoom m (servedClass d)
        ({ d with remote := some { dev := dev, need := l, later := l.drop k } }, sendReads (l.take k) s)
      | none => match s.remoteSide d (s.dstSide d) (mDstAddr d.words) true with
        | some dev =>
          let x := s.transfer m d fails
          if x.code ≠ 0 then ({ d with code := x.code }, x.s)
          else if partialBlocks x.out then ({ d with code := 1 }, x.s)
          else ({ d with remote := some { dev := dev, ack := true } }, sendWrites x.out (blocksOf x.out) x.s)
        | none => (d, s)
  s.setMover m { s.mover m with busy := (s.mover m).busy ++ [d] }

/-- MOVER_DESCRIPTOR_START: the next queued descriptor in service order starts; `fails` are ranges of host memory whose reads fail
(R367). -/
def execMoverDescriptorStart (m : Nat) (fails : List (Nat × Nat)) (s : State) : Host.Outcome State Fault Refusal :=
  .next (match s.pickDesc m with
    | none => s
    | some (d, wrr) =>
      let q := (s.mover m).queue
      (s.setMover m { s.mover m with queue := q.erase d, wrr := wrr }).startDesc m d fails)

/-- The end of a started descriptor: the transfer, link out's line, halo flits, and completion. -/
def State.completeDesc (s : State) (m : Nat) (d : MoverDesc) (fails : List (Nat × Nat)) : State :=
  let s := s.setMover m { s.mover m with busy := (s.mover m).busy.erase d }
  let s := bumpInflight false d.banks s
  if d.code ≠ 0 then s.finishDesc m d d.code
  else match d.remote with
    | some r =>
      if r.failed ∧ mKind d.words ≠ 2 then s.finishDesc m d 2
      else if mKind d.words ≠ 2 ∧ r.need.isEmpty ∧ r.got.isEmpty then s.finishDesc m d 0
      else let x := s.transfer m d fails; x.s.finishDesc m d x.code (!(mKind d.words == 2 && (r.failed || !r.need.isEmpty)))
    | none =>
      if mKind d.words = 2 then s.finishDesc m d 0 false
      else
        let x := s.transfer m d fails
        if x.code ≠ 0 then x.s.finishDesc m d x.code
        else if mKind d.words = 1 then
          (x.s.toRaster (.tensorLine d.round (dbits d.words 14 31 26) d.line (wordsOf8 x.dst)) x.dst.length).finishDesc m d 0
        else match s.dstSide d with
          | .halo p =>
            if partialBlocks x.out then x.s.finishDesc m d 1
            else (sendHalos p x.out (blocksOf x.out) x.s).finishDesc m d 0
          | _ => x.s.finishDesc m d 0
where
  /-- The 64-bit words of a line. -/
  wordsOf8 (bs : List Byte) : List Nat := (List.range (bs.length / 8)).map (fun i => leNat ((bs.drop (8 * i)).take 8))

/-- A started descriptor whose remote data or acknowledgement is outstanding is not complete. -/
def MoverDesc.outstanding (d : MoverDesc) : Bool :=
  match d.remote with
  | some r => (r.ack || !r.need.isEmpty) && !r.failed
  | none => false
/-- A started descriptor still waits for tokens (R141). -/
def State.owes (s : State) (m : Nat) (d : MoverDesc) : Bool := d.owed != 0 && !s.flag (F.BWR_n_c_UNLIM m (mClass d.words))
/-- A side of a descriptor whose span in DRAM touches a channel that retrains: its requests wait (R152). -/
def State.sideWaits (s : State) (d : MoverDesc) (side : MSide) (i addr run : Nat) : Bool :=
  match s.sideBase d.task side with
  | some a =>
    let x := sideSpan d.words i (a + addr : Nat) run
    decide (x.1.toNat < s.dramEnd) && s.stripesWait x.1.toNat (min (x.2 - x.1).toNat (s.dramEnd - x.1.toNat))
  | none => false
def State.retrains (s : State) (d : MoverDesc) : Bool :=
  d.code == 0 && d.remote.isNone && (s.sideWaits d (s.srcSide d) 8 (mSrcAddr d.words) (mSrcRun d.words) || s.sideWaits d (s.dstSide d) 9 (mDstAddr d.words) (mDstRun d.words))

/-- MOVER_DESCRIPTOR_COMPLETE: the oldest started descriptor of a class completes (R127, R133); `fails` are ranges of host memory whose
reads fail (R367). -/
def execMoverDescriptorComplete (m cls : Nat) (upsets : List (Nat × Bool)) (fails : List (Nat × Nat)) (s : State) : Host.Outcome State Fault Refusal :=
  let s := s.strike upsets
  .next (match (s.mover m).busy.find? (fun d => servedClass d == cls) with
    | none => s
    | some d => if d.outstanding || s.owes m d || s.retrains d || (d.code == 0 && s.pushWaits (s.pushesTo d)) then s else s.completeDesc m d fails)

/-- Pay tokens toward the requests that wait for them, in order: what is left, and the descriptors after it. -/
def payOwed (c : Nat) : Nat → List MoverDesc → Nat × List MoverDesc
  | t, [] => (t, [])
  | t, d :: r =>
    let p := if servedClass d = c then min t d.owed else 0
    let x := payOwed c (t - p) r
    (x.1, { d with owed := d.owed - p } :: x.2)
/-- Refill of one bucket (R141): the tokens go to requests that wait for them. -/
def refillOne (m c : Nat) (s : State) : State :=
  let t := min (s.tokens m c + s.getF (F.BWR_n_c_RATE m c)) (s.getF (F.BWR_n_c_DEPTH m c))
  if (s.mover m).busy.any (fun d => servedClass d == c && d.owed != 0) then
    let x := payOwed c t (s.mover m).busy
    (s.setMover m { s.mover m with busy := x.2 }).setTokens m c x.1
  else s.setTokens m c t
def refill : Nat → State → State
  | 0, s => s
  | i + 1, s => refillOne (i / 5) (i % 5) (refill i s)
/-- REGULATOR_REFILL: every bucket gains RATE tokens, up to DEPTH. -/
def execRegulatorRefill (s : State) : Host.Outcome State Fault Refusal := .next (refill 80 s)

end Sys2Proof.Machine
end

