-- ==== Sys2Proof/Machine/QueueOps.lean ====
section
/-! DEFINITION. Grid commands but GCMD itself, mover, ring, queue and tally instructions (R204 to R208), the end of a pass (R101) and the
stages of a chain (R138). -/

namespace Sys2Proof.Machine

/-! ### Grid commands (R204) -/

/-- The unit offset of a grid command. -/
def unitOf (w : YWord) : Nat := w.b.toNat
/-- Passes a unit holds, admitted or not. -/
def GridUnit.load (g : GridUnit) : Nat := g.passes.length + g.waiting.length
/-- A batch pass is not admitted at once while move-list passes issue (R104). -/
def State.lineGrid (s : State) : Bool := s.seq.started && !s.tt.isRepeat

/-- A batch descriptor refused because its rows lie outside ACC faults its task with code 5 and the row (R239, R256, log 211). -/
def State.rowsFault (s : State) (u : Nat) (ws : List Nat) (is : Issuer) (task code : Nat) : State :=
  if code = 5 ∧ s.rowsOutside u ws is task = true then s.failTask task 5 (0x10 + u) (gAccRow ws) else s
/-- Issue a grid descriptor from the batch context: it waits for a place; the descriptor is read, then refused or placed. -/
def gcmdEff (k : Issue) (w : YWord) (s : State) : YEffect :=
  if !regionOk w ∨ 4 < unitOf w then .fault s 1 0
  else
    let task := s.ctxTask k.core k.ctx
    let o := taskOffset s k w
    match s.checkTask k.core task w.c.toNat o 64 64 false with
    | .ok n off =>
      if 2 ≤ (s.gridUnit (unitOf w)).load then .stall s
      else
        match s.readDescriptor n off with
        | (s, ws, bad) =>
          if bad then .fault s 3 o
          else
            let act := slAddr (dword ws 1)
            let drain := slAddr (dword ws 10)
            let code := s.gridRefusal (unitOf w) ws act drain (.core k.core) task
            if code ≠ 0 then
              .fault ((s.refusePass (unitOf w) code (.core k.core) (sliceAddr n off)).rowsFault (unitOf w) ws (.core k.core) task code) 4 code
            else .done (s.placePass { unit := unitOf w, words := ws, issuer := .core k.core, task := task, descAddr := sliceAddr n off,
                                      act := act, drain := drain } (!s.lineGrid))
    | .refused => accessFault s false o
    | .window => accessFault s true o
/-- The context has passes on a unit. -/
def State.corePasses (s : State) (core u : Nat) : Bool :=
  let g := s.gridUnit u
  (g.passes ++ g.waiting).any (fun p => p.issuer == .core core)
/-- Wait for the context's passes on a unit; then a pass that met uncorrectable data raises the data-error fault (R439). -/
def execGwait (k : Issue) (w : YWord) (s : State) :=
  yubenOut k w { useB := true, lineOk := false } (fun _ s =>
    if 4 < unitOf w then .fault s 1 0
    else if s.corePasses k.core (unitOf w) then .stall s
    else if (s.yctx k.core k.ctx).dataErr then .fault (s.setYctx k.core k.ctx { s.yctx k.core k.ctx with dataErr := false }) 3 (s.yctx k.core k.ctx).dataAt
    else .done s) s

/-! ### The end of a pass (R101, R138, R213) -/

/-- The task address offset of a device address: its offset in the scratchpad region of the task that holds it; 0 for one in none. -/
def State.taskOffsetOf (s : State) (task a : Nat) : Nat :=
  ((List.range 4).findSome? (fun r =>
    let g := s.spadRegion task r
    if sliceAddr g.slice g.base ≤ a ∧ a < sliceAddr g.slice g.bound then some (a - sliceAddr g.slice g.base) else none)).getD 0
/-- The offset of the first uncorrectable scratchpad word that a pass reads; 0 where its uncorrectable data are accumulator words (R180). -/
def State.passBadAt (s : State) (p : GridPass) : Nat :=
  match (passSpans p.words p.act p.drain (p.tile.map (fun t => t.shape))).find? (fun g =>
      !g.write && s.anyBad (firstWord (sliceAddr g.slice g.off)) (wordCount (sliceAddr g.slice g.off) g.len)) with
  | some g => s.taskOffsetOf p.task (s.firstBadWord (sliceAddr g.slice g.off) g.len)
  | none => 0
/-- A batch context's pass met uncorrectable data: kept for its next GWAIT or HALT, the first offset with it (R439). -/
def State.noteDataErr (s : State) (n off : Nat) : State :=
  let c := s.yctx n .batch
  if c.dataErr then s else s.setYctx n .batch { c with dataErr := true, dataAt := off }
/-- A pass has ended with uncorrectable data, at a task address offset: the consequence for its issuer (R107, R122, R271, R439). -/
def State.passFailed (s : State) (p : GridPass) (e : PassEnd) (off : Nat) : State :=
  if e.bad then
    match p.issuer with
    | .core n => s.noteDataErr n off
    | .moveList =>
      if s.isPair p.descAddr && (match p.tile with | some t => t.bad.any id | none => false) then
        { s with adapt := { s.adapt with rebuild := true } }
      else s
    | _ => s
  else s
/-- The output slot of a pass is set ready when every drained row is complete (R213); a chain stage is told (R138). -/
def State.passOutput (s : State) (p : GridPass) (e : PassEnd) : State :=
  let s := match p.src with | some h => s.releaseHandle h | none => s
  let s := match p.out with
    | some h => if e.complete then s.setReady h else s
    | none => s
  match p.chain with
  | none => s
  | some (id, i) =>
    let s := match p.out, s.stageOut (some (id, i)) with
      | some h, some q => if e.complete then (s.pushHandle q h).getD s else s
      | _, _ => s
    s.stageDone id i (if e.complete then 0 else 4)
/-- The queue a pass pushes to at its end, if it serves a chain. -/
def GridPass.pushes (s : State) (p : GridPass) : Option Nat := s.stageOut p.chain

/-! ### Movers and chains (R127, R138, R205) -/

/-- A descriptor at a task address: access check, then its words. -/
def descAt (k : Issue) (w : YWord) (s : State) (len align : Nat) (f : State → List Byte → Bool → YEffect) : YEffect :=
  if !regionOk w then .fault s 1 0
  else
    let o := taskOffset s k w
    match s.checkTask k.core (s.ctxTask k.core k.ctx) w.c.toNat o len align false with
    | .ok n off => match s.readSlice n off len with | (s, bs, bad) => f s bs bad
    | .refused => accessFault s false o
    | .window => accessFault s true o

/-- The next order number of what a context starts. -/
def State.takeSeq (s : State) (n : Nat) : Nat × State :=
  let y := s.yctx n .batch
  (y.mvSeq, s.setYctx n .batch { y with mvSeq := y.mvSeq + 1 })

/-- The reservation a descriptor makes at issue must wait: its ring is owned and has no free slot (R135, R474). -/
def State.reserveWaits (s : State) (task : Nat) (ws : List Nat) : Bool :=
  mDstRing ws && mKind ws != 1 && s.ownsRing task (mDstRingNo ws) && decide (s.ringSlots (mDstRingNo ws) ≤ s.ringUsed (mDstRingNo ws))

/-- MVQ. A descriptor whose read is uncorrectable completes with code 0x4. -/
def execMvq (k : Issue) (w : YWord) (s : State) :=
  yubenOut k w { useA := true, useC := true, useImm := true, reads := [rS w.a], lineOk := false }
    (fun _ s =>
      if s.moverFull k.core then .stall s
      else descAt k w s 64 64 (fun s bs bad =>
        let ws := wordsOf 16 bs
        let task := s.ctxTask k.core k.ctx
        if !bad && s.reserveWaits task ws then .stall s
        else match s.takeSeq k.core with
          | (q, s) => .done (s.queueDesc k.core { words := ws, issuer := .core k.core, task := task, seq := q, code := if bad then 4 else 0 }))) s

/-- One stage entry of a chain: words at offsets 0, 4, 8, 12. -/
def stageOf (count : Nat) (ws : List Nat) : ChainStage :=
  { unit := dbits ws 0 31 26, inQ := dbits ws 0 25 18, outQ := dbits ws 0 17 10, outRing := dbits ws 0 9 2, last := dflag ws 0 0,
    desc := dword ws 1, region := dbits ws 2 1 0, left := count }
/-- Reserved bits, or a unit that does not exist. -/
def stageBad (ws : List Nat) : Bool :=
  dflag ws 0 1 || dbits ws 2 31 2 != 0 || dword ws 3 != 0 ||
  !((decide (0x10 ≤ dbits ws 0 31 26) && decide (dbits ws 0 31 26 ≤ 0x14)) || (decide (0x18 ≤ dbits ws 0 31 26) && decide (dbits ws 0 31 26 ≤ 0x27)))
/-- The stage entries of a chain. -/
def stageWords : Nat → List Byte → List (List Nat)
  | 0, _ => []
  | n + 1, bs => wordsOf 4 (bs.take 16) :: stageWords n (bs.drop 16)
/-- START A CHAIN from its bytes: an ill-formed one fails with code 0x1, one whose stages have nothing to do is complete. -/
def State.startChain (s : State) (core : Option Nat) (task seq : Nat) (hdr : List Nat) (stages : List (List Nat)) : State :=
  let bad := dbits hdr 0 31 4 != 0 || dword hdr 2 != 0 || dword hdr 3 != 0 || dbits hdr 0 3 0 == 0 || decide (8 < dbits hdr 0 3 0) ||
    stages.any stageBad
  if bad then match core with | some n => s.noteMvFail n seq 1 | none => s
  else if dword hdr 1 = 0 then s
  else { s with tcc := { s.tcc with
    chains := s.tcc.chains ++ [⟨s.tcc.chainNext, core, task, seq, stages.map (stageOf (dword hdr 1))⟩],
    chainNext := s.tcc.chainNext + 1 } }
def execChain (k : Issue) (w : YWord) (s : State) :=
  yubenOut k w { useA := true, useC := true, useImm := true, reads := [rS w.a], lineOk := false }
    (fun _ s => descAt k w s 16 1 (fun s bs bad =>
      let hdr := wordsOf 4 bs
      let n := min (dbits hdr 0 3 0) 8
      let task := s.ctxTask k.core k.ctx
      if bad then .fault s 3 (taskOffset s k w)
      else descAt k w s (16 + 16 * n) 1 (fun s bs bad =>
        if bad then .fault s 3 (taskOffset s k w)
        else match s.takeSeq k.core with
          | (q, s) => .done (s.startChain (some k.core) task q hdr (stageWords n (bs.drop 16)))))) s

/-- The context's descriptors and chains are not all complete. -/
def State.coreMoves (s : State) (core : Nat) : Bool :=
  anyBelow (fun m => ((s.mover m).queue ++ (s.mover m).busy).any (fun d => d.issuer == .core core && d.chain.isNone)) 16 ||
  s.tcc.chains.any (fun c => c.core == some core)
/-- The code of the failed one that was issued first. -/
def firstFail : List (Nat × Nat) → Option (Nat × Nat)
  | [] => none
  | (q, c) :: r => match firstFail r with
    | some (q', c') => if q' < q then some (q', c') else some (q, c)
    | none => some (q, c)
def execMvwait (k : Issue) (w : YWord) (s : State) :=
  yubenOut k w { useD := true, writes := wS w.d, lineOk := false } (fun _ s =>
    if s.coreMoves k.core then .stall s
    else
      let y := s.yctx k.core k.ctx
      let code := match firstFail y.mvFails with | some (_, c) => c | none => 0
      .done ((s.setYctx k.core k.ctx { y with mvFails := [] }).sset k w.d (BitVec.ofNat 64 code))) s

/-! ### Rings (R135, R206) -/

/-- The ring or queue number of an instruction; bits 23:8 must be zero. -/
def numberOf (w : YWord) : Nat := w.uimm % 256
def numberOk (w : YWord) : Bool := w.uimm / 256 == 0
/-- An operation on a ring the context's task owns; the queue fault otherwise (R208). -/
def ringEff (k : Issue) (w : YWord) (s : State) (f : Nat → State → YEffect) : YEffect :=
  if !numberOk w then .fault s 1 0
  else if !s.ownsRing (s.ctxTask k.core k.ctx) (numberOf w) then .fault s 5 (numberOf w)
  else f (numberOf w) s
def word64 (n : Nat) : Word64 := BitVec.ofNat 64 n

def execRres (k : Issue) (w : YWord) (s : State) :=
  yubenOut k w { useD := true, useImm := true, writes := wS w.d, lat := 2 } (fun _ s => ringEff k w s (fun r s =>
    match s.reserve r with
    | some (h, s) => .done (s.sset k w.d (word64 h))
    | none => .stall s)) s
def execRchk (k : Issue) (w : YWord) (s : State) :=
  yubenOut k w { useD := true, useImm := true, writes := [rP w.d.toNat], lat := 2 } (fun _ s =>
    if !pdOk w.d then .fault s 1 0 else ringEff k w s (fun r s => .done (s.pset k w.d.toNat (predAll (s.headReady r))))) s
def execRhead (k : Issue) (w : YWord) (s : State) :=
  yubenOut k w { useD := true, useImm := true, writes := wS w.d, lat := 2 } (fun _ s => ringEff k w s (fun r s =>
    .done (s.sset k w.d (word64 (s.makeHandle r (s.ringHead r)))))) s
def execRrel (k : Issue) (w : YWord) (s : State) :=
  yubenOut k w { useImm := true } (fun _ s => ringEff k w s (fun r s =>
    if s.ringUsed r = 0 || !s.headReady r then .fault s 5 r else .done (s.release r))) s
def execRvoid (k : Issue) (w : YWord) (s : State) :=
  yubenOut k w { useImm := true } (fun _ s => ringEff k w s (fun r s => .done (s.release r))) s

/-- A handle in a scalar register. -/
def handleOf (s : State) (k : Issue) (r : BitVec 5) : Nat := (s.sget k r).toNat % 2 ^ 32
/-- In the line context the action goes to the commit list; beyond its 32 entries it is illegal (R159). -/
def commitEff (k : Issue) (s : State) (e : CommitEntry) : YEffect :=
  match s.commit k.core e with
  | some s => .done s
  | none => .fault s 1 0
def execRset (k : Issue) (w : YWord) (s : State) :=
  yubenOut k w { useA := true, reads := [rS w.a] } (fun _ s =>
    let h := handleOf s k w.a
    if !s.ownsRing (s.ctxTask k.core k.ctx) (handleRing h) || handleSlice h != s.ringSlice (handleRing h) then .fault s 5 h
    else match k.ctx with
      | .line => commitEff k s (.setReady h)
      | .batch => .done (s.setReady h)) s

/-! ### Handle queues and tally counters (R137, R139, R206) -/

/-- An operation on a queue the context's task owns; the queue fault otherwise. -/
def queueEff (k : Issue) (w : YWord) (s : State) (f : Nat → State → YEffect) : YEffect :=
  if !numberOk w then .fault s 1 0
  else if !s.ownsQueue (s.ctxTask k.core k.ctx) (numberOf w) then .fault s 5 (numberOf w)
  else f (numberOf w) s
def execHpush (k : Issue) (w : YWord) (s : State) :=
  yubenOut k w { useA := true, useImm := true, reads := [rS w.a] } (fun _ s => queueEff k w s (fun q s =>
    match k.ctx with
    | .line => commitEff k s (.push (handleOf s k w.a) q)
    | .batch => match s.pushHandle q (handleOf s k w.a) with
      | some s => .done s
      | none => .stall s)) s
def execHpop (k : Issue) (w : YWord) (s : State) :=
  yubenOut k w { useD := true, useImm := true, writes := wS w.d, lat := 2, lineOk := false } (fun _ s => queueEff k w s (fun q s =>
    match s.popHandle q with
    | some (h, s) => .done (s.sset k w.d (word64 h))
    | none => .stall s)) s
def execHpopt (k : Issue) (w : YWord) (s : State) :=
  yubenOut k w { useD := true, useImm := true, writes := wS w.d, lat := 2 } (fun _ s => queueEff k w s (fun q s =>
    match s.popHandle q with
    | some (h, s) => .done (s.sset k w.d (word64 h))
    | none => .done (s.sset k w.d (BitVec.allOnes 64)))) s
def execHcnt (k : Issue) (w : YWord) (s : State) :=
  yubenOut k w { useD := true, useImm := true, writes := wS w.d, lat := 2 } (fun _ s => queueEff k w s (fun q s =>
    .done (s.sset k w.d (word64 (s.hqOf q).length)))) s
/-! ### Chain stages (R138) -/

/-- Replace one stage of a chain. -/
def State.setStage (s : State) (id i : Nat) (f : ChainStage → ChainStage) : State :=
  { s with tcc := { s.tcc with chains := s.tcc.chains.map (fun c =>
    if c.id = id then { c with stages := c.stages.mapIdx (fun k g => if k = i then f g else g) } else c) } }
def Chain.issuer (c : Chain) : Issuer := match c.core with | some n => .core n | none => .tcc

/-- The stage's unit can take its descriptor. -/
def State.stageRoom (s : State) (g : ChainStage) : Bool :=
  if g.unit < 0x18 then decide ((s.gridUnit (g.unit - 0x10)).load < 2) else !s.moverFull (g.unit - 0x18)
/-- The descriptor of a mover's stage, as far as it is known. -/
def stageDesc (c : Chain) (i : Nat) (ws : List Nat) (src dst : Option Nat) : MoverDesc :=
  { words := ws, issuer := c.issuer, task := c.task, seq := c.seq, dst := dst, src := src, chain := some (c.id, i) }
/-- A stage fails before its descriptor is queued: at a mover it completes with the code, is latched and recorded (R133, R136). -/
def State.stageFails (s : State) (c : Chain) (i : Nat) (g : ChainStage) (src : Option Nat) (code : Nat) : State :=
  if g.unit < 0x18 then (match src with | some h => s.releaseHandle h | none => s).stageDone c.id i code
  else s.finishDesc (g.unit - 0x18) (stageDesc c i (List.replicate 16 0) src none) code
/-- Replace an address by the start of a handle's slot (R138). -/
def slotAddress (k : Nat) (ws : List Nat) : List Nat := (ws.set k 0).set (k + 1) (dword ws (k + 1) / 65536 * 65536)
/-- Run the stage's descriptor on a valid handle, with output slot `out`. -/
def State.runStage (s : State) (c : Chain) (i : Nat) (g : ChainStage) (h : Nat) (out : Option Nat) : State :=
  let r := s.spadRegion c.task g.region
  if !r.admits g.desc 64 false || (r.base + g.desc) % 64 != 0 || !s.unitUsable r.slice || !s.banksOn r.slice (r.base + g.desc) 64 then
    s.refuseAccess.stageFails c i g (some h) 2
  else
    match s.readDescriptor r.slice (r.base + g.desc) with
    | (s, ws, bad) =>
      if bad && decide (0x18 ≤ g.unit) then s.stageFails c i g (some h) 4
      else if bad then
        let s := (s.releaseHandle h).stageDone c.id i 4
        match c.core with
        | some n => s.noteDataErr n g.desc
        | none => s.failTask c.task 6 0 (sliceAddr r.slice (r.base + g.desc) % 2 ^ 32)
      else if g.unit < 0x18 then
        let u := g.unit - 0x10
        let slot := fun (x : Nat) => (handleSlice x, s.slotOffset (handleRing x) (handleSlot x))
        let act := slot h
        let drain := match out with | some o => slot o | none => slAddr (dword ws 10)
        let code := s.gridRefusal u ws act drain c.issuer c.task
        if code ≠ 0 then
          ((((s.refusePass u code c.issuer (sliceAddr r.slice (r.base + g.desc))).releaseHandle h).stageDone c.id i code).rowsFault u ws c.issuer
            c.task code).failTask c.task 2 g.unit code
        else
          (s.placePass { unit := u, words := ws, issuer := c.issuer, task := c.task, descAddr := sliceAddr r.slice (r.base + g.desc),
                         act := act, drain := drain, out := out, src := some h, chain := some (c.id, i) } (!s.lineGrid)).setStage c.id i
            (fun g => { g with busy := true })
      else
        (s.queueDesc (g.unit - 0x18) (stageDesc c i ((if out.isSome then slotAddress 3 else id) (slotAddress 1 ws)) (some h) out)).setStage c.id i
          (fun g => { g with busy := true })

/-- CHAIN_STAGE: a stage that is free pops a handle and runs its descriptor on it. Nothing happens while its queue is
empty, its unit has no room, or its output ring no slot. -/
def execChainStage (chain stage : Nat) (s : State) : Host.Outcome State Fault Refusal :=
  .next (match s.tcc.chains.find? (fun c => c.id == chain) with
    | none => s
    | some c => match c.stages[stage]? with
      | none => s
      | some g =>
        if g.busy || g.left == 0 || !s.stageRoom g then s
        else if !g.last && s.ownsRing c.task g.outRing && s.ringSlots g.outRing ≤ s.ringUsed g.outRing then s
        else match s.popHandle g.inQ with
          | none => s
          | some (h, s) =>
            if !s.handleValid h || !s.ownsQueue c.task g.inQ then s.badHandle.stageFails c stage g none 9
            else if g.last then s.runStage c stage g h none
            else if !s.ownsRing c.task g.outRing then s.stageFails c stage g (some h) 9
            else match s.reserve g.outRing with
              | some (o, s) => s.runStage c stage g h (some o)
              | none => s)

end Sys2Proof.Machine
end

