-- ==== Sys2Proof/Machine/Sequencer.lean ====
section
/-! DEFINITION. The turn sequencer's moves (R211 to R227): launches and their span checks, passes, mover and die-link
moves, halo slots, voids. A move is named by its index in the move store. -/

namespace Sys2Proof.Machine

/-! ### Moves (R211, R212) -/

def mvCycle (w : Nat) : Nat := bitsOf w 127 112
def mvSelMode (w : Nat) : Nat := bitsOf w 111 110
def mvSel (w : Nat) : Nat := bitsOf w 109 96
def mvUnit (w : Nat) : Nat := bitsOf w 95 90
def mvAction (w : Nat) : Nat := bitsOf w 89 84
/-- A move selects a turn: one turn, or the turns of a range-table entry. -/
def mvSelects (ranges : List Nat) (w turn : Nat) : Bool :=
  if mvSelMode w = 0 then mvSel w == turn
  else if mvSelMode w = 1 then
    let e := ranges.getD (mvSel w % 256) 0
    let first := bitsOf e 13 0
    decide (first ≤ turn) && decide (turn ≤ bitsOf e 29 16) && (turn - first) % (max 1 (bitsOf e 45 32)) == 0
  else false

/-- The sequencer issues moves in the turn in progress: one that has started, of a normal round, in RUN (R17, R47, R53, R421). -/
def State.sequencing (s : State) : Bool :=
  s.seq.started && s.tt.running && !s.tt.isRepeat && !s.seq.stopRound && s.getF F.PWR_STATE_STATE == 0 && !s.power.stopped
/-- Insert a move (index, word) into a turn's order: by cycle, then by unit. -/
def insertMove (m : Nat × Nat) : List (Nat × Nat) → List (Nat × Nat)
  | [] => [m]
  | n :: r =>
    if mvCycle m.2 < mvCycle n.2 ∨ (mvCycle m.2 = mvCycle n.2 ∧ mvUnit m.2 < mvUnit n.2) then m :: n :: r else n :: insertMove m r
/-- The moves that select a turn, in issue order (R214). -/
def turnMoves (l : MoveList) (t : Nat) : List (Nat × Nat) :=
  ((List.range l.moves.length).zip l.moves).foldl (fun acc m => if mvSelects l.ranges m.2 t then insertMove m acc else acc) []
/-- The moves of the turn that have not issued yet, in their order: index and word. A move whose word is uncorrectable is not issued (R440). -/
def State.movesLeft (s : State) : List (Nat × Nat) :=
  ((turnMoves s.seq.list s.tt.turn).filter (fun m => !s.seq.badMoves.contains m.1)).drop s.seq.issuedThisTurn
/-- Issue move `i` of the move store: it is the turn's next, and an action of the given code. Every move that selects a turn issues once, by
CYCLE, those of one cycle by unit (R214). -/
def issueMove (action i : Nat) (f : Nat → State → State) (s : State) : State :=
  match s.movesLeft with
  | [] => s
  | (j, w) :: _ =>
    if s.sequencing && j == i && mvAction w == action then f w { s with seq := { s.seq with issuedThisTurn := s.seq.issuedThisTurn + 1 } }
    else s

/-! ### Launches (R157, R158, R181, R216) -/

/-- Key of scalar register r of a line context. -/
def lineReg (n r : Nat) : Nat := n * 2 * 32 + r
/-- Perform a launch: a running kernel is ended as an overrun; none is performed after a fault of the round. -/
def State.launch (s : State) (n entry arg cycle : Nat) : State :=
  let v := s.vcore n
  if v.lineRun then s.takeFault n .line 9 0
  else if v.lineStop || !s.unitUsable n then s
  else
    let s := s.setVcore n { v with lineRun := true, commit := [] }
    let c := s.yctx n .line
    let s := s.setYctx n .line { c with pc := entry, nextIssue := cycle + 2, wait := none }
    { s with yu := { s.yu with sreg := SMap.set (fun _ => 0#64) s.yu.sreg (lineReg n 30) (BitVec.ofNat 64 arg) } }
def execLaunchMove (i : Nat) (s : State) : Host.Outcome State Fault Refusal :=
  .next (issueMove 1 i (fun w s => s.launch (mvUnit w) (bitsOf w 83 70) (bitsOf w 31 0) (mvCycle w)) s)
/-- SPAN_CHECK: at the end of a launch's declared span a kernel that has not halted takes the overrun fault. -/
def execSpanCheck (core : Nat) (s : State) : Host.Outcome State Fault Refusal :=
  .next (if (s.vcore core).lineRun then s.takeFault core .line 9 0 else s)

/-! ### Ready bits and holds (R218, R224) -/

/-- The head slot of a ring. -/
def State.headSlot (s : State) (r : Nat) : HeadSlot := ⟨s.ringSlice r, s.slotOffset r (s.ringHead r), s.headReady r, s.haloAwaited r⟩
/-- The ring whose head slot a move releases as it issues, whatever it finds (R213, R218). -/
def mvReleases (w : Nat) : Option Nat :=
  if mvAction w = 5 then some (bitsOf w 71 64)
  else if mvAction w = 2 ∧ w.testBit 63 ∧ w.testBit 62 then some (bitsOf w 55 48)
  else none
/-- The release of a move takes effect ahead of the rest of the move. -/
def State.releaseAhead (s : State) (i r : Nat) : State :=
  { s.release r with seq := { (s.release r).seq with early := (s.release r).seq.early ++ [(i, s.headSlot r)] } }
/-- A move of a cycle is about to reserve a slot of a ring: the releases of that ring by later moves of its cycle precede it (R135, R214). -/
def State.releasesFirst (s : State) (cycle r : Nat) : State :=
  (s.movesLeft.filter (fun m => mvCycle m.2 == cycle && mvReleases m.2 == some r && !s.seq.early.any (fun e => e.1 == m.1))).foldl
    (fun s m => s.releaseAhead m.1 r) s
/-- The slot that move `i` released ahead of its turn, if it did. -/
def State.releasedAhead (s : State) (i : Nat) : Option HeadSlot := (s.seq.early.find? (fun e => e.1 == i)).map (fun e => e.2)
/-- Reserve a slot that will stay not ready. -/
def State.reserveOnly (s : State) (r : Nat) : State :=
  match s.reserve r with
  | some (_, s) => s
  | none => s

/-! ### Passes (R213) -/

/-- Physical unit of a pass's unit ID: the whole grid, or the quarter bound to a logical one (R31). -/
def State.passUnit (s : State) (id : Nat) : Nat := if id = 0x14 then 4 else s.seq.quarterMap.getD (id - 0x10) (id - 0x10)
/-- The pass with its rings: descriptor read at the issue, slots substituted, refusal, placing. -/
def State.issuePass (s : State) (i w : Nat) : State :=
  let u := s.passUnit (mvUnit w)
  let n := bitsOf w 83 80
  let off := s.pairOffset n (bitsOf w 79 64) * 64
  let inEn := w.testBit 63
  let rin := bitsOf w 55 48
  let outEn := w.testBit 47
  let rout := bitsOf w 39 32
  let ahead := s.releasedAhead i
  let head := ahead.getD (s.headSlot rin)
  let s := if inEn && w.testBit 62 && ahead.isNone then s.release rin else s
  let s := if outEn then s.releasesFirst (mvCycle w) rout else s
  if inEn && !head.ready then
    let s := s.missedSlot rin head.halo
    if outEn then s.reserveOnly rout else s
  else
    let inSlot := (head.slice, head.off)
    let (out, s) : Option Nat × State := match (if outEn then s.reserve rout else none) with
      | some (h, s) => (some h, s)
      | none => (none, s)
    match s.readDescriptor n off with
    | (s, ws, bad) =>
      if bad then s
      else
        let a := slAddr (dword ws 1)
        let d := slAddr (dword ws 10)
        let act := if inEn then (inSlot.1, inSlot.2 + a.2) else a
        let drain := match out with
          | some h => (handleSlice h, s.slotOffset (handleRing h) (handleSlot h) + d.2)
          | none => d
        let code := s.gridRefusal u ws act drain .moveList 0
        if code ≠ 0 then s.refusePass u code .moveList (sliceAddr n off)
        else s.placePass { unit := u, words := ws, issuer := .moveList, task := 0, descAddr := sliceAddr n off,
                           act := act, drain := drain, out := out } true
def execPassMove (i : Nat) (s : State) : Host.Outcome State Fault Refusal :=
  .next (issueMove 2 i (fun w s => s.issuePass i w) s)

/-! ### Batch passes between those of the move list (R93, R104) -/

/-- The cycle of the turn in progress, from the tick that the block knows: the true one is not earlier. -/
def State.turnCycle (s : State) : Nat := (s.now - (s.tt.start + 80)) * s.getF F.HUB_ACLK_MHZ / 1000
/-- The passes that the move list issues from now on in `n` turns, this one first: their cycle from the start of this turn, and their words. A
round has at least the turns 0 to VT_MIN. -/
def State.comingPasses (s : State) (n : Nat) : List (Nat × Nat) :=
  let passes := fun (k : Nat) (l : List (Nat × Nat)) => (l.filter (fun m => mvAction m.2 == 2)).map (fun m => (k * s.budget + mvCycle m.2, m.2))
  passes 0 s.movesLeft ++
    ((List.range (n - 1)).map (fun k => passes (k + 1) (turnMoves s.seq.list ((s.tt.turn + k + 1) % (s.tt.vtMin + 1))))).flatten
/-- The descriptor of a pass of the move list, as its slice holds it. -/
def State.passWords (s : State) (w : Nat) : List Nat :=
  let n := bitsOf w 83 80
  wordsOf 16 (s.sliceBytes n (s.pairOffset n (bitsOf w 79 64) * 64) 64)
/-- The ports that a pass claims: slices, and whether for writing (R103). -/
def passPorts (ws : List Nat) (act drain : Nat × Nat) (tile : Option (Nat × Nat × Nat)) : List (Nat × Bool) :=
  ((passSpans ws act drain tile).map (fun g => (g.slice, g.write))).eraseDups
/-- The ports that a pass of the move list claims. -/
def State.listPorts (s : State) (w : Nat) : List (Nat × Bool) :=
  let ws := s.passWords w
  let act := if w.testBit 63 then (s.ringSlice (bitsOf w 55 48), 0) else slAddr (dword ws 1)
  let drain := if w.testBit 47 then (s.ringSlice (bitsOf w 39 32), 0) else slAddr (dword ws 10)
  passPorts ws act drain none
/-- A batch pass that enters now ends before any coming pass of the move list on its unit or on one of its ports begins, and the next one on its
unit does not keep the tile of the one before (R104, log 218). -/
def State.gapFits (s : State) (p : GridPass) : Bool :=
  let tile := if gKeep p.words then (s.gridUnit p.unit).tile.map (fun t => t.shape) else none
  let last := (timeline p.words (gKN p.words tile) s.turnCycle none).2.2
  let ports := if p.tiled.isSome then [] else passPorts p.words p.act p.drain tile
  (s.comingPasses (last / max 1 s.budget + 1)).all (fun m =>
    decide (last < m.1) || (s.passUnit (mvUnit m.2) != p.unit && (s.listPorts m.2).all (fun q => !ports.contains q))) &&
  (match (s.comingPasses (s.tt.vtMin + 1 - s.tt.turn)).find? (fun m => s.passUnit (mvUnit m.2) == p.unit) with
   | some m => !(gProduct (s.passWords m.2) && gKeep (s.passWords m.2))
   | none => true)
/-- A batch pass that waited to keep a tile finds another issuer's, or none: it is refused as at its issue (R93, R110, R256). -/
def State.refuseWaiting (s : State) (p : GridPass) : State :=
  let s := s.refusePass p.unit 9 p.issuer p.descAddr
  let s := match p.src with | some h => s.releaseHandle h | none => s
  let s := match p.chain with | some (id, i) => s.stageDone id i 9 | none => s
  (s.failTask p.task 2 (0x10 + p.unit) 9).tryFinish p.task
/-- GRID_PASS_ADMIT: the oldest waiting batch pass of a unit enters, if the unit has a place and, while the move list issues, the gap holds it
(R93, R102, R104). -/
def execGridPassAdmit (unit : Nat) (s : State) : Host.Outcome State Fault Refusal :=
  let g := s.gridUnit unit
  .next (match g.waiting with
    | [] => s
    | p :: r =>
      if decide (2 ≤ g.passes.length) || (s.lineGrid && !s.gapFits p) then s
      else
        let s := s.setGridUnit unit { g with waiting := r }
        if keepRefused p.words (ownerOf p.issuer p.task) (g.prevOwner, g.tile.map (fun t => t.shape)) then s.refuseWaiting p
        else s.admitPass p)

/-! ### Mover and die-link moves (R212, R218, R223, R227) -/

/-- Lines a stream has been sent this round, and one more. -/
def State.linkLineOf (s : State) (n : Nat) : Nat := SMap.get (fun _ => 0) s.seq.linkLine n
def State.countLinkLine (s : State) (n : Nat) : State :=
  { s with seq := { s.seq with linkLine := SMap.set (fun _ => 0) s.seq.linkLine n (s.linkLineOf n + 1) } }
/-- The notices of the bound frame of a capture stream that have acted. -/
def State.gateCount (s : State) (stream : Nat) : Nat :=
  match s.seq.binds.find? (fun b => b.stream == stream) with
  | some b => match (s.strm stream).frame? b.frame with
    | some f => f.noticed
    | none => 0
  | none => 0
/-- A move of a mover descriptor. `link` is set for units 0x30 and 0x31. -/
def State.issueMoverMove (s : State) (w : Nat) : State :=
  let unit := mvUnit w
  let link := unit == 0x30 || unit == 0x31
  let n := bitsOf w 83 80
  let m := if link then n else unit - 0x18
  match s.readDescriptor n (bitsOf w 79 64 * 64) with
  | (s, ws, bad) =>
    let d : MoverDesc := { words := ws, issuer := .moveList, task := 0, seq := s.adapt.step, link := link, round := s.tt.round,
                           code := if bad then 4 else if link && mKind ws != unit - 0x2F then 1 else 0 }
    let outLine := unit == 0x30 && !bad
    let stream := dbits ws 14 31 26
    let d := if outLine then { d with line := s.linkLineOf stream } else d
    let s := if outLine then s.countLinkLine stream else s
    let dst := mDstRingNo ws
    let takesDst := mDstRing ws && unit != 0x30 && s.ownsRing 0 dst
    let rsrc := mSrcRingNo ws
    let takesSrc := !bad && mSrcRing ws && s.ownsRing 0 rsrc
    let s := if takesDst then s.releasesFirst (mvCycle w) dst else s
    if !bad && w.testBit 63 && s.gateCount (bitsOf w 61 56) ≤ bitsOf w 45 32 then
      let s := if takesDst then s.reserveOnly dst else s
      (s.bumpF F.TT_SEQ_EVT_GATE).latchHold 1 (s.ringStream dst) dst
    else if takesSrc && !s.headReady rsrc then
      let s := (s.missedSlot rsrc (s.haloAwaited rsrc)).release rsrc
      if takesDst then s.reserveOnly dst else s
    else s.queueDesc m (if takesSrc then { d with src := some (s.makeHandle rsrc (s.ringHead rsrc)) } else d)
def execMoveMove (i : Nat) (s : State) : Host.Outcome State Fault Refusal :=
  .next (issueMove 3 i (fun w s => s.issueMoverMove w) s)

/-! ### Halo slots (R224 to R226) -/

def State.disarm (s : State) (a : HaloArm) : State :=
  { s with rings := { s.rings with halo := s.rings.halo.filter (fun x => !(x.ring == a.ring && x.slot == a.slot && x.gen == a.gen)) } }
/-- The counted bytes of an armed slot have arrived: it is ready. -/
def State.haloDone (s : State) (a : HaloArm) : State :=
  let s := s.disarm a
  if s.slotGen a.ring a.slot = a.gen then s.setSlotReady a.ring a.slot true
  else s.noteStale (s.ringSlice a.ring * 2 ^ 28 + a.ring * 2 ^ 20 + a.slot * 2 ^ 14 + a.gen)
/-- A HALO move reserves and arms the tail slot of its ring; at an edge or a lost port it is to be filled. -/
def State.armHalo (s : State) (port ring bytes : Nat) : State :=
  match s.reserve ring with
  | none => s
  | some (h, s) =>
    let a : HaloArm := ⟨ring, handleSlot h, handleGen h, port, bytes, 0, !s.portOpen port⟩
    let s := { s with rings := { s.rings with halo := s.rings.halo ++ [a] } }
    if bytes = 0 then s.haloDone a else s
def execHaloMove (i : Nat) (s : State) : Host.Outcome State Fault Refusal :=
  .next (issueMove 4 i (fun w s => (s.releasesFirst (mvCycle w) (bitsOf w 71 64)).armHalo (bitsOf w 83 82) (bitsOf w 71 64) (bitsOf w 23 0)) s)

/-- Count the bytes of an admitted halo write that fall within armed slots of its port. -/
def countHalo (port slice off len : Nat) : List HaloArm → State → State
  | [], s => s
  | a :: r, s =>
    let lo := s.slotOffset a.ring a.slot
    let hi := lo + s.ringRows a.ring * 512
    let n := min (off + len) hi - max off lo
    if a.port = port ∧ s.ringSlice a.ring = slice ∧ max off lo < min (off + len) hi then
      let b := { a with count := a.count + n }
      let s := { s with rings := { s.rings with halo := s.rings.halo.map (fun x => if x = a then b else x) } }
      countHalo port slice off len r (if b.bytes ≤ b.count then s.haloDone b else s)
    else countHalo port slice off len r s
/-- A HALO WRITE LANDS in a slice through the mover port: admitted by a window for its port, or refused and counted
(R119, R120, R224); dropped where its bank is not on or not initialised. -/
def State.landHalo (s : State) (port slice off : Nat) (bs : List Byte) : State :=
  if !s.unitUsable slice || decide (sliceSize < off + bs.length) || !s.banksOn slice off bs.length then s.refuseAccess
  else if !s.windowOpen slice (16 + port) off (off + bs.length) then s.refuseWindow
  else countHalo port slice off bs.length s.rings.halo (s.writeSlice slice off bs)

/-- The padding pattern of a line-task ring. -/
def State.ringPad (s : State) (r : Nat) : Nat :=
  match s.seq.list.rings.find? (fun x => x.ring == r) with
  | some x => x.pad
  | none => 0
/-- PADDING_FILL_COMPLETE: the fill of a slot armed for a lost port ends; the slot is ready (R226). -/
def execPaddingFillComplete (ring slot : Nat) (s : State) : Host.Outcome State Fault Refusal :=
  .next (match s.rings.halo.find? (fun a => a.ring == ring && a.slot == slot && a.filling) with
    | none => s
    | some a =>
      let n := s.ringSlice ring
      let off := s.slotOffset ring slot
      let bytes := ((List.range (s.ringRows ring * 128)).map (fun _ => leBytes 4 (s.ringPad ring))).flatten
      let stale := s.reservedAgain ring slot a.gen
      (if stale then s else s.writeSlice n off bytes).haloDone a)

/-! ### Void (R135, R218) -/

def execVoidMove (i : Nat) (s : State) : Host.Outcome State Fault Refusal :=
  .next (issueMove 5 i (fun w s => if (s.releasedAhead i).isSome then s else s.release (bitsOf w 71 64)) s)

end Sys2Proof.Machine
end

