-- ==== Sys2Proof/Machine/Curves.lean ====
section
/-! DEFINITION. The transfer functions of the finish stage: the curves of R301 and the tables of R302, evaluated in fixed
point with 256 fractional bits, which decides every rounding of R302. -/

namespace Sys2Proof.Machine

/-- Fractional bits of the evaluation. -/
def fxBits : Nat := 256
def fxOne : Nat := 2 ^ fxBits
def fxMul (a b : Nat) : Nat := a * b / fxOne
def fxDiv (a b : Nat) : Nat := a * fxOne / b
def fxSqrt (a : Nat) : Nat := isqrt (a * fxOne)
def fxPow (a : Nat) : Nat → Nat
  | 0 => fxOne
  | n + 1 => fxMul (fxPow a n) a
/-- a to the power of the low `k` bits of `num` over 2^k: one square root a step. -/
def fxFrac (a num : Nat) : Nat → Nat → Nat
  | 0, _ => fxOne
  | k + 1, r =>
    let r := fxSqrt r
    let rest := fxFrac a num k r
    if num.testBit k then fxMul r rest else rest
/-- a to the power num / 2^k. -/
def fxPowFrac (a num k : Nat) : Nat := fxMul (fxPow a (num / 2 ^ k)) (fxFrac a num k a)
/-- The exponential series: term `i` first, `n` terms. -/
def fxExpTerms (x : Nat) : Nat → Nat → Nat → Nat
  | 0, _, _ => 0
  | n + 1, i, t => t + fxExpTerms x n (i + 1) (fxMul t x / (i + 1))
def fxExp (x : Nat) : Nat := fxExpTerms x 128 0 fxOne

/-- The ST 2084 inverse EOTF of a fraction of 10,000 cd/m2: m1 = 2610/16384, m2 = 2523/32, c1 = 3424/4096, c2 = 2413/128,
c3 = 2392/128. -/
def pqEncode (y : Nat) : Nat :=
  let w := fxPowFrac y 1305 13
  fxPowFrac (fxDiv (fxOne / 4096 * 3424 + 2413 * w / 128) (fxOne + 2392 * w / 128)) 2523 5
/-- The inverse OETF of BT.2100 HLG: a = 0.17883277, b = 1 - 4a, c = 0.5 - a ln(4a). -/
def hlgDecode (v : Nat) : Nat :=
  if v ≤ fxOne / 2 then fxMul v v / 3
  else
    let a := fxOne * 17883277 / 100000000
    (fxMul (4 * a) (fxExp (fxDiv (v - fxOne / 2) a)) + (fxOne - 4 * a)) / 12

/-- The curve's decode of j / 4096 is at least m / 2^17, in units of PX20 1.0 (R301). -/
def decodeGe (curve nits j m : Nat) : Bool :=
  match curve with
  | 1 =>
    if j * 100000 ≤ 4045 * 4096 then decide (m * 4096 * 1292 ≤ j * 100 * 2 ^ 17)
    else decide (m ^ 5 * (1055 * 4096) ^ 12 ≤ (1000 * j + 55 * 4096) ^ 12 * (2 ^ 17) ^ 5)
  | 2 => decide (m ^ 5 * 4096 ^ 12 ≤ j ^ 12 * (2 ^ 17) ^ 5)
  | 3 =>
    let y := m * nits * fxOne / (2 ^ 17 * 10000)
    decide (y ≤ fxOne) && decide (pqEncode y * 4096 ≤ j * fxOne)
  | _ => decide (m * fxOne ≤ hlgDecode (j * (fxOne / 4096)) * 2 ^ 17)
/-- The curve's encode of the linear PX20 value c is at least m / 2^17 (R301). -/
def encodeGe (curve nits c m : Nat) : Bool :=
  match curve with
  | 1 =>
    if m * 100000 ≤ 4045 * 2 ^ 17 then decide (m * 65536 * 100 ≤ c * 1292 * 2 ^ 17)
    else decide ((1000 * m + 55 * 2 ^ 17) ^ 12 * 65536 ^ 5 ≤ c ^ 5 * (1055 * 2 ^ 17) ^ 12)
  | 2 => decide (m ^ 12 * 65536 ^ 5 ≤ c ^ 5 * (2 ^ 17) ^ 12)
  | 3 =>
    let y := min (c * nits * fxOne / (65536 * 10000)) fxOne
    decide (m * fxOne ≤ pqEncode y * 2 ^ 17)
  | _ => decide (hlgDecode (m * (fxOne / 2 ^ 17)) * 65536 ≤ min c 65536 * fxOne)
/-- The largest number of `k` bits above `acc` that a downward closed property holds of. -/
def findMax (p : Nat → Bool) : Nat → Nat → Nat
  | 0, acc => acc
  | k + 1, acc => findMax p k (if p (acc + 2 ^ k) then acc + 2 ^ k else acc)
/-- Table entry D[j] (R302): the curve rounded half away from zero, saturated to PX20. -/
def decodeTable (curve nits j : Nat) : Nat := findMax (fun n => decodeGe curve nits j (2 * n - 1)) 20 0
/-- Table entry E of the linear value c (R302), saturated to 65,536. -/
def encodeTable (curve nits c : Nat) : Nat := min 65536 (findMax (fun n => encodeGe curve nits c (2 * n - 1)) 17 0)

/-- Input decode of a composed component (R302). -/
def curveDecode (curve nits c : Nat) : Nat :=
  if curve = 0 then c
  else
    let c := min c 65536
    let j := c / 16
    let r := c % 16
    if r = 0 then decodeTable curve nits j
    else roundNat .rna (decodeTable curve nits j * (16 - r) + decodeTable curve nits (j + 1) * r) 16
/-- The knots around a linear value (R302). -/
def knots (x : Nat) : Nat × Nat :=
  if x < 32 then (x, x + 1)
  else
    let e := Nat.log2 x
    let step := 2 ^ (e - 5)
    let lo := 2 ^ e + (x - 2 ^ e) / step * step
    (lo, lo + step)
/-- Output encode of a linear component (R302): a finished value, 0 to 65,536. -/
def curveEncode (curve nits x : Nat) : Nat :=
  if curve = 0 then min x 65536
  else
    let k := knots x
    let lo := encodeTable curve nits k.1
    let hi := encodeTable curve nits k.2
    roundNat .rna (lo * (k.2 - k.1) + (hi - lo) * (x - k.1)) (k.2 - k.1)

end Sys2Proof.Machine
end

