-- ==== Sys2Proof/Machine/Vector.lean ====
section
/-! DEFINITION. Vector arithmetic, compares, lane movement, reductions and PX20 arithmetic (R187 to R192). -/

namespace Sys2Proof.Machine

/-- A lane-predicated instruction with vector operands a and b, or with a scalar second operand. -/
def vecSpec (w : YWord) (sc : Bool) (tys : List Nat) (lat : Nat) : YSpec :=
  { useD := true, useA := true, useB := true, tys := tys, whole := false,
    reads := [rV w.a, if sc then rS w.b else rV w.b, rV w.d], writes := [rV w.d], lat := lat }
/-- One vector operand. -/
def vecSpec1 (w : YWord) (tys : List Nat) (lat : Nat) : YSpec :=
  { useD := true, useA := true, tys := tys, whole := false, reads := [rV w.a, rV w.d], writes := [rV w.d], lat := lat }

/-- The second operand's lane: vb, or the scalar operand of R187. -/
def operandB (s : State) (k : Issue) (w : YWord) (sc : Bool) (l : Nat) : Nat :=
  if sc then scalarLane w.elem (s.sget k w.b) else (s.vget k w.b).lane l

/-- vd := f(va, b) element by element in enabled lanes. -/
def vecOp2 (tys : List Nat) (lat : Nat) (f : ElemType → Nat → Nat → Nat) (k : Issue) (w : YWord) (sc : Bool) (s : State) :
    Host.Outcome State Fault Refusal :=
  yubenOut k w (vecSpec w sc tys lat) (fun _ s =>
    .done (s.vputLanes k w (fun l => onElems w.elem (f w.elem) ((s.vget k w.a).lane l) (operandB s k w sc l)))) s
/-- vd := f(va) element by element in enabled lanes. -/
def vecOp1 (tys : List Nat) (lat : Nat) (f : ElemType → Nat → Nat) (k : Issue) (w : YWord) (s : State) : Host.Outcome State Fault Refusal :=
  yubenOut k w (vecSpec1 w tys lat) (fun _ s =>
    .done (s.vputLanes k w (fun l => onElems w.elem (fun a _ => f w.elem a) ((s.vget k w.a).lane l) 0))) s

/-! ### Integer arithmetic (R187) -/

def intTys : List Nat := [0x2, 0x3, 0x4, 0x5]
/-- An element as an integer, signed or not as its type says. -/
def elemInt (t : ElemType) (a : Nat) : Int := if t.isSigned then signedOf t.bits a else ((a % 2 ^ t.bits : Nat) : Int)
/-- Saturate an integer to the type's range and encode it. -/
def satElem (t : ElemType) (x : Int) : Nat :=
  let r := t.intRange.getD (0, 0)
  wrapTo t.bits (clampInt r.1 r.2 x)
def eAdd (_ : ElemType) (a b : Nat) : Nat := a + b
def eSub (t : ElemType) (a b : Nat) : Nat := a + 2 ^ t.bits - b
def eMul (_ : ElemType) (a b : Nat) : Nat := a * b
/-- High w bits of the 2w-bit product; signedness from the type. -/
def eMulh (t : ElemType) (a b : Nat) : Nat := wrapTo t.bits (elemInt t a * elemInt t b / ((2 ^ t.bits : Nat) : Int))
def eAnd (_ : ElemType) (a b : Nat) : Nat := a &&& b
def eOr (_ : ElemType) (a b : Nat) : Nat := a ||| b
def eXor (_ : ElemType) (a b : Nat) : Nat := a ^^^ b
def eSll (t : ElemType) (a b : Nat) : Nat := a <<< (b % t.bits)
def eSrl (t : ElemType) (a b : Nat) : Nat := a >>> (b % t.bits)
def eSra (t : ElemType) (a b : Nat) : Nat := wrapTo t.bits (signedOf t.bits a / ((2 ^ (b % t.bits) : Nat) : Int))
def eMin (t : ElemType) (a b : Nat) : Nat := if elemInt t b < elemInt t a then b else a
def eMax (t : ElemType) (a b : Nat) : Nat := if elemInt t a < elemInt t b then b else a
def eSatadd (t : ElemType) (a b : Nat) : Nat := satElem t (elemInt t a + elemInt t b)
def eSatsub (t : ElemType) (a b : Nat) : Nat := satElem t (elemInt t a - elemInt t b)
def eAbs (t : ElemType) (a : Nat) : Nat := satElem t ((elemInt t a).natAbs : Int)

def execVadd (k : Issue) (w : YWord) (sc : Bool) (s : State) := vecOp2 intTys 1 eAdd k w sc s
def execVsub (k : Issue) (w : YWord) (sc : Bool) (s : State) := vecOp2 intTys 1 eSub k w sc s
def execVmul (k : Issue) (w : YWord) (sc : Bool) (s : State) := vecOp2 intTys 3 eMul k w sc s
def execVmulh (k : Issue) (w : YWord) (sc : Bool) (s : State) := vecOp2 intTys 3 eMulh k w sc s
def execVand (k : Issue) (w : YWord) (sc : Bool) (s : State) := vecOp2 intTys 1 eAnd k w sc s
def execVor (k : Issue) (w : YWord) (sc : Bool) (s : State) := vecOp2 intTys 1 eOr k w sc s
def execVxor (k : Issue) (w : YWord) (sc : Bool) (s : State) := vecOp2 intTys 1 eXor k w sc s
def execVsll (k : Issue) (w : YWord) (sc : Bool) (s : State) := vecOp2 intTys 1 eSll k w sc s
def execVsrl (k : Issue) (w : YWord) (sc : Bool) (s : State) := vecOp2 intTys 1 eSrl k w sc s
def execVsra (k : Issue) (w : YWord) (sc : Bool) (s : State) := vecOp2 intTys 1 eSra k w sc s
def execVmin (k : Issue) (w : YWord) (sc : Bool) (s : State) := vecOp2 intTys 1 eMin k w sc s
def execVmax (k : Issue) (w : YWord) (sc : Bool) (s : State) := vecOp2 intTys 1 eMax k w sc s
def execVsatadd (k : Issue) (w : YWord) (sc : Bool) (s : State) := vecOp2 intTys 1 eSatadd k w sc s
def execVsatsub (k : Issue) (w : YWord) (sc : Bool) (s : State) := vecOp2 intTys 1 eSatsub k w sc s
def execVabs (k : Issue) (w : YWord) (s : State) := vecOp1 intTys 1 eAbs k w s

/-! ### Floating-point arithmetic (R72, R188) -/

def fpTys : List Nat := [0x9, 0xA, 0xB]
/-- The format of an accepted floating-point type. -/
def fmtOf (t : ElemType) : FloatFmt := t.floatFmt.getD fmtFP32
def execVfadd (k : Issue) (w : YWord) (sc : Bool) (s : State) := vecOp2 fpTys 4 (fun t => fAdd (fmtOf t)) k w sc s
def execVfsub (k : Issue) (w : YWord) (sc : Bool) (s : State) := vecOp2 fpTys 4 (fun t => fSub (fmtOf t)) k w sc s
def execVfmul (k : Issue) (w : YWord) (sc : Bool) (s : State) := vecOp2 fpTys 4 (fun t => fMul (fmtOf t)) k w sc s
def execVfdiv (k : Issue) (w : YWord) (sc : Bool) (s : State) := vecOp2 fpTys 14 (fun t => fDiv (fmtOf t)) k w sc s
def execVfmin (k : Issue) (w : YWord) (sc : Bool) (s : State) := vecOp2 fpTys 2 (fun t => fMin (fmtOf t)) k w sc s
def execVfmax (k : Issue) (w : YWord) (sc : Bool) (s : State) := vecOp2 fpTys 2 (fun t => fMax (fmtOf t)) k w sc s
def execVfsqrt (k : Issue) (w : YWord) (s : State) := vecOp1 fpTys 14 (fun t => fSqrt (fmtOf t)) k w s
def execVfabs (k : Issue) (w : YWord) (s : State) := vecOp1 fpTys 2 (fun t => fAbs (fmtOf t)) k w s
def execVfneg (k : Issue) (w : YWord) (s : State) := vecOp1 fpTys 2 (fun t => fNeg (fmtOf t)) k w s

/-- Fused forms: vd := +-(va x vb) +- vc with one rounding. -/
def vecFma (negP subC : Bool) (k : Issue) (w : YWord) (s : State) : Host.Outcome State Fault Refusal :=
  yubenOut k w { useD := true, useA := true, useB := true, useC := true, tys := fpTys, whole := false,
                 reads := [rV w.a, rV w.b, rV w.c, rV w.d], writes := [rV w.d], lat := 5 } (fun _ s =>
    .done (s.vputLanes k w (fun l =>
      let a := (s.vget k w.a).lane l
      let b := (s.vget k w.b).lane l
      let c := (s.vget k w.c).lane l
      let f := fmtOf w.elem
      if w.elem.bits = 16 then
        fFma f negP subC (a % 65536) (b % 65536) (c % 65536) +
          fFma f negP subC (a / 65536) (b / 65536) (c / 65536) * 65536
      else fFma f negP subC a b c))) s
def execVfma (k : Issue) (w : YWord) (s : State) := vecFma false false k w s
def execVfms (k : Issue) (w : YWord) (s : State) := vecFma false true k w s
def execVfnma (k : Issue) (w : YWord) (s : State) := vecFma true false k w s

/-! ### Compares and lane movement (R189, R190) -/

/-- Bit l of pd := the comparison in lane l; disabled lanes keep their bit. -/
def execVcmp (k : Issue) (w : YWord) (sc : Bool) (s : State) :=
  yubenOut k w { useD := true, useA := true, useB := true, useC := true, tys := [0x4, 0x5, 0xC, 0xB], whole := false,
                 reads := [rV w.a, if sc then rS w.b else rV w.b, rP w.d.toNat], writes := [rP w.d.toNat], lat := 2 } (fun _ s =>
    if !(decide (1 ≤ w.d.toNat) && decide (w.d.toNat < 8)) || !vcmpCodeOk w.elem w.c.toNat then .fault s 1 0
    else
      let old := (s.pget k w.d.toNat).toNat
      .done (s.pset k w.d.toNat (Pred.ofBits (fun l =>
        if s.laneOn k w l then laneCond w.elem w.c.toNat ((s.vget k w.a).lane l) (operandB s k w sc l) else old.testBit l)))) s

def execVmov (k : Issue) (w : YWord) (s : State) :=
  yubenOut k w (vecSpec1 w [0] 1) (fun _ s => .done (s.vputLanes k w (fun l => (s.vget k w.a).lane l))) s
def execVlane (k : Issue) (w : YWord) (s : State) :=
  yubenOut k w { useD := true, whole := false, reads := [rV w.d], writes := [rV w.d] } (fun _ s => .done (s.vputLanes k w (fun l => l))) s
def execVbcast (k : Issue) (w : YWord) (s : State) :=
  yubenOut k w { useD := true, useA := true, whole := false, reads := [rS w.a, rV w.d], writes := [rV w.d] } (fun _ s =>
    .done (s.vputLanes k w (fun _ => (s.sget k w.a).toNat % 2 ^ 32))) s
/-- sd := lane (sb mod 128) of va, predicated as a whole. -/
def execVext (k : Issue) (w : YWord) (s : State) :=
  yubenOut k w { useD := true, useA := true, useB := true, reads := [rV w.a, rS w.b], writes := wS w.d, lat := 2 } (fun _ s =>
    .done (s.sset k w.d (BitVec.ofNat 64 ((s.vget k w.a).lane ((s.sget k w.b).toNat % 128))))) s
/-- Lane (sb mod 128) of vd := bits 31:0 of sa, predicated as a whole (R185). -/
def execVins (k : Issue) (w : YWord) (s : State) :=
  yubenOut k w { useD := true, useA := true, useB := true, reads := [rS w.a, rS w.b, rV w.d], writes := [rV w.d] } (fun _ s =>
    let old := s.vget k w.d
    .done (s.vset k w.d (Vec.ofLanes (fun l => if l = (s.sget k w.b).toNat % 128 then (s.sget k w.a).toNat % 2 ^ 32 else old.lane l)))) s
def execVperm (k : Issue) (w : YWord) (s : State) :=
  yubenOut k w (vecSpec w false [0] 3) (fun _ s =>
    .done (s.vputLanes k w (fun l => (s.vget k w.a).lane ((s.vget k w.b).lane l % 128)))) s
def execVrot (k : Issue) (w : YWord) (s : State) :=
  yubenOut k w (vecSpec w true [0] 2) (fun _ s =>
    .done (s.vputLanes k w (fun l => (s.vget k w.a).lane ((l + (s.sget k w.b).toNat) % 128)))) s

/-! ### Reductions (R191) -/

/-- One level of the fixed tree: neighbours combined. -/
def pairUp (op : Nat → Nat → Nat) : List Nat → List Nat
  | a :: b :: r => op a b :: pairUp op r
  | l => l
/-- The reduction of a row of elements in the fixed tree order; `fuel` levels. -/
def treeReduce (op : Nat → Nat → Nat) : Nat → List Nat → Nat
  | 0, l => l.headD 0
  | n + 1, l => treeReduce op n (pairUp op l)
/-- The elements of va in row order, disabled lanes replaced by the identity. -/
def reduceElems (s : State) (k : Issue) (w : YWord) (t : ElemType) (ident : Nat) : List Nat :=
  (List.range 128).flatMap (fun l =>
    let v := (s.vget k w.a).lane l
    if t.bits = 16 then
      (if s.laneOn k w l then [v % 65536, v / 65536] else [ident, ident])
    else [if s.laneOn k w l then v else ident])
/-- sd := the reduction, widened by `ext`. -/
def vecReduce (tys : List Nat) (lat : YWord → Nat) (op : ElemType → Nat → Nat → Nat) (ident : ElemType → Nat) (signed : Bool)
    (k : Issue) (w : YWord) (s : State) : Host.Outcome State Fault Refusal :=
  yubenOut k w { useD := true, useA := true, tys := tys, whole := false, reads := [rV w.a], writes := wS w.d, lat := lat w } (fun _ s =>
    let t := w.elem
    let r := treeReduce (fun a b => op t a b % 2 ^ t.bits) (if t.bits = 16 then 8 else 7) (reduceElems s k w t (ident t))
    .done (s.sset k w.d (if signed && t.isSigned then BitVec.ofInt 64 (signedOf t.bits r) else BitVec.ofNat 64 r))) s
def execVradd (k : Issue) (w : YWord) (s : State) := vecReduce intTys (fun _ => 4) eAdd (fun _ => 0) true k w s
def execVrmin (k : Issue) (w : YWord) (s : State) :=
  vecReduce intTys (fun _ => 4) eMin (fun t => wrapTo t.bits (t.intRange.getD (0, 0)).2) true k w s
def execVrmax (k : Issue) (w : YWord) (s : State) :=
  vecReduce intTys (fun _ => 4) eMax (fun t => wrapTo t.bits (t.intRange.getD (0, 0)).1) true k w s
def execVrfadd (k : Issue) (w : YWord) (s : State) :=
  vecReduce fpTys (fun w => if w.elem.bits = 16 then 32 else 28) (fun t => fAdd (fmtOf t)) (fun t => signCode (fmtOf t) true 0) false k w s
def execVrfmin (k : Issue) (w : YWord) (s : State) :=
  vecReduce fpTys (fun _ => 8) (fun t => fMin (fmtOf t)) (fun t => infCode (fmtOf t) false) false k w s
def execVrfmax (k : Issue) (w : YWord) (s : State) :=
  vecReduce fpTys (fun _ => 8) (fun t => fMax (fmtOf t)) (fun t => infCode (fmtOf t) true) false k w s

/-! ### PX20 arithmetic (R192) -/

def pxSat (x : Nat) : Nat := min x 0xFFFFF
def pxAdd (a b : Nat) : Nat := pxSat (a % 2 ^ 20 + b % 2 ^ 20)
def pxSub (a b : Nat) : Nat := a % 2 ^ 20 - b % 2 ^ 20
/-- The product of two values c x 2^-16, rounded once. -/
def pxMul (a b : Nat) : Nat := pxSat (roundNat .rna ((a % 2 ^ 20) * (b % 2 ^ 20)) 65536)
/-- A PX20 value times an FP32 factor. -/
def pxScl (a f : Nat) : Nat :=
  let c : Nat := a % 2 ^ 20
  match decodeFloat fmtFP32 f with
  | .nan => 0
  | .inf neg => if c = 0 || neg then 0 else 0xFFFFF
  | .fin _ q => (clampInt 0 0xFFFFF (roundInt .rna ((ExactQ.ofInt (c : Int)).mul q))).toNat
def vecPx (lat : Nat) (f : Nat → Nat → Nat) (k : Issue) (w : YWord) (s : State) : Host.Outcome State Fault Refusal :=
  yubenOut k w (vecSpec w false [0xC] lat) (fun _ s =>
    .done (s.vputLanes k w (fun l => f ((s.vget k w.a).lane l) ((s.vget k w.b).lane l)))) s
def execVpxadd (k : Issue) (w : YWord) (s : State) := vecPx 1 pxAdd k w s
def execVpxsub (k : Issue) (w : YWord) (s : State) := vecPx 1 pxSub k w s
def execVpxmul (k : Issue) (w : YWord) (s : State) := vecPx 3 pxMul k w s
def execVpxscl (k : Issue) (w : YWord) (s : State) := vecPx 4 pxScl k w s

end Sys2Proof.Machine
end

