-- ==== Sys2Proof/Machine/TilePlan.lean ====
section
/-! DEFINITION. The fields of a task slot (R232), and what the tiler makes of a tiled operation (R240 to R249): its checks, tiles, parts, work
items and their passes, and the progress record. -/

namespace Sys2Proof.Machine

/-! ### Fields of a slot (R232) -/

def State.slotPrio (s : State) (t : Nat) : Nat := s.slotField t 0 1 / 16
def State.slotClass (s : State) (t : Nat) : Nat := bitsOf (s.slotField t 0 4) 10 8
def State.slotPreempt (s : State) (t : Nat) : Bool := (s.slotField t 0 4).testBit 11
def State.slotKind (s : State) (t : Nat) : Nat := bitsOf (s.slotField t 0 4) 15 12
def State.slotUnits (s : State) (t : Nat) : Nat := bitsOf (s.slotField t 8 4) 8 4
def State.accFirst (s : State) (t : Nat) : Nat := bitsOf (s.slotField t 0x0C 4) 10 0
def State.accCount (s : State) (t : Nat) : Nat := bitsOf (s.slotField t 0x0C 4) 26 16
def State.savePages (s : State) (t : Nat) : Nat := s.slotField t 0x88 4
def State.slotGroup (s : State) (t : Nat) : Nat := s.slotField t 0xA8 2
/-- First number and count of a range field: tally counters, rings, queues. -/
def State.tallyRange (s : State) (t : Nat) : Nat × Nat := (bitsOf (s.slotField t 0x8C 4) 5 0, bitsOf (s.slotField t 0x8C 4) 13 8)
def State.ringRange (s : State) (t : Nat) : Nat × Nat := (s.slotField t 0x90 1, s.slotField t 0x91 1)
def State.queueRange (s : State) (t : Nat) : Nat × Nat := (s.slotField t 0x94 1, s.slotField t 0x95 1)
/-- Slots other than 0 that hold anything, ascending. -/
def State.usedSlots (s : State) : List Nat :=
  ((s.tcc.table.map (fun c => c.1 / 256)).eraseDups).filter (fun t => decide (0 < t) && decide (t < 16384))
def State.slotsIn (s : State) (st : Nat) : List Nat := s.usedSlots.filter (fun t => s.taskState t == st)

/-- States in which a task holds its core, units, rows, rings, queues and counters. -/
def holdsUnits (st : Nat) : Bool := [2, 3, 4, 5, 7, 10].contains st
def State.placed (s : State) : List Nat := s.usedSlots.filter (fun t => holdsUnits (s.taskState t))

/-! ### The operation descriptor (R240) -/

/-- The tiled operation descriptor's address: region, offset. -/
def spaceOf (a : Nat) : Nat := bitsOf a 63 60
/-- Read a task address of a task, DRAM through the shared cache (R144): none when it is refused. -/
def State.readTask (s : State) (t a len : Nat) : Option (State × List Byte × Bool) :=
  let o := bitsOf a 47 0
  if spaceOf a < 4 then
    let g := s.spadRegion t (spaceOf a)
    if g.admits o len false && s.unitUsable g.slice && s.banksOn g.slice (g.base + o) len then some (s.readSlice g.slice (g.base + o) len)
    else none
  else if spaceOf a < 8 then
    let g := s.dramRegion t (spaceOf a - 4)
    if g.base + o + len ≤ g.bound ∧ g.base + o + len ≤ s.dramEnd then some (s.cacheRead (s.slotClass t) false (g.base + o) len) else none
  else none
/-- A task address field is well formed. -/
def taskAddrOk (a : Nat) : Bool := decide (spaceOf a < 8) && bitsOf a 59 48 == 0

/-- Byte offset of the first bad field of a tiled operation descriptor (R240). -/
def tiledBad (tally : Nat × Nat) (bs : List Byte) : Option Nat :=
  let w := fun o => leNat ((bs.drop o).take 4)
  let q := fun o => leNat ((bs.drop o).take 8)
  let inTally := fun c => decide (tally.1 ≤ c) && decide (c < tally.1 + tally.2)
  let checks : List (Nat × Bool) := [
    (0x00, decide (1 < bitsOf (w 0) 3 0) || decide (12 < bitsOf (w 0) 7 4) || (bitsOf (w 0) 3 0 == 0 && decide (12 < bitsOf (w 0) 11 8)) ||
      decide (12 < bitsOf (w 0) 15 12) || bitsOf (w 0) 17 16 == 3 || bitsOf (w 0) 19 18 == 3 || bitsOf (w 0) 31 23 != 0),
    (0x10, !taskAddrOk (q 0x10)), (0x18, !taskAddrOk (q 0x18)), (0x20, !taskAddrOk (q 0x20)),
    (0x38, !taskAddrOk (q 0x38)), (0x40, !taskAddrOk (q 0x40)), (0x48, !taskAddrOk (q 0x48)), (0x50, !taskAddrOk (q 0x50)),
    (0x58, !taskAddrOk (q 0x58)),
    (0x60, bitsOf (w 0x60) 2 0 == 7 || bitsOf (w 0x60) 5 3 == 7 || bitsOf (w 0x60) 8 6 == 7 || bitsOf (w 0x60) 11 10 == 3 ||
      bitsOf (w 0x60) 9 9 != 0 || bitsOf (w 0x60) 31 18 != 0),
    (0x70, !inTally (bitsOf (w 0x70) 5 0) || !inTally (bitsOf (w 0x70) 13 8) || bitsOf (w 0x70) 7 6 != 0 || bitsOf (w 0x70) 31 14 != 0),
    (0x74, bitsOf (w 0x74) 31 24 != 0), (0x7C, w 0x7C != 0)]
  (checks.find? (fun c => c.2)).map (fun c => c.1)
/-- Byte offset of the first bad address in a pointer list: an A address of all ones is allowed. -/
def pointersBad : Nat → Nat → List Byte → Option Nat
  | 0, _, _ => none
  | n + 1, o, bs =>
    let q := fun k => leNat ((bs.drop (8 * k)).take 8)
    if q 0 != 2 ^ 64 - 1 && !taskAddrOk (q 0) then some o
    else if !taskAddrOk (q 1) then some (o + 8)
    else if !taskAddrOk (q 2) then some (o + 16)
    else if !taskAddrOk (q 3) then some (o + 24)
    else pointersBad n (o + 32) (bs.drop 32)

/-- A 4-byte or 8-byte field of an operation descriptor. -/
def tWord (bs : List Byte) (o : Nat) : Nat := leNat ((bs.drop o).take 4)
def tAddr (bs : List Byte) (o : Nat) : Nat := leNat ((bs.drop o).take 8)
def tPool (bs : List Byte) : Bool := bitsOf (tWord bs 0) 3 0 == 1
def tAType (bs : List Byte) : Nat := bitsOf (tWord bs 0) 7 4
def tWType (bs : List Byte) : Nat := bitsOf (tWord bs 0) 11 8
def tDType (bs : List Byte) : Nat := bitsOf (tWord bs 0) 15 12
def tPadMode (bs : List Byte) : Nat := bitsOf (tWord bs 0) 17 16
def tM (bs : List Byte) : Nat := tWord bs 0x04
def tK (bs : List Byte) : Nat := tWord bs 0x08
def tN (bs : List Byte) : Nat := tWord bs 0x0C
/-- Entries of the operation: the pointer list's, or the operands of the descriptor once. -/
def tEntries (bs : List Byte) : Nat := max 1 (tWord bs 0x34)
/-- The addresses of A, B, C and the scale tensor of an entry. -/
def tPointers (bs ptrs : List Byte) (e : Nat) : List Nat :=
  if tWord bs 0x34 = 0 then [tAddr bs 0x10, tAddr bs 0x18, tAddr bs 0x20, tAddr bs 0x40]
  else (List.range 4).map (fun i => tAddr ptrs (32 * e + 8 * i))
/-- An entry whose A rows are all padding. -/
def allPadding (a : Nat) : Bool := a == 2 ^ 64 - 1
/-- A matmul names the padding that the grid does not have for an entry that is all padding (R241): refused as its descriptor's first word is
(log 49). -/
def noPadding (bs ptrs : List Byte) : Bool :=
  !tPool bs && tPadMode bs == 1 && (List.range (tEntries bs)).any (fun e => allPadding ((tPointers bs ptrs e).headD 0))

/-! ### Tiles, parts and work items (R242 to R245) -/

/-- The nesting of the loops over m, n and k tiles, outermost first (R242). The code 6, the tiler's choice, is taken as 0 (R243). -/
def loopOrder : Nat → List Nat
  | 1 => [0, 2, 1]
  | 2 => [1, 0, 2]
  | 3 => [1, 2, 0]
  | 4 => [2, 0, 1]
  | 5 => [2, 1, 0]
  | _ => [0, 1, 2]
/-- Extents along m, n and k, or a place among them. -/
structure Tiles where
  m : Nat
  n : Nat
  k : Nat
deriving DecidableEq, Repr
def Tiles.get (t : Tiles) (d : Nat) : Nat := if d = 0 then t.m else if d = 1 then t.n else t.k
def Tiles.set (t : Tiles) (d v : Nat) : Tiles := if d = 0 then { t with m := v } else if d = 1 then { t with n := v } else { t with k := v }
def Tiles.count (t : Tiles) : Nat := t.m * t.n * t.k
/-- Every place of a box, in the order of nested loops. -/
def visitLoops : List Nat → Tiles → Tiles → List Tiles
  | [], _, at_ => [at_]
  | d :: r, box, at_ => (List.range (box.get d)).flatMap (fun i => visitLoops r box (at_.set d i))
def visitBox (order : Nat) (box : Tiles) : List Tiles := visitLoops (loopOrder order) box ⟨0, 0, 0⟩
def divUp (a b : Tiles) : Tiles := ⟨ceilDiv a.m b.m, ceilDiv a.n b.n, ceilDiv a.k b.k⟩
/-- The place of a box's first unit, in units of `size`. -/
def Tiles.scale (t size : Tiles) : Tiles := ⟨t.m * size.m, t.n * size.n, t.k * size.k⟩
def Tiles.add (t u : Tiles) : Tiles := ⟨t.m + u.m, t.n + u.n, t.k + u.k⟩
/-- Every tile, in visit order: blocks of level 0, blocks of level 1 within them, tiles within those (R242). -/
def visitTiles (order : Nat) (total block super : Tiles) : List Tiles :=
  (visitBox (bitsOf order 2 0) (divUp (divUp total block) super)).flatMap (fun z =>
    (visitBox (bitsOf order 5 3) super).flatMap (fun y =>
      ((visitBox (bitsOf order 8 6) block).map (fun x => (((z.scale super).add y).scale block).add x)).filter
        (fun x => decide (x.m < total.m) && decide (x.n < total.n) && decide (x.k < total.k))))

/-- The larger of two blocks; the first of equal ones. -/
def largerOf (a b : Tiles) : Tiles := if a.count < b.count then b else a
/-- The largest block of at most `lim` tiles whose cost (A per m and k tile, B per k and n, C and the combine buffer per m and n) fits a capacity;
one tile where none does. Of equal blocks the model takes the first with the fewest n, then k tiles (log 49). -/
def largestBlock (lim : Tiles) (a b c cap : Nat) : Tiles :=
  ((List.range (min lim.n (cap / max 1 b + 1))).flatMap (fun n => (List.range (min lim.k (cap / max 1 b + 1))).map (fun k => (n + 1, k + 1)))).foldl
    (fun best (nk : Nat × Nat) =>
      let per := nk.2 * a + nk.1 * c
      let m := if cap < nk.1 * nk.2 * b then 0 else if per = 0 then lim.m else min lim.m ((cap - nk.1 * nk.2 * b) / per)
      largerOf best ⟨m, nk.1, nk.2⟩) ⟨1, 1, 1⟩

/-- The choices of the tiler (R243). -/
structure TilePlan where
  tm : Nat
  tn : Nat
  tk : Nat
  parts : Nat
  spill : Bool
  total : Tiles
  block : Tiles
  super : Tiles
deriving DecidableEq, Repr
/-- Bytes of a task's scratchpad regions. -/
def State.regionBytes (s : State) (t : Nat) : Nat := ((List.range 4).map (fun r => (s.spadRegion t r).bound - (s.spadRegion t r).base)).foldl (· + ·) 0
/-- Tasks that share an operation: each drives one unit at a time. -/
def State.groupSize (s : State) (t : Nat) : Nat := if s.slotGroup t = 0 then 1 else max 1 (s.slotField t 0xAB 1)
/-- The word of a grid descriptor that gives the types. -/
def tTypes (bs : List Byte) : Nat := tAType bs * 2 ^ 24 + tWType bs * 2 ^ 20 + tDType bs * 2 ^ 16
/-- The pseudocode of R243. Where it leaves a size open, an m tile of level 1 is min(M, rows) rows (log 49). -/
def State.tilePlan (s : State) (t : Nat) (bs : List Byte) : TilePlan :=
  let u := if s.flag F.GRID_CTRL_QUARTER then 0 else 4
  let m := tM bs
  let k := tK bs
  let tk := max 1 (min k (tileK u [tTypes bs]))
  let tn := max 1 (min (tN bs) (tileN u))
  let nk := ceilDiv k tk
  let rows := s.accCount t
  let most := max 1 (min m rows)
  let nn := ceilDiv (tN bs) tn
  let items := tEntries bs * ceilDiv m most * nn
  let forced := ceilDiv k (2 ^ 24)
  let parts := if tPool bs then 1
    else if items < s.groupSize t then max forced (min (min (max 1 (bitsOf (tWord bs 0x60) 17 12)) (s.groupSize t)) nk) else max 1 forced
  let lx := if 1 < parts then parts * most * tn * 16 else 0
  let a := most * packedBytes (tAType bs) tk
  let b := tk * tilePitch (tWType bs) tn
  let block := largestBlock ⟨ceilDiv m most, nn, nk⟩ a b (most * packedBytes (tDType bs) tn + lx) (s.regionBytes t)
  let order := bitsOf (tWord bs 0x60) 8 6
  let live := if order = 1 then block.n else if order = 3 then block.m else if order = 4 ∨ order = 5 then block.m * block.n else 1
  let high := min m (rows / (2 * live))
  let spill := decide (high < 8)
  let tm := max 1 (if spill then min m (rows / 2) else high / 8 * 8)
  let cache := countBits (s.getF (F.SHC_WAYS_c_MASK 3)) 16 * 2 ^ 20
  let super := largestBlock (divUp ⟨ceilDiv m most, nn, nk⟩ block) (block.m * block.k * a) (block.k * block.n * b) 0 cache
  { tm := tm, tn := tn, tk := tk, parts := parts, spill := spill && !tPool bs, total := ⟨ceilDiv m tm, nn, nk⟩,
    block := ⟨max 1 (block.m * most / tm), block.n, block.k⟩, super := super }

/-- The part of a k tile: parts take equal shares of the k tiles, in order. -/
def TilePlan.partOf (p : TilePlan) (c : Nat) : Nat := c * p.parts / max 1 p.total.k
/-- A work item: entry, m tile, n tile, part (R244). -/
structure WorkItem where
  entry : Nat
  m : Nat
  n : Nat
  part : Nat
deriving DecidableEq, Repr
/-- The work items in the order of their numbers: entry by entry, each in visit order (R243). -/
def TilePlan.items (p : TilePlan) (bs : List Byte) : List WorkItem :=
  (List.range (tEntries bs)).flatMap (fun e =>
    ((visitTiles (tWord bs 0x60) p.total p.block p.super).map (fun x => (⟨e, x.m, x.n, p.partOf x.k⟩ : WorkItem))).eraseDups)
def TilePlan.itemCount (p : TilePlan) (bs : List Byte) : Nat := tEntries bs * p.total.m * p.total.n * p.parts
/-- The tiles to be combined: those of part 0 (R246). -/
def TilePlan.combines (p : TilePlan) (bs : List Byte) : List WorkItem := if p.parts ≤ 1 then [] else (p.items bs).filter (fun x => x.part == 0)

/-! ### The passes of an item and of a combine (R244, R246, R247) -/

/-- A pass to issue: what it does, its k tile or part, whether it overwrites, its claim. -/
structure TileStep where
  role : TileRole
  index : Nat := 0
  start : Bool := true
  claim : Nat := 0
deriving DecidableEq, Repr
/-- The k tiles of an item's part. -/
def TilePlan.kTiles (p : TilePlan) (x : WorkItem) : List Nat := (List.range p.total.k).filter (fun c => p.partOf c == x.part)
/-- The passes of an item: over its k tiles, starting with an overwrite; partial sums kept in the scratchpad between them where it spills; then a
drain to C, or of the part to the combine buffer. -/
def TilePlan.itemSteps (p : TilePlan) (x : WorkItem) : List TileStep :=
  let first := (p.kTiles x).headD 0
  ((p.kTiles x).flatMap (fun c =>
    (if p.spill && c != first then [{ role := .spillIn }] else []) ++ [{ role := .product, index := c, start := c == first }] ++
    (if p.spill then [{ role := .spillOut }] else []))) ++
  [{ role := if p.parts ≤ 1 then .drain else .partOut, index := x.part }]
/-- The passes of a combine: part 0 overwrites with claim 1, part p adds with claim (p mod 31) + 1; then the drain (R246). -/
def TilePlan.combineSteps (p : TilePlan) : List TileStep :=
  (List.range p.parts).map (fun i => { role := .partIn, index := i, start := i == 0, claim := if i = 0 then 1 else i % 31 + 1 }) ++ [{ role := .drain }]

/-- The tiler of a tiled task. -/
def State.tiler? (s : State) (t : Nat) : Option Tiler := if s.slotKind t = 1 then SMap.find? s.tcc.tilers t else none
def State.setTiler (s : State) (t : Nat) (x : Tiler) : State :=
  { s with tcc := { s.tcc with tilers := SMap.insert (SMap.erase s.tcc.tilers t) t x } }
/-- Key of an item's part in the combine buffers: the group, or the task that is in none, and the item's tile and part. -/
def State.partKey (s : State) (t : Nat) (p : TilePlan) (x : WorkItem) (part : Nat) : Nat :=
  (if s.slotGroup t = 0 then t else 16384 + s.slotGroup t) * 2 ^ 128 + ((x.entry * p.total.m + x.m) * p.total.n + x.n) * 64 + part
def State.partRows (s : State) (key : Nat) : List (List Nat) := SMap.get (fun _ => []) s.tcc.parts key
def State.setPart (s : State) (key : Nat) (l : List (List Nat)) : State :=
  { s with tcc := { s.tcc with parts := SMap.set (fun _ => []) s.tcc.parts key l } }

/-- The work that the tiler's next pass belongs to: the item taken, else the next combine once every part is finished, for rank 0 (R246). -/
def State.tilerWork (s : State) (t : Nat) (x : Tiler) : Option (WorkItem × Bool × List TileStep) :=
  let p := s.tilePlan t x.desc
  match x.item with
  | some i => match (p.items x.desc)[i]? with
    | some w => some (w, false, p.itemSteps w)
    | none => none
  | none =>
    if s.slotField t 0xAA 1 = 0 ∧ p.itemCount x.desc ≤ s.getF (F.QUE_TALLY_i_VALUE (bitsOf (tWord x.desc 0x70) 13 8)) then
      match (p.combines x.desc)[x.combines]? with
      | some w => some (w, true, p.combineSteps)
      | none => none
    else none

/-! ### The progress record (R249) -/

/-- The progress record can be written: 16 bytes at offset 0 of SREG0. -/
def State.progressOk (s : State) (t : Nat) : Bool :=
  let g := s.spadRegion t 0
  g.admits 0 16 true && s.unitUsable g.slice && s.banksOn g.slice g.base 16
/-- Write CLAIMED, all ones for none, or the combines applied. -/
def State.putClaimed (s : State) (t : Nat) (v : Option Nat) : State :=
  let g := s.spadRegion t 0
  if s.progressOk t then s.writeSlice g.slice g.base (leBytes 8 (v.getD (2 ^ 64 - 1))) else s
def State.putCombines (s : State) (t n : Nat) : State :=
  let g := s.spadRegion t 0
  if s.progressOk t then s.writeSlice g.slice (g.base + 8) (leBytes 8 n) else s
/-! ### The checks at the start (R240, R243, R245, R247) -/

/-- The check of a tiled operation when its task starts: the state, and the fault it meets, or the tiler. -/
def State.tiledCheck (s : State) (t : Nat) : State × ((Nat × Nat) ⊕ Tiler) :=
  let a := s.slotField t 0x78 8
  match (if bitsOf a 47 0 % 64 = 0 then s.readTask t a 128 else none) with
  | none => (s, .inl (4, 0))
  | some (s, bs, bad) =>
    if bad then (s, .inl (4, 0))
    else match tiledBad (s.tallyRange t) bs with
      | some o => (s, .inl (4, o))
      | none =>
        if tK bs > 63 * 2 ^ 24 then (s, .inl (5, tK bs))
        else if tWord bs 0x34 = 0 then (s, .inr { desc := bs })
        else match s.readTask t (tAddr bs 0x38) (32 * tWord bs 0x34) with
          | none => (s, .inl (4, 0x38))
          | some (s, pl, bad) =>
            if bad then (s, .inl (4, 0x38))
            else match pointersBad (tWord bs 0x34) 0 pl with
              | some o => (s, .inl (4, o))
              | none => if noPadding bs pl then (s, .inl (4, 0)) else (s, .inr { desc := bs, ptrs := pl })
/-- A tiled task starts: the Rulebook's kernel is in its core's batch range (R233), the progress record names no item; an operation that spills is counted once, at its rank 0, and
recorded (R247). -/
def State.startTiler (s : State) (t : Nat) (x : Tiler) : State :=
  let s := (((s.putKernel (s.taskCore t)).setTiler t x).putClaimed t none).putCombines t 0
  if (s.tilePlan t x.desc).spill && s.slotField t 0xAA 1 == 0 then (s.bumpF F.TASK_EVT_SPILL).record 0x07 0 t else s

/-! ### Resume (R249) -/

/-- A tiled task resumes: it redoes the item in CLAIMED from its overwrite, which is counted, and rank 0 the first combine that the record does
not count. -/
def State.redoItem (s : State) (t : Nat) : State :=
  match s.tiler? t with
  | none => s
  | some x =>
    let g := s.spadRegion t 0
    let claimed := s.sliceNat g.slice g.base 8
    let item := if claimed = 2 ^ 64 - 1 ∨ s.progressOk t = false then none else some claimed
    let s := s.setTiler t { x with item := item, step := 0, combines := s.sliceNat g.slice (g.base + 8) 8, held := none }
    if item.isSome then s.bumpF F.TASK_EVT2_REDO else s

end Sys2Proof.Machine
end

