-- ==== Sys2Proof/Machine/Tasks.lean ====
section
/-! DEFINITION. Batch tasks: placement and preemption (R237, R238), tiled operations (R240 to R247), pause, save and
resume (R248 to R254), cancel (R143). -/

namespace Sys2Proof.Machine

/-! ### Placement (R234, R237, R238, R253) -/

/-- Two ranges of numbers meet. -/
def rangesMeet (a b : Nat × Nat) : Bool :=
  decide (0 < a.2) && decide (0 < b.2) && decide (a.1 < b.1 + b.2) && decide (b.1 < a.1 + a.2)
/-- Two tasks of one group: those of a tiled group share their counters (R233). -/
def State.sameGroup (s : State) (t u : Nat) : Bool := s.slotGroup t != 0 && s.slotGroup t == s.slotGroup u
/-- Two tasks want the same thing. -/
def State.tasksMeet (s : State) (t u : Nat) : Bool :=
  s.taskCore t == s.taskCore u || rangesMeet (s.ringRange t) (s.ringRange u) || rangesMeet (s.queueRange t) (s.queueRange u) ||
  (rangesMeet (s.tallyRange t) (s.tallyRange u) && !s.sameGroup t u) ||
  (s.slotUnits t &&& s.slotUnits u != 0 && rangesMeet (s.accFirst t, s.accCount t) (s.accFirst u, s.accCount u))
/-- The task's rows meet rows that the line task declares. -/
def State.meetsLineRows (s : State) (t : Nat) : Bool :=
  s.seq.list.accRows.any (fun (u, first, n) =>
    (s.slotUnits t).testBit (s.passUnit u) && rangesMeet (s.accFirst t, s.accCount t) (first, n))
/-- The task names a ring that the loaded bundle's line task holds. -/
def State.meetsLineRings (s : State) (t : Nat) : Bool :=
  s.seq.bundle.isSome && s.seq.list.rings.any (fun x => rangesMeet (s.ringRange t) (x.ring, 1))
/-- What stands in the way of a task: the placed tasks it meets. -/
def State.blockers (s : State) (t : Nat) : List Nat := s.placed.filter (fun u => u != t && s.tasksMeet t u)
/-- A task can be placed: everything it names is free. -/
def State.placeable (s : State) (t : Nat) : Bool :=
  (s.blockers t).isEmpty && !s.meetsLineRows t && !s.meetsLineRings t && s.unitUsable (s.taskCore t)

/-- A TASK STARTS: its core's batch context takes it from its entry, with its argument in s30 (R232, R236). A tiled task
runs a Rulebook kernel from the start of the batch range, once its descriptor has passed. -/
def State.startTask (s : State) (t : Nat) : State :=
  let n := s.taskCore t
  let kind := s.slotKind t
  let entry := if kind = 1 then s.getF (F.VC_n_CTRL_LINE_END n) else s.slotField t 0x70 4 % 16384
  let s := s.setTaskState t 2
  let s := s.setVcore n { s.vcore n with batchTask := t, batchRun := true, batchFault := false }
  let s := s.setYctx n .batch { pc := entry, nextIssue := (s.yctx n .batch).nextIssue }
  let s := { s with yu := { s.yu with sreg := SMap.set (fun _ => 0#64) s.yu.sreg ((n * 2 + 1) * 32 + 30) (BitVec.ofNat 64 (s.slotField t 0x74 4)) } }
  let s := s.setF (F.VC_n_CTRL_BATCH_EN n) 1
  let s := { s with tcc := { s.tcc with startOrder := s.tcc.startOrder.filter (fun x => x != t) ++ [t] } }
  if kind = 1 then
    match s.tiledCheck t with
    | (s, .inl (code, info)) => s.failTask t code 0 info
    | (s, .inr x) => s.startTiler t x
  else s

/-- Stop a batch context where it is: an instruction that waits issues again on resume (R248). -/
def State.stopBatch (s : State) (n : Nat) : State :=
  let c := s.yctx n .batch
  let c := match c.wait, c.back with
    | some .resource, _ => { c with wait := none }
    | some _, some (pc, l0, l1) => { c with wait := none, back := none, pc := pc, loop0 := l0, loop1 := l1 }
    | _, _ => c
  (s.setYctx n .batch c).setVcore n { s.vcore n with batchRun := false }
/-- RUNNING to PAUSING. -/
def State.pauseSlot (s : State) (t : Nat) : State :=
  if s.taskState t = 2 then
    let s := { s with tcc := { s.tcc with pauseRound := SMap.set (fun _ => 0) s.tcc.pauseRound t s.tt.round } }
    (s.setTaskState t 3).stopBatch (s.taskCore t)
  else s
/-- The members of a slot's group, or the slot alone (R234). -/
def State.groupOf (s : State) (t : Nat) : List Nat :=
  if s.slotGroup t = 0 then [t] else s.usedSlots.filter (fun u => s.slotGroup u == s.slotGroup t && s.taskState u != 0)
def State.pauseAll (s : State) : List Nat → State
  | [] => s
  | t :: r => State.pauseAll (s.pauseSlot t) r

/-- Start the tasks of a unit of placement together, if each can be placed beside those before it. -/
def State.placeAll (s : State) : List Nat → Option State
  | [] => some s
  | t :: r => if s.placeable t then State.placeAll (s.startTask t) r else none
/-- Insert into an ordered list of slots. -/
def insertReady (before : Nat → Nat → Bool) (t : Nat) : List Nat → List Nat
  | [] => [t]
  | u :: r => if before t u then t :: u :: r else u :: insertReady before t r
/-- Preemption takes the lowest priority first and, among equals, the most recently started (R238). -/
def State.preemptFirst (s : State) (t u : Nat) : Bool :=
  decide (s.slotPrio t < s.slotPrio u) || (s.slotPrio t == s.slotPrio u && decide (s.tcc.startOrder.idxOf u < s.tcc.startOrder.idxOf t))
/-- The placed tasks in the way of a unit, each with its group, if preempting them would let the unit be placed. -/
def State.victims (s : State) (unit : List Nat) : Option (List Nat) :=
  let p := unit.foldl (fun a t => max a (s.slotPrio t)) 0
  let v := ((unit.map s.blockers).flatten.map s.groupOf).flatten.eraseDups
  let ok := v.all (fun u => s.taskState u == 2 && s.slotPreempt u && decide (s.slotPrio u < p)) &&
    unit.all (fun t => !s.meetsLineRows t && !s.meetsLineRings t && s.unitUsable (s.taskCore t)) &&
    unit.all (fun t => unit.all (fun u => t == u || !s.tasksMeet t u))
  if ok && !v.isEmpty then some (v.foldl (fun l t => insertReady s.preemptFirst t l) []) else none
/-- Preempt tasks: they pass through PAUSING and PAUSED to SAVED, and the TCC resumes them (R238). -/
def State.preempt (s : State) : List Nat → State
  | [] => s
  | t :: r =>
    let s := ((s.bumpF F.TASK_EVT_PREEMPT).record 0x07 0 t).pauseSlot t
    State.preempt { s with tcc := { s.tcc with autoResume := s.tcc.autoResume ++ [t], preempted := s.tcc.preempted ++ [t] } } r

/-- The order of R237: priority from the highest, then SUBMIT_ROUND, then slot. -/
def State.readyBefore (s : State) (t u : Nat) : Bool :=
  if s.slotPrio t ≠ s.slotPrio u then decide (s.slotPrio u < s.slotPrio t)
  else if s.slotField t 0x98 8 ≠ s.slotField u 0x98 8 then decide (s.slotField t 0x98 8 < s.slotField u 0x98 8)
  else decide (t < u)
/-- What the TCC considers at a boundary: READY tasks, and preempted tasks that are SAVED, which stand as READY (R238). A task accepted on the
turn's start tick belongs to that turn (R48, R236). -/
def State.readyOrder (s : State) : List Nat :=
  (((s.slotsIn 1).filter (fun t => decide (SMap.get (fun _ => 0) s.tcc.readyFrom t ≤ s.tt.start))) ++
    (s.slotsIn 6).filter (fun t => s.tcc.preempted.contains t)).foldl (fun l t => insertReady s.readyBefore t l) []

/-! ### Save and restore (R250 to R253) -/

/-- One section of a save: type, argument, bytes. -/
structure SaveSection where
  typ : Nat
  arg : Nat
  bytes : List Byte
deriving DecidableEq, Repr

def State.coreSreg (s : State) (n r : Nat) : Nat := if r = 0 then 0 else (SMap.get (fun _ => 0#64) s.yu.sreg ((n * 2 + 1) * 32 + r)).toNat
def State.coreVreg (s : State) (n r : Nat) : Nat := (SMap.get (fun _ => 0#4096) s.yu.vreg ((n * 2 + 1) * 32 + r)).toNat
def State.corePreg (s : State) (n r : Nat) : Nat := if r = 0 then 2 ^ 128 - 1 else (SMap.get (fun _ => 0#128) s.yu.preg ((n * 2 + 1) * 32 + r)).toNat
def loopBytes (l : LoopLevel) : List Byte := leBytes 4 l.start ++ leBytes 4 l.stop ++ leBytes 4 l.count ++ leBytes 4 (if l.count = 0 then 0 else 1)
/-- Section 0x1: the core context. -/
def State.coreSection (s : State) (n : Nat) : SaveSection :=
  let c := s.yctx n .batch
  ⟨1, n, ((List.range 32).map (fun r => leBytes 512 (s.coreVreg n r))).flatten ++ ((List.range 32).map (fun r => leBytes 8 (s.coreSreg n r))).flatten ++
    ((List.range 8).map (fun r => leBytes 16 (s.corePreg n r))).flatten ++ loopBytes c.loop0 ++ loopBytes c.loop1 ++ leBytes 4 c.pc ++
    List.replicate 92 0#8⟩
/-- Read accumulator words in row-major order, or the device address of one that is uncorrectable or poisoned. -/
def State.saveWords (s : State) : List Nat → State × Except Nat (List Byte)
  | [] => (s, .ok [])
  | i :: r =>
    match s.readAcc i with
    | (s, none) => (s, .error (0x1008000000 + i * 16))
    | (s, some w) =>
      match State.saveWords s r with
      | (s, .error a) => (s, .error a)
      | (s, .ok l) => (s, .ok (leBytes 16 w.toNat ++ l))
/-- The rows of one unit: a RAW drain pass (R250, log 205). -/
def State.accSectionOf (s : State) (t u : Nat) : State × Except Nat SaveSection :=
  let idx := ((List.range (s.accCount t)).map (fun r => (List.range (tileN u)).map (fun c => s.accIndex u (s.accFirst t + r) c))).flatten
  match (s.countPasses u 1 (s.accCount t * ceilDiv (tileN u) 32)).saveWords idx with
  | (s, .error a) => (s, .error a)
  | (s, .ok bs) =>
    (s, .ok ⟨2, 0x10 + u, leBytes 2 (s.accFirst t) ++ leBytes 2 (s.accCount t) ++ leBytes 2 0 ++ leBytes 2 (tileN u) ++ List.replicate 8 0#8 ++ bs⟩)
def State.ringSection (s : State) (r : Nat) : SaveSection :=
  ⟨3, r, leBytes 4 (s.reg (R.QUE_RING_r_CFG r)).toNat ++ leBytes 4 (s.ringHead r) ++ leBytes 4 (s.ringTail r) ++ leBytes 4 0 ++
    ((List.range 64).map (fun i => leBytes 4 ((if s.slotReady r i then 2 ^ 31 else 0) + s.slotGen r i))).flatten⟩
def State.queueSection (s : State) (q : Nat) : SaveSection :=
  let h := s.getF (F.QUE_HQ_q_HEAD q)
  let l := s.hqOf q
  ⟨4, q, leBytes 4 h ++ leBytes 4 (s.getF (F.QUE_HQ_q_TAIL q)) ++ leBytes 4 l.length ++ leBytes 4 0 ++
    ((List.range 64).map (fun i => leBytes 4 (l.getD ((i + 64 - h) % 64) 0))).flatten⟩
def State.tallySection (s : State) (r : Nat × Nat) : SaveSection :=
  ⟨5, r.1, leBytes 4 r.2 ++ ((List.range r.2).map (fun i => leBytes 4 (s.getF (F.QUE_TALLY_i_VALUE (r.1 + i))))).flatten⟩
def State.regionSection (s : State) (t r : Nat) : State × Except Nat SaveSection :=
  let g := s.spadRegion t r
  match s.readSlice g.slice g.base (g.bound - g.base) with
  | (s', bs, bad) => (s', if bad then .error (s.firstBadWord (sliceAddr g.slice g.base) (g.bound - g.base)) else .ok ⟨6, r, bs⟩)

/-- Read sections one after another, up to one that meets uncorrectable data: its device address. -/
def gatherSections : List (State → State × Except Nat SaveSection) → State → State × Except Nat (List SaveSection)
  | [], s => (s, .ok [])
  | f :: r, s =>
    match f s with
    | (s, .error a) => (s, .error a)
    | (s, .ok x) =>
      match gatherSections r s with
      | (s, .error a) => (s, .error a)
      | (s, .ok l) => (s, .ok (x :: l))
def countUp (r : Nat × Nat) : List Nat := (List.range r.2).map (fun i => r.1 + i)
/-- Units whose rows, and regions whose bytes, a save holds. -/
def State.savedUnits (s : State) (t : Nat) : List Nat := (List.range 5).filter (fun u => (s.slotUnits t).testBit u)
def State.savedRegions (s : State) (t : Nat) : List Nat := (List.range 4).filter (fun r => decide ((s.spadRegion t r).base < (s.spadRegion t r).bound))
/-- The lengths of a task's sections, in type order (R252). -/
def State.sectionLens (s : State) (t : Nat) : List Nat :=
  (if s.slotKind t = 1 then [] else [16896]) ++ (if s.accCount t = 0 then [] else (s.savedUnits t).map (fun u => 16 + s.accCount t * tileN u * 16)) ++
  List.replicate ((s.ringRange t).2 + (s.queueRange t).2) 272 ++ (if (s.tallyRange t).2 = 0 then [] else [4 + 4 * (s.tallyRange t).2]) ++
  (s.savedRegions t).map (fun r => (s.spadRegion t r).bound - (s.spadRegion t r).base)
/-- The sections of a task, in type order. -/
def State.sectionsOf (s : State) (t : Nat) : State × Except Nat (List SaveSection) :=
  let pure := fun (f : State → SaveSection) => (fun (s : State) => ((s, .ok (f s)) : State × Except Nat SaveSection))
  let units := s.savedUnits t
  let regions := s.savedRegions t
  gatherSections ((if s.slotKind t = 1 then [] else [pure (fun s => s.coreSection (s.taskCore t))]) ++
    (if s.accCount t = 0 then [] else units.map (fun u => fun (s : State) => s.accSectionOf t u)) ++
    (countUp (s.ringRange t)).map (fun r => pure (fun s => s.ringSection r)) ++
    (countUp (s.queueRange t)).map (fun q => pure (fun s => s.queueSection q)) ++
    (if (s.tallyRange t).2 = 0 then [] else [pure (fun s => s.tallySection (s.tallyRange t))]) ++
    regions.map (fun r => fun (s : State) => s.regionSection t r)) s

/-- Offsets of sections at 4 KiB boundaries from `o` on. -/
def sectionOffsets : Nat → List SaveSection → List (Nat × SaveSection)
  | _, [] => []
  | o, x :: r => (o, x) :: sectionOffsets (o + ceilDiv x.bytes.length 4096 * 4096) r
/-- End of the last section. -/
def saveUsed (l : List (Nat × SaveSection)) : Nat := l.foldl (fun a x => max a (x.1 + x.2.bytes.length)) 4096
def padTo (n : Nat) (bs : List Byte) : List Byte := bs ++ List.replicate (n - bs.length) 0#8
/-- The header with a given HCRC (R251). -/
def saveHeader (s : State) (t hcrc : Nat) (l : List (Nat × SaveSection)) : List Byte :=
  padTo 4096 (leBytes 4 0x5653474E ++ leBytes 2 1 ++ leBytes 2 l.length ++ leBytes 8 (saveUsed l) ++ leBytes 4 t ++ leBytes 4 hcrc ++
    leBytes 8 (SMap.get (fun _ => 0) s.tcc.pauseRound t) ++ s.tableBytes t 0 256 ++
    padTo 1024 ((l.map (fun x => leBytes 2 x.2.typ ++ leBytes 2 x.2.arg ++ leBytes 4 (crc32c x.2.bytes) ++ leBytes 4 x.1 ++
      leBytes 4 x.2.bytes.length)).flatten))
/-- Write a save area. -/
def State.writeSave (s : State) (t : Nat) (l : List (Nat × SaveSection)) : State :=
  let base := s.slotField t 0x80 8
  let hdr := saveHeader s t (crc32c (saveHeader s t 0 l)) l
  l.foldl (fun s x => (s.writeDram (base + x.1) x.2.bytes).1) (s.writeDram base hdr).1

/-- End of sections laid out at 4 KiB boundaries from `o` on. -/
def lensEnd : Nat → Nat → List Nat → Nat
  | _, used, [] => used
  | o, _, n :: r => lensEnd (o + ceilDiv n 4096 * 4096) (o + n) r
/-- The bytes a save of the task needs. -/
def State.saveSize (s : State) (t : Nat) : Nat := lensEnd 4096 4096 (s.sectionLens t)
/-- A save fits its pages and its directory (R250, R251). -/
def State.saveFits (s : State) (t : Nat) : Bool := decide (s.saveSize t ≤ s.savePages t * 4096) && decide ((s.sectionLens t).length ≤ 64)
def State.saveBase (s : State) (t : Nat) : Nat := s.slotField t 0x80 8
/-- Requests to the save area wait for a channel that retrains, or are refused: unmapped, or on a lost channel (R22, R152). -/
def State.saveWaits (s : State) (t : Nat) : Bool := s.stripesWait (s.saveBase t) (s.saveSize t)
def State.saveRefused (s : State) (t : Nat) : Bool := decide (s.dramEnd < s.saveBase t + s.saveSize t) || s.stripesLost (s.saveBase t) (s.saveSize t)

/-- Take the request of a slot out of a list. -/
def findReq (t : Nat) (l : List (Nat × Option HostCmd)) : Option (Option HostCmd) := (l.find? (fun x => x.1 == t)).map (fun x => x.2)
def dropReq (t : Nat) (l : List (Nat × Option HostCmd)) : List (Nat × Option HostCmd) := l.filter (fun x => x.1 != t)
/-- Complete the command behind a request, if a command asked. -/
def State.answer (s : State) (r : Option (Option HostCmd)) (code : Nat) : State :=
  match r with
  | some (some c) => s.complete c code
  | _ => s

/-- Start saving a PAUSED task: a save that does not fit is not begun (R250). -/
def State.beginSave (s : State) (t : Nat) (by_ : Option HostCmd) : State :=
  if !s.saveFits t then
    match by_ with
    | some c => s.complete c 7
    | none => s
  else ({ s with tcc := { s.tcc with saveReq := s.tcc.saveReq ++ [(t, by_)] } }).setTaskState t 5

/-- What a task gives up when it is saved or ends: its core. -/
def State.leaveUnits (s : State) (t : Nat) : State := s.freeCore t

/-! ### Cancel (R143) -/

/-- Queued descriptors of a task that have not started complete with code 0x8. -/
def cancelQueued (t m : Nat) : List MoverDesc → State → State
  | [], s => s
  | d :: r, s =>
    if d.task = t ∧ d.issuer ≠ .moveList ∨ t = 0 ∧ d.task = 0 then
      cancelQueued t m r ((s.setMover m { s.mover m with queue := (s.mover m).queue.erase d }).finishDesc m d 8)
    else cancelQueued t m r s
def cancelMovers (t : Nat) : Nat → State → State
  | 0, s => s
  | m + 1, s => let s := cancelMovers t m s; cancelQueued t m (s.mover m).queue s
/-- Void every slot of a ring. -/
def voidAll (r : Nat) : Nat → State → State
  | 0, s => s
  | n + 1, s => voidAll r n (s.release r)
def voidRings : List Nat → State → State
  | [], s => s
  | r :: l, s => voidRings l (voidAll r (s.ringUsed r) s)
/-- Remove handles of rings from every queue. -/
def dropHandles (rings : List Nat) : Nat → State → State
  | 0, s => s
  | q + 1, s =>
    let s := dropHandles rings q s
    let l := (s.hqOf q).filter (fun h => !rings.contains (handleRing h))
    let gone := (s.hqOf q).length - l.length
    if gone = 0 then s
    else ((s.setHq q l).setF (F.QUE_HQ_q_HEAD q) ((s.getF (F.QUE_HQ_q_HEAD q) + gone) % 64)).setF (F.QUE_HQ_q_COUNT q) l.length
/-- BEGIN THE CANCEL of a batch task. -/
def State.beginCancel (s : State) (t : Nat) (by_ : Option HostCmd) : State :=
  let rings := (countUp (s.ringRange t)).filter (fun r => s.flag (F.QUE_RING_r_CFG_EN r))
  let s := if (s.vcore (s.taskCore t)).batchTask = t then s.stopBatch (s.taskCore t) else s
  let s := { s with tcc := { s.tcc with chains := s.tcc.chains.filter (fun c => c.task != t),
                                        halted := s.tcc.halted.filter (fun x => x != t),
                                        autoResume := s.tcc.autoResume.filter (fun x => x != t) } }
  let held := s.taskState t != 6
  let s := s.setTaskState t 10
  let s := cancelMovers t 16 s
  let s := if held then dropHandles rings 256 (voidRings rings s) else s
  { s with tcc := { s.tcc with cancelReq := s.tcc.cancelReq ++ [(t, by_)] } }
/-- CANCEL_BARRIER_COMPLETE: with nothing of the task in flight, the cancel completes. -/
def execCancelBarrierComplete (slot : Nat) (s : State) : Host.Outcome State Fault Refusal :=
  .next (if s.taskState slot == 10 && !s.workPending slot then
    let r := findReq slot s.tcc.cancelReq
    let s := { s with tcc := { s.tcc with cancelReq := dropReq slot s.tcc.cancelReq } }
    (((s.setTaskState slot 11).leaveUnits slot).answer r 0).taskRecord slot 9
  else s)

/-! ### Barriers and their ends (R236, R248, R250, R253) -/

/-- PAUSE_BARRIER_COMPLETE: the task's passes, descriptors and chains are done and its core's gathered bytes written. A task
preempted or stopped by a power entry goes on to be saved. -/
def execPauseBarrierComplete (slot : Nat) (s : State) : Host.Outcome State Fault Refusal :=
  .next (if s.taskState slot == 3 && !s.workPending slot then
    let r := findReq slot s.tcc.pauseReq
    let s := { s with tcc := { s.tcc with pauseReq := dropReq slot s.tcc.pauseReq } }
    let s := ((s.flushCore (s.taskCore slot)).setTaskState slot 4).answer r 0
    if s.tcc.autoResume.contains slot then
      if s.saveFits slot then s.beginSave slot none else s.failTask slot 6 0 (s.slotField slot 0x80 4)
    else s
  else s)

/-- A save stops: the task stays PAUSED; one that the TCC asked for faults the task, with the address of the datum (R250, R256); a cancel that
waited for it begins (R236). -/
def State.saveFailed (s : State) (t a : Nat) : State :=
  let r := findReq t s.tcc.saveReq
  let auto := s.tcc.autoResume.contains t
  let cancel := findReq t s.tcc.cancelReq
  let s := { s with tcc := { s.tcc with saveReq := dropReq t s.tcc.saveReq, cancelReq := dropReq t s.tcc.cancelReq,
                                        autoResume := s.tcc.autoResume.filter (fun x => x != t), preempted := s.tcc.preempted.filter (fun x => x != t) } }
  let s := (((s.setTaskState t 4).bumpF F.TASK_EVT2_SAVEFAIL).record 0x04 1 t).answer r 6
  match cancel with
  | some c => s.beginCancel t c
  | none => if auto then s.failTask t 6 0 (a % 2 ^ 32) else s
/-- A save is done: the area is written and the task gives up its units; what the area has no place for is kept beside it (R254, log 207). -/
def State.saved (s : State) (t : Nat) (l : List SaveSection) : State :=
  let r := findReq t s.tcc.saveReq
  let cancel := findReq t s.tcc.cancelReq
  let s := { s with tcc := { s.tcc with saveReq := dropReq t s.tcc.saveReq, cancelReq := dropReq t s.tcc.cancelReq,
                                        kept := SMap.set (fun _ => {}) s.tcc.kept t (s.yctx (s.taskCore t) .batch) } }
  let s := (((s.writeSave t (sectionOffsets 4096 l)).setTaskState t 6).leaveUnits t).answer r 0
  match cancel with
  | some c => s.beginCancel t c
  | none => s
/-- SAVE_COMPLETE: the save area is written and the task is SAVED, or uncorrectable data or a refused write stopped the save. -/
def execSaveComplete (slot : Nat) (upsets : List (Nat × Bool)) (flips : List (Nat × Nat)) (s : State) :
    Host.Outcome State Fault Refusal :=
  let s := (s.strike upsets).strikeAcc flips
  .next (if s.taskState slot == 5 && !s.saveWaits slot then
    if s.saveRefused slot then s.saveFailed slot (s.saveBase slot)
    else match s.sectionsOf slot with
      | (s, .error a) => s.saveFailed slot a
      | (s, .ok l) => s.saved slot l
  else s)

/-- Read bytes of a save area, through the shared cache in the task's class (R144): none where they are unmapped, lost or uncorrectable. -/
def State.readSave (s : State) (t off len : Nat) : State × Option (List Byte) :=
  if s.dramEnd < s.saveBase t + off + len then (s, none)
  else match s.cacheRead (s.slotClass t) false (s.saveBase t + off) len with
    | (s, bs, bad) => (s, if bad then none else some bs)
/-- A section of a directory passes its check. -/
def State.sectionOk (s : State) (t : Nat) (d : List Byte) : State × Bool :=
  match s.readSave t (leNat ((d.drop 8).take 4)) (leNat ((d.drop 12).take 4)) with
  | (s, some bs) => (s, leNat ((d.drop 4).take 4) == crc32c bs)
  | (s, none) => (s, false)
def sectionsPass (t : Nat) : List (List Byte) → State → State × Bool
  | [], s => (s, true)
  | d :: r, s =>
    match s.sectionOk t d with
    | (s, true) => sectionsPass t r s
    | (s, false) => (s, false)
/-- The directory of a save header. -/
def saveDirs (hdr : List Byte) : List (List Byte) := (List.range (leNat ((hdr.drop 6).take 2))).map (fun i => (hdr.drop (0x120 + 16 * i)).take 16)
/-- A header is one of a save of the slot (R251, R253). -/
def headerOk (t : Nat) (hdr : List Byte) : Bool :=
  let f := fun o n => leNat ((hdr.drop o).take n)
  f 0 4 == 0x5653474E && f 4 2 == 1 && decide (1 ≤ f 6 2) && decide (f 6 2 ≤ 64) && f 0x10 4 == t &&
  f 0x14 4 == crc32c (hdr.take 0x14 ++ leBytes 4 0 ++ hdr.drop 0x18)
/-- The checks of R253 on a save area: the state, and the slot's copy where they pass. -/
def State.checkSave (s : State) (t : Nat) : State × Option (List Byte) :=
  match s.readSave t 0 4096 with
  | (s, none) => (s, none)
  | (s, some hdr) =>
    if headerOk t hdr then
      match sectionsPass t (saveDirs hdr) s with
      | (s, true) => (s, some ((hdr.drop 0x20).take 256))
      | (s, false) => (s, none)
    else (s, none)
/-- The units, rows, regions, rings, queues and counters of a slot are those of its copy (R253). -/
def State.adoptCopy (s : State) (t : Nat) (copy : List Byte) : State :=
  (s.putTable t 0x08 ((copy.drop 0x08).take 0x68)).putTable t 0x8C ((copy.drop 0x8C).take 12)

def restoreRegs (n : Nat) (bs : List Byte) : Nat → State → State
  | 0, s => s
  | r + 1, s =>
    let s := restoreRegs n bs r s
    let v := BitVec.ofNat 4096 (leNat ((bs.drop (512 * r)).take 512))
    let x := BitVec.ofNat 64 (leNat ((bs.drop (0x4000 + 8 * r)).take 8))
    let s := { s with yu := { s.yu with vreg := SMap.set (fun _ => 0#4096) s.yu.vreg ((n * 2 + 1) * 32 + r) v } }
    let s := if r = 0 then s else { s with yu := { s.yu with sreg := SMap.set (fun _ => 0#64) s.yu.sreg ((n * 2 + 1) * 32 + r) x } }
    if r = 0 ∨ 8 ≤ r then s
    else
      let p := BitVec.ofNat 128 (leNat ((bs.drop (0x4100 + 16 * r)).take 16))
      { s with yu := { s.yu with preg := SMap.set (fun _ => 0#128) s.yu.preg ((n * 2 + 1) * 32 + r) p } }
def loopOf (bs : List Byte) : LoopLevel :=
  if leNat ((bs.drop 12).take 4) = 0 then {} else ⟨leNat (bs.take 4), leNat ((bs.drop 4).take 4), leNat ((bs.drop 8).take 4)⟩
def State.restoreCore (s : State) (n : Nat) (bs : List Byte) : State :=
  let s := restoreRegs n bs 32 s
  s.setYctx n .batch { s.yctx n .batch with pc := leNat ((bs.drop 0x41A0).take 4), loop0 := loopOf (bs.drop 0x4180), loop1 := loopOf (bs.drop 0x4190),
                                            wait := none, readyAt := [] }
/-- What a save area has no place for: the orders of descriptors and chains, failures that MVWAIT and GWAIT have not taken (log 207). -/
def State.restoreKept (s : State) (t : Nat) : State :=
  let n := s.taskCore t
  let k := SMap.get (fun _ => {}) s.tcc.kept t
  { s.setYctx n .batch { s.yctx n .batch with mvSeq := k.mvSeq, mvFails := k.mvFails, dataErr := k.dataErr, dataAt := k.dataAt, divFree := 0, back := none } with
    tcc := { s.tcc with kept := SMap.erase s.tcc.kept t } }
/-- Write back accumulator words, row-major, each with its tag (R253). -/
def restoreWords (u first row0 cols : Nat) (bs : List Byte) : Nat → State → State
  | 0, s => s
  | k + 1, s =>
    let s := restoreWords u first row0 cols bs k s
    s.writeAcc (s.accIndex u (row0 + k / cols) (first + k % cols)) (AccParts.ofWord (BitVec.ofNat 128 (leNat ((bs.drop (16 * k)).take 16))))
/-- The maximal runs of words with one tag in rows of `cols` words: their number, and the cycles of their passes (a word period of 32, and at
least 8 cycles a pass). -/
def tagRuns (cols : Nat) : Nat → List Nat → Option Nat → Nat → Nat × Nat
  | _, [], none, _ => (0, 0)
  | _, [], some _, n => (1, max 8 (ceilDiv n 32))
  | k, x :: r, last, n =>
    if last = some x ∧ k % cols ≠ 0 then tagRuns cols (k + 1) r last (n + 1)
    else
      let t := tagRuns cols (k + 1) r (some x) 1
      match last with
      | none => t
      | some _ => (t.1 + 1, t.2 + max 8 (ceilDiv n 32))
/-- The SRC_LX overwrite passes of a restore: one for each row and maximal run of columns that share a tag (R253). -/
def State.restoreRows (s : State) (u first row0 cols : Nat) (bs : List Byte) (n : Nat) : State :=
  let runs := tagRuns cols 0 ((List.range n).map (fun k => leNat ((bs.drop (16 * k + 15)).take 1) % 32)) none 0
  restoreWords u first row0 cols bs n (s.countPasses u runs.1 runs.2)
def restoreSlots (r : Nat) (bs : List Byte) : Nat → State → State
  | 0, s => s
  | i + 1, s =>
    let v := leNat ((bs.drop (4 * i)).take 4)
    ((restoreSlots r bs i s).setSlotReady r i (v.testBit 31)).setSlotGen r i (v % 16384)
def State.restoreRing (s : State) (r : Nat) (bs : List Byte) : State :=
  let f := fun o => leNat ((bs.drop o).take 4)
  let s := s.setReg (R.QUE_RING_r_CFG r) (BitVec.ofNat 32 (f 0))
  let s := restoreSlots r (bs.drop 16) 64 s
  let n := s.ringSlots r
  let used := if f 4 % n = f 8 % n then (if (List.range n).any (fun i => s.slotReady r i) then n else 0) else (f 8 % n + n - f 4 % n) % n
  ((s.setF (F.QUE_RING_r_PTR_HEAD r) (f 4)).setF (F.QUE_RING_r_PTR_TAIL r) (f 8)).setF (F.QUE_RING_r_PTR_USED r) used
def State.restoreQueue (s : State) (q : Nat) (bs : List Byte) : State :=
  let f := fun o => leNat ((bs.drop o).take 4)
  let l := (List.range (f 8)).map (fun i => leNat ((bs.drop (16 + 4 * ((f 0 + i) % 64))).take 4))
  (((s.setHq q l).setF (F.QUE_HQ_q_HEAD q) (f 0)).setF (F.QUE_HQ_q_TAIL q) (f 4)).setF (F.QUE_HQ_q_COUNT q) l.length
def restoreTally (first : Nat) (bs : List Byte) : Nat → State → State
  | 0, s => s
  | i + 1, s => (restoreTally first bs i s).setF (F.QUE_TALLY_i_VALUE (first + i)) (leNat ((bs.drop (4 * i)).take 4))
/-- Write back one section. -/
def State.restoreSection (s : State) (t typ arg : Nat) (bs : List Byte) : State :=
  let f := fun o => leNat ((bs.drop o).take 2)
  match typ with
  | 1 => s.restoreCore arg bs
  | 2 => s.restoreRows (arg - 0x10) (f 4) (f 0) (max 1 (f 6)) (bs.drop 16) (f 2 * f 6)
  | 3 => s.restoreRing arg bs
  | 4 => s.restoreQueue arg bs
  | 5 => restoreTally arg (bs.drop 4) (leNat (bs.take 4)) s
  | 6 => let g := s.spadRegion t arg; s.writeSlice g.slice g.base bs
  | _ => s
def restoreDirs (t : Nat) : List (List Byte) → State → State
  | [], s => s
  | d :: r, s =>
    let f := fun o n => leNat ((d.drop o).take n)
    restoreDirs t r (s.restoreSection t (f 0 2) (f 2 2) (s.memBytes (s.saveBase t + f 8 4) (f 12 4)))
/-- Answer the requests to resume slots. -/
def answerResumes (code : Nat) : List Nat → State → State
  | [], s => s
  | t :: r, s => answerResumes code r (({ s with tcc := { s.tcc with resumeReq := dropReq t s.tcc.resumeReq } }).answer (findReq t s.tcc.resumeReq) code)
/-- A resume whose save area fails a check: it completes with BAD_FORMAT, leaves the task SAVED, and is recorded (R253). -/
def State.resumeFailed (s : State) (t : Nat) (unit : List Nat) : State :=
  (answerResumes 0x0A unit { s with tcc := { s.tcc with autoResume := s.tcc.autoResume.filter (fun x => x != t),
                                                         preempted := s.tcc.preempted.filter (fun x => x != t) } }).record 0x07 0 t
/-- RESTORE_COMPLETE: the saved state is back in place; the task runs from the next turn boundary. A tiled task redoes the
item its progress record names (R249). -/
def execRestoreComplete (slot : Nat) (s : State) : Host.Outcome State Fault Refusal :=
  .next (if s.taskState slot == 7 && !s.tcc.restored.contains slot && !s.saveWaits slot then
    let s := if s.saveRefused slot then ((s.setTaskState slot 6).freeCore slot).resumeFailed slot [slot]
      else (restoreDirs slot (saveDirs (s.memBytes (s.saveBase slot) 4096)) s).restoreKept slot
    match findReq slot s.tcc.cancelReq with
    | some c => ({ s with tcc := { s.tcc with cancelReq := dropReq slot s.tcc.cancelReq } }).beginCancel slot c
    | none => if s.taskState slot = 7 then { s with tcc := { s.tcc with restored := s.tcc.restored ++ [slot] } } else s
  else s)

/-! ### A turn boundary (R234, R236, R237) -/

/-- A request counts at this boundary: the part's own, or a command accepted before the turn's start tick (R48, R236). -/
def State.inTime (s : State) : Option HostCmd → Bool
  | some c => decide (c.accepted < s.tt.start)
  | none => true
/-- Pauses asked for take effect; a task that is already DONE answers BAD_STATE. -/
def applyPauses : List (Nat × Option HostCmd) → State → State
  | [], s => s
  | (t, c) :: r, s =>
    applyPauses r (if !s.inTime c then s
      else if s.taskState t = 2 then s.pauseAll (s.groupOf t)
      else if s.taskState t = 3 then s
      else ({ s with tcc := { s.tcc with pauseReq := dropReq t s.tcc.pauseReq } }).answer (findReq t s.tcc.pauseReq) 6)
/-- The members of a slot's unit of placement that have not ended. -/
def State.liveMembers (s : State) (t : Nat) : List Nat := (s.groupOf t).filter (fun u => decide (1 ≤ s.taskState u) && decide (s.taskState u ≤ 7))
/-- A member can issue from this boundary on: PAUSED, or restored. -/
def State.canRun (s : State) (t : Nat) : Bool := s.taskState t == 4 || (s.taskState t == 7 && s.tcc.restored.contains t)
/-- A batch context issues again; the Rulebook kernel of a restored tiled task starts from its progress record (R249, R250). -/
def State.runSlot (s : State) (t : Nat) : State :=
  let n := s.taskCore t
  let fresh := s.taskState t = 7 ∧ s.slotKind t = 1
  let s := (s.setTaskState t 2).setVcore n { s.vcore n with batchTask := t, batchRun := true, batchFault := false }
  let s := (if fresh then (s.putKernel n).setYctx n .batch { pc := s.getF (F.VC_n_CTRL_LINE_END n) } else s).redoItem t
  (({ s with tcc := { s.tcc with resumeReq := dropReq t s.tcc.resumeReq, autoResume := s.tcc.autoResume.filter (fun x => x != t),
                                 preempted := s.tcc.preempted.filter (fun x => x != t),
                                 restored := s.tcc.restored.filter (fun x => x != t) } }).answer (findReq t s.tcc.resumeReq) 0)
def runAll : List Nat → State → State
  | [], s => s
  | t :: r, s => runAll r (if s.canRun t then s.runSlot t else s)
/-- Restores of the SAVED members of a unit begin together, if each can be placed beside those before it and every save area passes; none
where some cannot be placed yet. A save area on a channel that retrains is waited for (R152). -/
def restoreUnit (unit : List Nat) : List Nat → State → Option State
  | [], s => some s
  | t :: r, s =>
    if s.taskState t ≠ 6 then restoreUnit unit r s
    else if s.placeable t = false ∨ s.saveWaits t = true then none
    else match s.checkSave t with
      | (s, none) => some (s.resumeFailed t unit)
      | (s, some copy) =>
        let s := s.adoptCopy t copy
        if s.placeable t then
          let n := s.taskCore t
          restoreUnit unit r ((s.setTaskState t 7).setVcore n { s.vcore n with batchTask := t, batchRun := false, batchFault := false })
        else none
/-- A unit whose resume is asked for: its members run together once all of them can (R234), else those that are SAVED are restored. -/
def State.resumeUnit (s : State) (t : Nat) : State :=
  let unit := s.liveMembers t
  if unit.all s.canRun then runAll unit s else (restoreUnit unit unit s).getD s
/-- Units whose resume a command or a power exit asks for, and restored tasks, in slot order. -/
def resumeUnits : List Nat → State → State
  | [], s => s
  | t :: r, s =>
    let asked := (match findReq t s.tcc.resumeReq with | some c => s.inTime c | none => false) ||
      (s.tcc.autoResume.contains t && !s.tcc.preempted.contains t && s.taskState t == 6) || s.tcc.restored.contains t
    resumeUnits r (if asked && (s.taskState t == 4 || s.taskState t == 6 || s.taskState t == 7) then s.resumeUnit t else s)
/-- A unit is placed: READY tasks start; SAVED ones are restored. -/
def State.tryUnit (s : State) (unit : List Nat) : Option State :=
  if unit.all (fun u => s.taskState u == 1) then s.placeAll unit else restoreUnit unit unit s
/-- Consider the tasks in order; a group only at its first member, and only when every member is READY, or SAVED or PAUSED. -/
def placeReady : List Nat → List Nat → State → State
  | [], _, s => s
  | t :: r, seen, s =>
    let unit := s.liveMembers t
    if seen.contains t then placeReady r seen s
    else if s.slotGroup t ≠ 0 ∧ !((unit.all (fun u => s.taskState u == 1) && unit.length == s.slotField t 0xAB 1) ||
        unit.all (fun u => s.taskState u == 6 || s.taskState u == 4)) then placeReady r (seen ++ unit) s
    else
      match s.tryUnit unit with
      | some s => placeReady r (seen ++ unit) s
      | none => match s.victims unit with
        | some v => placeReady r (seen ++ unit) (s.preempt v)
        | none => placeReady r (seen ++ unit) s
/-- THE TCC AT A TURN BOUNDARY (R236, R237), in the order of the table of R236. -/
def State.tccBoundary (s : State) : State :=
  let s := if s.flag F.TASK_CTRL_SCHED_EN then placeReady s.readyOrder [] s else s
  let s := applyPauses s.tcc.pauseReq s
  resumeUnits s.usedSlots s

end Sys2Proof.Machine
end

