-- ==== Sys2Proof/Machine/SpadEvents.lean ====
section
/-! DEFINITION. What happens by itself in the scratchpad, the memory controller and the die link: gather-buffer writes
(R114), write-backs and scrubbing (R121, R123), bank power (R124 to R126), window and ring registers (R120, R134), degraded
channels (R152), capability losses (R28) and flits of the die link (R15, R16). -/

namespace Sys2Proof.Machine

/-! ### Gather buffer, write-back and scrub -/

/-- GATHER_ENTRY_WRITE: an entry, 64 cycles after its last write, is written to its bank (R114). -/
def execGatherEntryWrite (slice block : Nat) (s : State) : Host.Outcome State Fault Refusal :=
  .next (match s.spad.gather.find? (fun e => e.slice == slice && e.block == block) with
    | some e => s.flushAt slice block (e.due - 1)
    | none => s)

/-- ECC_WRITE_BACK: the oldest corrected word of a slice's queue is written back (R121). -/
def execEccWriteBack (slice : Nat) (s : State) : Host.Outcome State Fault Refusal :=
  .next (match SMap.get (fun _ => []) s.spad.writeBack slice with
    | [] => s
    | w :: r =>
      let s := { s with spad := { s.spad with writeBack := SMap.set (fun _ => []) s.spad.writeBack slice r } }
      s.setErr w 0)

/-- One word of a scrubbed row: a corrected word is rewritten, an uncorrectable one counted and left (R122, R123). -/
def State.scrubWord (s : State) (w : Nat) : State :=
  if s.errAt w = 1 then (s.bumpF F.SPAD_ECC_CE_CNT).setErr w 0 else s.eccWord w
def scrubWords (w : Nat) : Nat → State → State
  | 0, s => s
  | n + 1, s => (scrubWords w n s).scrubWord (w + n)
/-- SPAD_SCRUB_READ: the scrub of a bank reads its next wide row (R123). -/
def execSpadScrubRead (slice bank : Nat) (upsets : List (Nat × Bool)) (s : State) : Host.Outcome State Fault Refusal :=
  let s := s.strike upsets
  .next (if s.flag F.SPAD_SCRUB_EN && s.unitUsable slice && decide (bank < 32) && s.bankOn slice bank then
    let row := SMap.get (fun _ => 0) s.spad.scrubRow (slice * 32 + bank)
    let s := { s with spad := { s.spad with scrubRow := SMap.set (fun _ => 0) s.spad.scrubRow (slice * 32 + bank) ((row + 1) % 256) } }
    if s.bankInit slice bank then scrubWords (firstWord (sliceAddr slice (bank * 0x20000 + row * 512))) 64 s
    else s.noteUninit slice bank
  else s)

/-! ### Bank power -/

/-- The stored state code of a bank. -/
def State.setBankCode (s : State) (n b code : Nat) : State :=
  if b < 16 then s.setF ⟨R.SPAD_n_PWR_LO n, 2 * b + 1, 2 * b⟩ code else s.setF ⟨R.SPAD_n_PWR_HI n, 2 * (b - 16) + 1, 2 * (b - 16)⟩ code
/-- Forget a bank's move. -/
def State.dropMove (s : State) (n b : Nat) : State :=
  { s with spad := { s.spad with bankMoves := s.spad.bankMoves.filter (fun m => !(m.slice == n && m.bank == b)) } }
/-- Send one bank toward a state; toward the state it is in, a move that has not ended is given up. -/
def State.moveBank (s : State) (n b code : Nat) : State :=
  let s := s.dropMove n b
  if s.bankCode n b = code then s else { s with spad := { s.spad with bankMoves := s.spad.bankMoves ++ [⟨n, b, code⟩] } }
def moveBanks (n b0 v : Nat) : Nat → State → State
  | 0, s => s
  | k + 1, s => (moveBanks n b0 v k s).moveBank n (b0 + k) (bitsOf v (2 * k + 1) (2 * k))
/-- Some bank's code in a power word is the reserved one. -/
def badCodes (v : Nat) : Bool := anyBelow (fun k => bitsOf v (2 * k + 1) (2 * k) == 3) 16
/-- A write of SPAD_n_PWR_LO or SPAD_n_PWR_HI: only the Rulebook's, and without the reserved code (R124). -/
def State.writePwr (s : State) (n : Nat) (hi : Bool) (v : Nat) (who : Requester) : State :=
  if who ≠ .rulebook ∨ badCodes v = true ∨ 16 ≤ n then s.recordNoEffect (R.SPAD_n_PWR_LO n)
  else moveBanks n (if hi then 16 else 0) v 16 s
def execSpadPwrWrite (slice : Nat) (hi : Bool) (v : Word32) (who : Requester) (s : State) : Host.Outcome State Fault Refusal :=
  .next (s.writePwr slice hi v.toNat who)

/-- Writes in flight toward a bank: those of movers, and narrow writes still gathered (R125). -/
def State.bankBusy (s : State) (n b : Nat) : Bool :=
  SMap.get (fun _ => 0) s.spad.inflight (n * 32 + b) != 0 || s.spad.gather.any (fun e => e.slice == n && bankOf (e.block * 64) == b)
/-- The content of a bank is lost. -/
def State.loseBank (s : State) (n b : Nat) : State :=
  let lo := sliceAddr n (b * 0x20000)
  { s with mem := s.mem.filter (fun c => decide (c.1 < lo) || decide (lo + 0x20000 ≤ c.1)),
           memErr := s.memErr.filter (fun c => decide (c.1 < lo / 8) || decide (lo / 8 + 0x4000 ≤ c.1)) }
/-- BANK_POWER_GATE: with no write in flight, a bank enters retention or off (R125). -/
def execBankPowerGate (slice bank : Nat) (s : State) : Host.Outcome State Fault Refusal :=
  .next (match s.spad.bankMoves.find? (fun m => m.slice == slice && m.bank == bank && m.target != 0) with
    | none => s
    | some m =>
      if s.bankBusy slice bank then s
      else
        let s := (s.dropMove slice bank).setBankCode slice bank m.target
        if m.target = 2 then s.loseBank slice bank else s)
/-- BANK_ON_COMPLETE: a bank is on; from off it is uninitialised (R124, R126). -/
def execBankOnComplete (slice bank : Nat) (s : State) : Host.Outcome State Fault Refusal :=
  .next (match s.spad.bankMoves.find? (fun m => m.slice == slice && m.bank == bank && m.target == 0) with
    | none => s
    | some _ =>
      let off := s.bankCode slice bank == 2
      let s := (s.dropMove slice bank).setBankCode slice bank 0
      if off then
        let s := s.setF ⟨R.SPAD_n_BANK slice, bank, bank⟩ 0
        { s with spad := { s.spad with uninitSeen := SMap.set (fun _ => false) s.spad.uninitSeen (slice * 32 + bank) false } }
      else s)

/-! ### Window and ring registers -/

/-- A write of a window register: by VCn of the slice, the TCC or the Rulebook (R120). -/
def State.writeWindow (s : State) (n w : Nat) (mask : Bool) (v : Nat) (who : Requester) : State :=
  if who = .unit n ∨ who = .tcc ∨ who = .rulebook then
    if mask then s.setReg (R.SPAD_n_WIN_w_MASK n w) (BitVec.ofNat 32 (v % 2 ^ 21)) else s.setReg (R.SPAD_n_WIN_w n w) (BitVec.ofNat 32 v)
  else s.recordNoEffect (R.SPAD_n_WIN_w n w)
def execWindowWrite (slice w : Nat) (mask : Bool) (v : Word32) (who : Requester) (s : State) : Host.Outcome State Fault Refusal :=
  .next (if slice < 16 ∧ w < 32 then s.writeWindow slice w mask v.toNat who else s)

/-- A ring that is enabled: head and tail at slot 0, every ready bit clear, generations kept (R134). -/
def clearReady (r : Nat) : Nat → State → State
  | 0, s => s
  | i + 1, s => (clearReady r i s).setSlotReady r i false
def State.enableRing (s : State) (r : Nat) : State :=
  (((clearReady r 64 s).setF (F.QUE_RING_r_PTR_HEAD r) 0).setF (F.QUE_RING_r_PTR_TAIL r) 0).setF (F.QUE_RING_r_PTR_USED r) 0
/-- A write of QUE_RING_r_CFG: while the ring is disabled, any setting, and an enable that names a slice present and slots
that fit; while it is enabled, only EN = 0 and only with no slot reserved or ready (R134). -/
def State.writeRing (s : State) (r v : Nat) : State :=
  if s.flag (F.QUE_RING_r_CFG_EN r) then
    if v % 2 = 0 ∧ s.ringUsed r = 0 then s.setF (F.QUE_RING_r_CFG_EN r) 0 else s.recordNoEffect (R.QUE_RING_r_CFG r)
  else
    let slots := bitsOf v 27 22 + 1
    let stop := bitsOf v 13 1 * 512 + slots * (bitsOf v 21 14 + 1) * 512
    if v % 2 = 1 ∧ (slots < 3 ∨ !s.unitUsable (bitsOf v 31 28) = true ∨ sliceSize < stop) then s.recordNoEffect (R.QUE_RING_r_CFG r)
    else
      let s := s.setReg (R.QUE_RING_r_CFG r) (BitVec.ofNat 32 v)
      if v % 2 = 1 then s.enableRing r else s
def execRingEnable (r : Nat) (v : Word32) (s : State) : Host.Outcome State Fault Refusal :=
  .next (if r < 256 then s.writeRing r v.toNat else s)

/-! ### Capability losses (R28) -/

/-- Channels of the old mask that have not gone out of service. -/
def keptChannels (s : State) : Nat → Nat
  | 0 => 0
  | c + 1 => keptChannels s c + (if (s.getF F.HUB_CAP1_CH_MASK).testBit c && s.getF (F.MC_CHc_STAT_STATE c) != 3 then 2 ^ c else 0)
/-- A mask without the bits of another. -/
def clearMask (m gone : Nat) : Nat := m - (m &&& gone)
/-- Die-link modules in service, as a mask: while the tensor die is off in STANDBY, those that were at its entry. -/
def State.serviceModules (s : State) : Nat :=
  if s.power.tensorOff then s.power.modules else s.getF F.DL_STATUS_DL0_UP + 2 * s.getF F.DL_STATUS_DL1_UP
/-- The capability words after the losses so far. -/
def State.lossCaps (s : State) : State :=
  let s := s.setF F.HUB_CAP1_CH_MASK (keptChannels s 16)
  let s := s.setF F.HUB_CAP0_VC_MASK (clearMask (s.getF F.HUB_CAP0_VC_MASK) s.power.lostCores)
  let s := s.setF F.HUB_CAP0_Q_MASK (clearMask (s.getF F.HUB_CAP0_Q_MASK) s.power.lostQuarters)
  let s := if s.power.lostQuarters % 16 = 0 then s else s.setF F.HUB_CAP0_WHOLE 0
  let s := s.setF F.HUB_CAP2_DL_MOD (s.getF F.HUB_CAP2_DL_MOD &&& s.serviceModules)
  let lane := fun p => if s.portUp p then s.getF (F.FAB_Pp_STATUS_LANES p) else 0
  let s := s.setF F.HUB_CAP2_FAB_N (min (s.getF F.HUB_CAP2_FAB_N) (lane 0))
  let s := s.setF F.HUB_CAP2_FAB_E (min (s.getF F.HUB_CAP2_FAB_E) (lane 1))
  let s := s.setF F.HUB_CAP2_FAB_S (min (s.getF F.HUB_CAP2_FAB_S) (lane 2))
  let s := s.setF F.HUB_CAP2_FAB_W (min (s.getF F.HUB_CAP2_FAB_W) (lane 3))
  let s := s.setF F.HUB_CAP2_PCIE_W (min (s.getF F.HUB_CAP2_PCIE_W) (s.getF F.PCI_STATUS_WIDTH))
  s.setF F.HUB_CAP2_PCIE_GEN (min (s.getF F.HUB_CAP2_PCIE_GEN) (s.getF F.PCI_STATUS_GEN))
/-- Losses are published: a change increments HUB_CAPGEN and is recorded. -/
def State.publishLoss (s : State) : State :=
  let t := s.lossCaps
  if !s.flag F.HUB_CAP3_DONE || (t.reg R.HUB_CAP0 == s.reg R.HUB_CAP0 && t.reg R.HUB_CAP1 == s.reg R.HUB_CAP1 && t.reg R.HUB_CAP2 == s.reg R.HUB_CAP2) then s
  else ((t.setF F.HUB_CAPGEN_GEN (t.getF F.HUB_CAPGEN_GEN + 1)).record 0x03 0).raiseIrq 4
/-- A unit is lost: published at once when the lead domain is not running a round, else at its next round boundary. -/
def State.unitLost (s : State) : State := if (s.dom s.leadDom).run then s else s.publishLoss

/-! ### Degraded channels (R152) -/

/-- CHANNEL_RETRY_LIMIT: a channel in service retrains. -/
def execChannelRetryLimit (ch : Nat) (s : State) : Host.Outcome State Fault Refusal :=
  .next (if ch < 16 ∧ s.getF (F.MC_CHc_STAT_STATE ch) = 1 then (s.setF (F.MC_CHc_STAT_STATE ch) 2).record 0x03 2 ch else s)
/-- CHANNEL_RETRAIN_COMPLETE: the channel is back at a lower rate, or, trained at none (rate 0), out of service. MC_CFG.RATE keeps the rate of
the boot: the model's choice (log 209). -/
def execChannelRetrainComplete (ch rate : Nat) (s : State) : Host.Outcome State Fault Refusal :=
  .next (if ch < 16 ∧ s.getF (F.MC_CHc_STAT_STATE ch) = 2 ∧ rate < s.getF (F.MC_CHc_STAT_RATE ch) then
    let s := s.setF (F.MC_CHc_STAT_RATE ch) rate
    if rate = 0 then ((s.setF (F.MC_CHc_STAT_STATE ch) 3).record 0x03 3 ch).unitLost
    else (s.setF (F.MC_CHc_STAT_STATE ch) 1).record 0x03 1 ch
  else s)

/-! ### The die link (R15, R16, R18) -/

/-- A module of the die link is in service. -/
def State.moduleUp (s : State) (m : Nat) : Bool := if m = 0 then s.flag F.DL_STATUS_DL0_UP else if m = 1 then s.flag F.DL_STATUS_DL1_UP else false
/-- Die-link modules in service, as a mask (R18). -/
def State.setModules (s : State) (n : Nat) : State :=
  let s := ((s.setF F.DL_STATUS_DL0_UP (n % 2)).setF F.DL_STATUS_DL1_UP (n / 2 % 2)).setF F.DL_STATUS_SINGLE (if n % 4 = 1 ∨ n % 4 = 2 then 1 else 0)
  s.setF F.DL_STATUS_READY (if n % 4 = 0 then 0 else 1)
/-- A module carries flits: it is in service, or its traffic has not yet moved to the other one. -/
def State.moduleCarries (s : State) (m : Nat) : Bool := s.moduleUp m || s.raster.dl.leaving.contains m
/-- Place of a class in the order of R13; RASTER flits beyond the reservation go with HOST (R14). -/
def classRank (beyond : Bool) : DlClass → Nat
  | .mark => 0
  | .raster => if beyond then 4 else 1
  | .reg => 2
  | .halo => 3
  | .adapt | .batch | .host => 4
/-- A class sends in a place of the round robin 1 : 2 : 1 over ADAPT, BATCH and HOST. -/
def classInPlace (place : Nat) : DlClass → Bool
  | .adapt => place % 4 == 0
  | .batch => place % 4 == 1 || place % 4 == 2
  | .host | .raster => place % 4 == 3
  | _ => false
/-- The next place of the round robin that has a flit ready: the class and the place after it. -/
def dlRound (ready : List DlClass) (place : Nat) : Nat → Option (DlClass × Nat)
  | 0 => none
  | k + 1 => match ready.find? (classInPlace place) with
    | some c => some (c, (place + 1) % 4)
    | none => dlRound ready (place + 1) k
/-- The class that sends when several have a flit ready (R13), with the round robin after it. -/
def dlPick (beyond : Bool) (ready : List DlClass) (place : Nat) : Option (DlClass × Nat) :=
  match (List.range 4).findSome? (fun k => ready.find? (fun c => classRank beyond c == k)) with
  | some c => some (c, place)
  | none => dlRound (ready.filter (fun c => classRank beyond c == 4)) place 4
/-- Flits that a replay buffer holds (R16). -/
def replayDepth : Nat := 64
/-- DIE_LINK_FLIT: a flit arrives on a module (R13 to R16): the oldest of its replay buffer again, or a new one of the highest class that
has one ready. One whose CRC fails waits in the replay buffer of its module and direction; a full buffer lets no new flit go.
The RASTER reservation is 96 bytes a tick of a direction, whichever module carries them (log 195). -/
def execDieLinkFlit (module : Nat) (flit : DlFlit) (s : State) : Host.Outcome State Fault Refusal :=
  let d := s.raster.dl
  let key := module * 2 + flit.toRaster.toNat
  let buf := SMap.get (fun _ => []) d.replay key
  let put := fun (d : DieLink) (b : List DlClass) => { d with replay := SMap.set (fun _ => []) d.replay key b }
  let count := fun (s : State) => if flit.crcOk then s else s.bumpF F.DL_RETRY_REPLAY_CNT
  .next (if !s.moduleCarries module then s
    else if flit.again then
      match buf with
      | [] => s
      | _ :: r => count (if flit.crcOk then s.setDl (put d r) else s)
    else if replayDepth ≤ buf.length then s
    else
      let used := SMap.get (fun _ => 0) d.used flit.toRaster.toNat
      match dlPick (decide (96 * s.now < used)) flit.ready (SMap.get (fun _ => 0) d.wrr key) with
      | none => s
      | some (c, place) =>
        let d := { d with sent := SMap.set (fun _ => none) d.sent key (some c), wrr := SMap.set (fun _ => 0) d.wrr key place }
        let d := if c = .raster then { d with used := SMap.set (fun _ => 0) d.used flit.toRaster.toNat (max used (96 * s.now) + 120) } else d
        count (s.setDl (if flit.crcOk then d else put d (buf ++ [c]))))
/-- At the lead domain's boundary the traffic of modules that left service, their replay buffers with it, goes to the other one (R18). -/
def State.moveTraffic (s : State) : State :=
  let d := s.raster.dl
  let buf := fun k => SMap.get (fun _ => []) d.replay k
  let move := fun (r : SMap (List DlClass)) (m : Nat) =>
    (List.range 2).foldl (fun r dir => SMap.set (fun _ => []) (SMap.set (fun _ => []) r ((1 - m) * 2 + dir) (buf (m * 2 + dir) ++ buf ((1 - m) * 2 + dir))) (m * 2 + dir) []) r
  if d.leaving.isEmpty then s else s.setDl { d with replay := d.leaving.foldl move d.replay, leaving := [] }
/-- A module is put out of service (R17, R18): single-module operation, and a record. Its traffic moves at the lead domain's next
boundary, or at once when that domain is not running a round. -/
def State.moduleOut (s : State) (m : Nat) : State :=
  if s.moduleUp m then
    let s := s.setModules (clearMask (s.getF F.DL_STATUS_DL0_UP + 2 * s.getF F.DL_STATUS_DL1_UP) (2 ^ m))
    let s := s.setDl { s.raster.dl with leaving := s.raster.dl.leaving ++ [m] }
    let s := if (s.dom s.leadDom).run then s else s.moveTraffic
    (s.record 0x03 m).unitLost
  else s

/-- Bytes keyed by position. -/
def indexBytes : Nat → List Byte → SMap Byte
  | _, [] => []
  | i, b :: bs => (i, b) :: indexBytes (i + 1) bs
/-- The end of a link-in transfer: its descriptor has its line, or has lost it. -/
def landLinkIn (bs : List Byte) (lost : Bool) : List MoverDesc → List MoverDesc
  | [] => []
  | d :: r =>
    match d.remote with
    | some x =>
      if mKind d.words = 2 ∧ !x.need.isEmpty ∧ !x.failed then
        { d with remote := some (if lost then { x with failed := true } else { x with need := [], got := indexBytes 0 bs }) } :: r
      else d :: landLinkIn bs lost r
    | none => d :: landLinkIn bs lost r
/-- A tensor-fed line arrives while the line 32 before it has not been composed: it is discarded (R285). -/
def State.tensorFull (s : State) (n line : Nat) : Bool :=
  let d := s.getF (F.STR_n_CFG_DOM n)
  let top := match s.tensorLayer n with | some l => s.getF (F.STR_n_Ll_POS_Y n l) | none => 0
  decide (32 ≤ line) && decide ((s.dom d).turn + 19 < s.getF (F.TB_Dn_VSCAN_V_START d) + top + (line - 32))
/-- What a RASTER transfer fills at its delivery: a stream's tensor-fed line (R274), a line buffer (R283), the slot of a
link-in descriptor (R223). A lost one fills nothing (R16). -/
def State.deliver (s : State) (m : DlMsg) : State :=
  match m.body with
  | .tensorLine round n line words =>
    if m.lost || (s.dom s.leadDom).round != round || (s.strm n).hold.isSome || s.flag (F.STR_n_STATUS_SHED n) || s.tensorFull n line then s
    else s.setStrm n { s.strm n with tensor := SMap.set (fun _ => []) (s.strm n).tensor line words }
  | .layerLine round n layer line frame bytes bad =>
    if m.lost then s else s.setStrm n { s.strm n with fetched := (s.strm n).fetched ++ [⟨round, layer, line, frame, bytes, bad⟩] }
  | .linkIn mv bytes => s.setMover mv { s.mover mv with busy := landLinkIn bytes m.lost (s.mover mv).busy }
  | .notice _ _ => s
def DlMsg.isNotice (m : DlMsg) : Bool := match m.body with | .notice _ _ => true | _ => false
/-- The tick at which the next flit was accepted that is not a notice's; a notice that was accepted by then goes first (R13). -/
def acceptedAt (acc : Nat) : List DlMsg → Option Nat
  | [] => none
  | m :: r => if m.isNotice then (acceptedAt acc r).filter (fun a => decide (a < m.queued)) else some (max acc m.queued)
/-- Deliver the first flit of a queue that is not a notice's: the rest of the queue, and a message that is complete. -/
def popFlit (acc : Nat) (late : Bool) : List DlMsg → Option (List DlMsg × Option DlMsg)
  | [] => none
  | m :: r =>
    if m.isNotice then (popFlit acc late r).map (fun x => (m :: x.1, x.2))
    else
      let m := { m with flits := m.flits - 1, lost := m.lost || late, accepted := some acc }
      if m.flits = 0 then some (r, some m) else some (m :: r, none)
/-- Ticks from the acceptance of a RASTER flit to its delivery (R15). -/
def rasterTicks : Nat := 200
/-- RASTER_FLIT_DELIVERY: the next flit of a direction, accepted at tick `accepted` once its data were ready, is delivered 200 ticks
later, or counted and dropped when it cannot be by then (R13, R15, R16). -/
def execRasterFlitDelivery (toRaster : Bool) (flit : RasterFlit) (s : State) : Host.Outcome State Fault Refusal :=
  let d := s.raster.dl
  let q := if toRaster then d.toRaster else d.toTensor
  .next (match acceptedAt (max flit.accepted (SMap.get (fun _ => 0) d.lastAccepted toRaster.toNat)) q with
    | none => s
    | some a =>
      let late := flit.late || decide (a + rasterTicks < s.now)
      match popFlit a late q with
      | none => s
      | some (q, m) =>
        let s := { s with now := max s.now (a + rasterTicks) }
        let s := if late then s.bumpF F.DL_RETRY_LATE_CNT else s
        let d := { d with lastAccepted := SMap.set (fun _ => 0) d.lastAccepted toRaster.toNat a }
        let s := s.setDl (if toRaster then { d with toRaster := q } else { d with toTensor := q })
        match m with
        | some m => s.deliver m
        | none => s)

end Sys2Proof.Machine
end

