-- ==== Sys2Proof/Machine/Finish.lean ====
section
/-! DEFINITION. The pixel path of an output stream: layers and their composition (R276 to R282), line fetches (R283), the
finish stage (R301 to R310) and the colour volume store (R305 to R309). -/

namespace Sys2Proof.Machine

/-! ### Pixels -/

/-- The largest PX20 component. -/
def px20Max : Nat := 1048575
/-- Three components from a triple word, with alpha 1.0. -/
def pixelOfTriple (w : Nat) : Pixel := decodePixel 7 w
/-- The background pixel of a stream (R281). -/
def State.bgPixel (s : State) (n : Nat) : Pixel := decodePixel 5 (s.getF (F.STR_n_BG_COLOUR n))
/-- A finished value narrowed to n bits with RNA. -/
def narrowCode (n e : Nat) : Nat := min (2 ^ n - 1) (roundNat .rna (e * (2 ^ n - 1)) 65536)
/-- A pixel in a frame format: alpha written as ones (R277, R291, R292). -/
def encodePixel (fmt : Nat) (p : Pixel) : List Byte :=
  let c := fun n => (narrowCode n p.r, narrowCode n p.g, narrowCode n p.b)
  match fmt with
  | 0 => leBytes 2 (narrowCode 5 p.r * 2 ^ 11 + narrowCode 6 p.g * 2 ^ 5 + narrowCode 5 p.b)
  | 1 => leBytes 2 (2 ^ 15 + (c 5).1 * 2 ^ 10 + (c 5).2.1 * 2 ^ 5 + (c 5).2.2)
  | 2 => leBytes 2 (15 * 2 ^ 12 + (c 4).1 * 2 ^ 8 + (c 4).2.1 * 2 ^ 4 + (c 4).2.2)
  | 3 => leBytes 3 ((c 8).1 * 2 ^ 16 + (c 8).2.1 * 2 ^ 8 + (c 8).2.2)
  | 4 => leBytes 4 (255 * 2 ^ 24 + (c 8).1 * 2 ^ 16 + (c 8).2.1 * 2 ^ 8 + (c 8).2.2)
  | 5 => leBytes 4 ((c 10).1 * 2 ^ 20 + (c 10).2.1 * 2 ^ 10 + (c 10).2.2)
  | 6 => leBytes 4 (3 * 2 ^ 30 + (c 10).1 * 2 ^ 20 + (c 10).2.1 * 2 ^ 10 + (c 10).2.2)
  | _ => leBytes 8 (tripleWord p)

/-! ### Layers -/

/-- A layer of a stream as its registers set it. -/
structure Layer where
  idx : Nat
  en : Bool
  src : Nat
  opaque_ : Bool
  premul : Bool
  cap : Nat
  fmt : Nat
  pitch : Nat
  x : Nat
  y : Nat
  w : Nat
  h : Nat
  base : Nat
  alpha : Nat
deriving DecidableEq, Repr
def State.layer (s : State) (n l : Nat) : Layer :=
  { idx := l, en := s.flag (F.STR_n_Ll_CFG_EN n l), src := s.getF (F.STR_n_Ll_CFG_SRC n l),
    opaque_ := s.flag (F.STR_n_Ll_CFG_OPAQUE n l), premul := s.flag (F.STR_n_Ll_CFG_PREMUL n l),
    cap := s.getF (F.STR_n_Ll_CFG_CAP n l), fmt := s.getF (F.STR_n_Ll_CFG_FMT n l), pitch := s.getF (F.STR_n_Ll_CFG_PITCH n l) * 64,
    x := s.getF (F.STR_n_Ll_POS_X n l), y := s.getF (F.STR_n_Ll_POS_Y n l), w := s.getF (F.STR_n_Ll_SIZE_W n l),
    h := s.getF (F.STR_n_Ll_SIZE_H n l), base := s.getF (F.STR_n_Ll_RANGE_BASE n l) * 65536 + s.getF (F.STR_n_Ll_OFF_OFFSET n l),
    alpha := s.getF (F.STR_n_Ll_EXT_ALPHA n l) }
/-- The enabled layers of a stream, bottom first (R280). -/
def State.layersOf (s : State) (n : Nat) : List Layer :=
  let order := if s.flag (F.STR_n_CFG_ORDER n) then
      (List.range 8).filterMap (fun i =>
        let e := bitsOf (s.getF (F.STR_n_ORDER_LIST n)) (4 * i + 3) (4 * i)
        if e.testBit 3 then some (e % 8) else none)
    else List.range 8
  (order.map (s.layer n)).filter (fun l => l.en)
/-- A stream line or pixel lies within a layer. -/
def Layer.onLine (l : Layer) (y : Nat) : Bool := decide (l.y ≤ y) && decide (y < l.y + l.h)
def Layer.covers (l : Layer) (x y : Nat) : Bool := l.onLine y && decide (l.x ≤ x) && decide (x < l.x + l.w)
/-- A pixel is hidden by an opaque layer above (R282). -/
def hiddenBy (above : List Layer) (x y : Nat) : Bool := above.any (fun l => l.opaque_ && l.covers x y)
/-- The layers later in the order than a layer. -/
def layersAbove (idx : Nat) : List Layer → List Layer
  | [] => []
  | l :: r => if l.idx = idx then r else layersAbove idx r
/-- Some pixel of layer line `line` is not hidden. -/
def Layer.visible (l : Layer) (above : List Layer) (line : Nat) : Bool :=
  anyBelow (fun i => !hiddenBy above (l.x + i) (l.y + line)) l.w
/-- A 64-byte block of a layer line holds a pixel that is not hidden. -/
def Layer.blockSeen (l : Layer) (above : List Layer) (line bpp block : Nat) : Bool :=
  anyBelow (fun i => decide (i * bpp < block * 64 + 64) && decide (block * 64 < i * bpp + bpp) && !hiddenBy above (l.x + i) (l.y + line)) l.w
/-- The frame of a capture layer bound for the round (R290, R291). -/
def State.boundFrame (s : State) (n l : Nat) : Option Nat := ((s.strm n).binds.find? (fun b => b.1 == l)).map (fun b => b.2)
/-- Format of a layer's pixels in memory. -/
def State.layerFmt (s : State) (l : Layer) : Nat := if l.src = 1 then s.getF (F.STR_n_FRM_CFG_FMT l.cap) else l.fmt

/-! ### Composition (R281) -/

/-- One component of one layer. -/
def blend (l : Layer) (ap c acc : Nat) : Nat :=
  if l.opaque_ then c
  else
    let a := roundNat .rna (ap * l.alpha) 65536
    min px20Max (roundNat .rna ((if l.premul then l.alpha * c else a * c) + (65536 - a) * acc) 65536)
/-- Compose one layer's pixel over what lies below. -/
def blendPixel (l : Layer) (p acc : Pixel) : Pixel := ⟨blend l p.a p.r acc.r, blend l p.a p.g acc.g, blend l p.a p.b acc.b, 65536⟩
/-- A layer with the pixels of one of its lines. -/
structure LayerLine where
  layer : Layer
  pixels : List Pixel
deriving DecidableEq, Repr
def composePixel (x y : Nat) : List LayerLine → Pixel → Pixel
  | [], acc => acc
  | l :: r, acc =>
    composePixel x y r (if l.layer.covers x y then blendPixel l.layer (l.pixels.getD (x - l.layer.x) ⟨0, 0, 0, 0⟩) acc else acc)
/-- The pixels of a layer on stream line y: none when the line is not complete (R220, R284). -/
def State.layerPixels (s : State) (n round y : Nat) (above : List Layer) (l : Layer) : Option (List Pixel) :=
  let line := y - l.y
  if l.src = 2 then
    let ws := SMap.get (fun _ => []) (s.strm n).tensor line
    if ws.length = l.w then some (ws.map pixelOfTriple) else none
  else if !l.visible above line then some []
  else
    let frame := if l.src = 1 then s.boundFrame n l.idx else none
    if l.src = 1 ∧ frame = none then none
    else match (s.strm n).fetched.find? (fun f => f.round == round && f.layer == l.idx && f.line == line && f.frame == frame) with
      | some f =>
        if f.bad then none
        else
          let px := linePixels (s.layerFmt l) l.w f.bytes
          some (if l.src = 1 then px.map (fun p => { p with a := 65536 }) else px)
      | none => none
/-- Whether a missing line is one of the tensor-fed layer. -/
def missesTensor (l : Layer) : Bool := l.src == 2
/-- Gather the lines of a stream's layers on line y, or the first layer whose line is missing. -/
def State.gatherLines (s : State) (n round y : Nat) : List Layer → Layer ⊕ List LayerLine
  | [] => .inr []
  | l :: r =>
    if l.onLine y then
      match s.layerPixels n round y r l with
      | none => .inl l
      | some px => match State.gatherLines s n round y r with
        | .inl m => .inl m
        | .inr ls => .inr (⟨l, px⟩ :: ls)
    else State.gatherLines s n round y r
/-- The composed line as pixels. -/
def State.composeLine (s : State) (n y : Nat) (ls : List LayerLine) : List Pixel :=
  (List.range (s.strW n)).map (fun x => composePixel x y ls (s.bgPixel n))

/-! ### The colour volume store (R305 to R309) -/

/-- A store entry with its parity bits (R306). -/
def cvWord (data : Nat) : Nat :=
  let d := data % 2 ^ 60
  let par := fun k => if evenParity (bitsOf d (15 * k + 14) (15 * k)) 15 then 0 else 1
  d + par 0 * 2 ^ 60 + par 1 * 2 ^ 61 + par 2 * 2 ^ 62 + par 3 * 2 ^ 63
def State.cvEntry (s : State) (e : Nat) : Nat := SMap.get (fun _ => 0) s.raster.cv e
def State.setCv (s : State) (e w : Nat) : State := { s with raster := { s.raster with cv := SMap.set (fun _ => 0) s.raster.cv e w } }
/-- An entry passes its parity check. -/
def cvOk (w : Nat) : Bool := cvWord w == w
/-- Bit flips strike entries: (entry, bit). -/
def State.strikeCv (s : State) : List (Nat × Nat) → State
  | [] => s
  | (e, b) :: r => State.strikeCv (if e < 531441 ∧ b < 64 then s.setCv e (s.cvEntry e ^^^ 2 ^ b) else s) r
def cubeEdge : Nat → Nat
  | 0 => 17 | 1 => 33 | 2 => 41 | 3 => 65 | _ => 81
/-- An entry lies in the cube of an enabled stream that uses the lookup. -/
def State.inCube (s : State) (n e : Nat) : Bool :=
  let k := cubeEdge (s.getF (F.FIN_n_CV_SIZE n))
  let b := s.getF (F.FIN_n_CV_BASE n)
  s.isOutput n && s.flag (F.FIN_n_CFG_CV_EN n) && decide (b ≤ e) && decide (e < b + k * k * k)
/-- A stream whose cube holds an entry. -/
def State.cubeOwner (s : State) (e : Nat) : Option Nat := (List.range 64).find? (fun n => s.inCube n e)
/-- A PARITY ERROR (R308): counted; in an entry of a cube in use also latched and recorded, and the entry is reread from its volume image
and rewritten. The flag says that this read failed. -/
def State.cvError (s : State) (scrub : Bool) (stream e : Nat) : State × Bool :=
  let s := s.bumpF F.FIN_CV_CNT_PERR
  match s.cubeOwner e with
  | none => (s, false)
  | some n =>
    let s := if s.flag F.FIN_CV_ERR_VALID then s
      else (((s.setF F.FIN_CV_ERR_VALID 1).setF F.FIN_CV_ERR_SCRUB (if scrub then 1 else 0)).setF F.FIN_CV_ERR_STREAM stream).setF
        F.FIN_CV_ERR_ENTRY e
    match (s.record 0x04 5 stream).countedRead (s.getF (F.FIN_n_VIMG_BASE n) * 65536 + 8 * (e - s.getF (F.FIN_n_CV_BASE n))) 8 with
    | (s, bs, bad) => (if bad then s else (s.setCv e (cvWord (leNat bs))).bumpF F.FIN_CV_CNT_REPAIR, bad)
/-- The errors of a line: the flag says that some repair failed. -/
def State.cvErrors (s : State) (stream : Nat) : List Nat → State × Bool
  | [] => (s, false)
  | e :: r =>
    match s.cvError false stream e with
    | (s, bad) => match State.cvErrors s stream r with
      | (s, bad') => (s, bad || bad')

/-- Numerator and denominator of the index of a component (R305). -/
def State.cvIndex (s : State) (n c : Nat) : Nat × Nat :=
  match s.getF (F.FIN_n_CFG_IDX n) with
  | 0 => (min c 65536, 65536)
  | 1 => (c, 2 ^ 20)
  | _ => (curveEncode 3 (s.getF (F.FIN_n_NITS_REF_NITS n)) c, 65536)
/-- The three steps of the tetrahedron from corner 000 to 111: which component steps first, second, third. -/
def cvPath (fr fg fb : Nat) : Nat × Nat × Nat :=
  if fg ≤ fr ∧ fb ≤ fg then (0, 1, 2)
  else if fb ≤ fr ∧ fg < fb then (0, 2, 1)
  else if fr < fb ∧ fg ≤ fr then (2, 0, 1)
  else if fr < fg ∧ fb ≤ fr then (1, 0, 2)
  else if fb ≤ fg ∧ fr < fb then (1, 2, 0)
  else (2, 1, 0)
/-- The lookup of a pixel (R305), with the entries it met that fail parity. -/
def State.cvLookup (s : State) (n : Nat) (p : Pixel) : Pixel × List Nat :=
  let k := cubeEdge (s.getF (F.FIN_n_CV_SIZE n))
  let base := s.getF (F.FIN_n_CV_BASE n)
  let tr := s.cvIndex n p.r
  let tg := s.cvIndex n p.g
  let tb := s.cvIndex n p.b
  let den := tr.2
  let i := fun (t : Nat × Nat) => min (t.1 * (k - 1) / den) (k - 2)
  let f := fun (t : Nat × Nat) => t.1 * (k - 1) - i t * den
  let stride := fun (c : Nat) => if c = 0 then k * k else if c = 1 then k else 1
  let frac := fun (c : Nat) => if c = 0 then f tr else if c = 1 then f tg else f tb
  let path := cvPath (f tr) (f tg) (f tb)
  let e0 := base + (i tr * k + i tg) * k + i tb
  let e1 := e0 + stride path.1
  let e2 := e1 + stride path.2.1
  let e3 := e2 + stride path.2.2
  let mix := fun (hi lo : Nat) =>
    let v := fun e => Int.ofNat (bitsOf (s.cvEntry e) hi lo)
    let q := v e0 * Int.ofNat den + Int.ofNat (frac path.1) * (v e1 - v e0) + Int.ofNat (frac path.2.1) * (v e2 - v e1) +
      Int.ofNat (frac path.2.2) * (v e3 - v e2)
    min px20Max (roundNat .rna q.toNat den)
  (⟨mix 59 40, mix 39 20, mix 19 0, 65536⟩, [e0, e1, e2, e3].filter (fun e => !cvOk (s.cvEntry e)))

/-- CV_SCRUB_CHECK: the scrub checks the parity of the next entry (R308). -/
def execCvScrubCheck (flips : List (Nat × Nat)) (s : State) : Host.Outcome State Fault Refusal :=
  let s := s.strikeCv flips
  .next (if s.flag F.FIN_SCRUB_EN then
    let e := s.raster.cvScrub
    let s := { s with raster := { s.raster with cvScrub := if e + 1 < 531441 then e + 1 else 0 } }
    if cvOk (s.cvEntry e) then s else (s.cvError true 0 e).1
  else s)

/-! ### The finish stage (R295, R303, R304, R310) -/

/-- Matrix row i (R303). -/
def State.matRow (s : State) (n i : Nat) (p : Pixel) : Nat :=
  let m := fun j => signedOf 24 (s.getF (F.FIN_n_Mk_VALUE n (4 * i + j)))
  let q := m 0 * Int.ofNat p.r + m 1 * Int.ofNat p.g + m 2 * Int.ofNat p.b + m 3 * 2 ^ 18
  min px20Max (roundNat .rna q.toNat (2 ^ 18))
/-- One composed pixel finished: the finished pixel, and the entries that fail parity. -/
def State.finishPixel (s : State) (n : Nat) (gain : Nat) (p : Pixel) : Pixel × List Nat :=
  let nits := s.getF (F.FIN_n_NITS_REF_NITS n)
  let itf := s.getF (F.FIN_n_CFG_ITF n)
  let p : Pixel := ⟨curveDecode itf nits p.r, curveDecode itf nits p.g, curveDecode itf nits p.b, 65536⟩
  let p : Pixel := if s.flag (F.FIN_n_CFG_MAT_EN n) then ⟨s.matRow n 0 p, s.matRow n 1 p, s.matRow n 2 p, 65536⟩ else p
  let (p, bad) := if s.flag (F.FIN_n_CFG_CV_EN n) then s.cvLookup n p else (p, [])
  let g := fun (c hi lo : Nat) => min px20Max (roundNat .rna (c * bitsOf gain hi lo) 512)
  let p : Pixel := if s.flag (F.FIN_n_CFG_GAIN_EN n) then ⟨g p.r 29 20, g p.g 19 10, g p.b 9 0, 65536⟩ else p
  let otf := s.getF (F.FIN_n_CFG_OTF n)
  (⟨curveEncode otf nits p.r, curveEncode otf nits p.g, curveEncode otf nits p.b, 65536⟩, bad)
/-- Gain word of column x in the bytes of a gain row (R304). -/
def State.gainWord (s : State) (n : Nat) (row : List Byte) (x : Nat) : Nat :=
  leNat ((row.drop (x / 2 ^ s.getF (F.FIN_n_GCFG_GW n) * 4)).take 4)
/-- A line finished: pixels, and the entries that fail parity. -/
def State.finishLine (s : State) (n : Nat) (gain : List Byte) (px : List Pixel) : List Pixel × List Nat :=
  let l := (px.zip (List.range px.length)).map (fun (p, x) => s.finishPixel n (s.gainWord n gain x) p)
  (l.map (fun r => r.1), (l.map (fun r => r.2)).flatten.eraseDups)
/-- The gain row of a line in the line buffer: none when it is not complete. -/
def State.gainRow (s : State) (n round y : Nat) : Option (List Byte) :=
  if s.flag (F.FIN_n_CFG_GAIN_EN n) then
    match (s.strm n).fetched.find? (fun f => f.round == round && f.layer == 8 && f.line == y) with
    | some f => if f.bad then none else some f.bytes
    | none => none
  else some []

/-- The run round that dither takes for a stream (R54, R310). -/
def State.ditherRound (s : State) (n : Nat) : Nat :=
  let d := s.getF (F.STR_n_CFG_DOM n)
  if s.seq.started ∧ d = s.leadDom then (s.dom d).round - s.seq.startRound else (s.dom d).round
/-- The output code of a component (R310). -/
def State.outputCode (s : State) (n x y k e : Nat) : Nat :=
  let t := if s.flag (F.FIN_n_CFG_DITH_EN n) then
      crc32c (le64 (if s.seq.started then s.seq.runSeed else 0) ++ le64 (s.ditherRound n) ++ leBytes 4 (s.getF (F.FIN_n_WALLX_X0 n) + x) ++
        leBytes 4 (s.getF (F.FIN_n_WALLY_Y0 n) + y) ++ leBytes 4 k) % 65536
    else 32768
  (e * (2 ^ s.getF (F.FIN_n_CFG_DEPTH n) - 1) + t) / 65536
/-- The output codes of a finished line: red, green, blue of each pixel. -/
def State.lineCodes (s : State) (n y : Nat) (px : List Pixel) : List Nat :=
  ((px.zip (List.range px.length)).map (fun (p, x) => [s.outputCode n x y 0 p.r, s.outputCode n x y 1 p.g, s.outputCode n x y 2 p.b])).flatten

end Sys2Proof.Machine
end

