-- ==== Sys2Proof/Machine/Scanout.lean ====
section
/-! DEFINITION. Scan-out: what a turn of a domain composes, holds, finishes and sends (R296 to R300), writeback (R292), fabric
outputs (R348), display check rectangles (R312, R313), line fetches (R283) and the turn boundary itself (R36, R220). -/

namespace Sys2Proof.Machine

/-- Turn in which line 0 is composed (R296). -/
def State.compTurn (s : State) (d : Nat) : Nat := s.getF (F.TB_Dn_VSCAN_V_START d) - 19
/-- The output streams of a domain. -/
def State.outputsOf (s : State) (d : Nat) : List Nat := (List.range 64).filter (fun n => s.isOutput n && s.getF (F.STR_n_CFG_DOM n) == d)
/-- The line whose life puts line 0 in turn `off` and itself in turn `t`. -/
def lineAt (t off h : Nat) : Option Nat := if off ≤ t ∧ t < off + h then some (t - off) else none
/-- Device address of a line of a stream's hold buffer (R286). -/
def State.holdLine (s : State) (n y : Nat) : Nat := s.getF (F.STR_n_HOLD_BASE n) * 65536 + y * (s.strW n * 8)
/-- Bytes of triple words. -/
def tripleBytes (ws : List Nat) : List Byte := (ws.map (leBytes 8)).flatten
/-- Triple words of bytes. -/
def triplesOf : Nat → List Byte → List Nat
  | 0, _ => []
  | n + 1, bs => leNat (bs.take 8) :: triplesOf n (bs.drop 8)
/-- The part is in HOLD (R421). -/
def State.inHold (s : State) : Bool := s.getF F.PWR_STATE_STATE == 1
/-- A stream is fed by the started bundle. -/
def State.isFed (s : State) (n : Nat) : Bool := s.seq.started && s.fedStreams.contains n
/-- Line y of a stream is shown from the hold buffer (R230, R298). -/
def State.fromHold (s : State) (n y : Nat) : Bool :=
  let d := s.dom (s.getF (F.STR_n_CFG_DOM n))
  s.flag (F.STR_n_STATUS_SHED n) || s.inHold || ((s.tensorLayer n).isSome && (d.isRepeat || !s.isFed n)) ||
  (match (s.strm n).hold with | some h => decide (h ≤ y) | none => false)

/-! ### The line due check (R220) -/

/-- The check of one line-due declaration at the start of a turn of the lead domain. -/
def State.dueCheck (s : State) (turn n f : Nat) : State :=
  match s.tensorLayer n with
  | none => s
  | some l =>
    let y := turn - f
    let top := s.getF (F.STR_n_Ll_POS_Y n l)
    if turn < f || decide (s.getF (F.STR_n_Ll_SIZE_H n l) ≤ y) || !s.isOutput n || s.fromHold n (top + y) then s
    else if (SMap.get (fun _ => []) (s.strm n).tensor y).length = s.getF (F.STR_n_Ll_SIZE_W n l) then s
    else (s.startHold n (top + y)).latchHold 5 n 0 turn
def State.dueChecks (s : State) (turn : Nat) : List (Nat × Nat) → State
  | [] => s
  | (n, f) :: r => State.dueChecks (s.dueCheck turn n f) turn r

/-! ### Composing, holding, finishing, sending -/

/-- A line that cannot be composed: the hold starts, latched and recorded once a round where the stream is fed by the started bundle
(R220); one that a layer line starts is counted, and recorded in every stream (R284). -/
def State.missLine (s : State) (n y : Nat) (tensor : Bool) : State :=
  let s := s.startHold n y
  let s := if s.isFed n then s.latchHold 5 n 0 (s.dom s.leadDom).turn else if tensor then s else s.record 0x06 5 n
  if tensor then s else s.bumpF (F.STR_n_EVT_MISS n)
/-- A hold-buffer read that fails: counted and recorded (R441). -/
def State.holdFails (s : State) (n : Nat) : State := (s.bumpF (F.STR_n_EVT_MISS n)).record 0x0A n n
/-- A line that meets parity errors while it is finished: the entries are repaired and the hold starts there; where a repair fails, the held
line is one whose hold-buffer read has failed (R309, R441). -/
def State.missVolume (s : State) (n y : Nat) (bad : List Nat) : State :=
  match s.cvErrors n bad with
  | (s, failed) =>
    let s := s.startHold n y
    let s := if s.isFed n then s.latchHold 5 n 0 (s.dom s.leadDom).turn else s
    if failed then (s.setStrm n { s.strm n with heldLines := SMap.set (fun _ => ([], false)) (s.strm n).heldLines y ([], true) }).holdFails n else s
/-- Line y of a stream is composed and finished into the scan-out buffer, or a hold starts (R281, R297, R309). -/
def State.composeStep (s : State) (n y : Nat) : State :=
  if s.fromHold n y then s
  else
    let round := (s.dom (s.getF (F.STR_n_CFG_DOM n))).round
    match s.gatherLines n round y (s.layersOf n), s.gainRow n round y with
    | .inl l, _ => s.missLine n y (missesTensor l)
    | .inr _, none => s.missLine n y false
    | .inr ls, some gain =>
      let px := s.composeLine n y ls
      match s.finishLine n gain px with
      | (fin, []) =>
        let x := s.strm n
        let ws := px.map tripleWord
        (s.setStrm n { x with composed := SMap.set (fun _ => []) x.composed y ws, scan := SMap.set (fun _ => ([], [])) x.scan y (fin, ws) }).setF
          (F.STR_n_STATUS_LINE n) y
      | (_, bad) => s.missVolume n y bad
/-- Layer lines that have been composed leave the line buffer; gain rows stay until a held line can no longer need them. -/
def State.dropFetched (s : State) (n y t vstart : Nat) : State :=
  let x := s.strm n
  let round := (s.dom (s.getF (F.STR_n_CFG_DOM n))).round
  let stays := fun (f : FetchedLine) =>
    decide (round < f.round) || (f.round == round &&
      (if f.layer = 8 then decide (t + 1 < vstart + f.line + 1) else decide (y < s.getF (F.STR_n_Ll_POS_Y n f.layer) + f.line)))
  s.setStrm n { x with fetched := x.fetched.filter stays }
/-- The hold-buffer read of line y (R298, R441); one that the die link loses or delivers late is counted (R16). -/
def State.holdRead (s : State) (n y : Nat) (lost : Bool) : State :=
  if s.fromHold n y then
    match s.countedRead (s.holdLine n y) (s.strW n * 8) with
    | (s, bs, bad) =>
      let x := s.strm n
      let failed := bad || lost || (match SMap.find? x.heldLines y with | some l => l.2 | none => false)
      let s := s.setStrm n { x with heldLines := SMap.set (fun _ => ([], false)) x.heldLines y (triplesOf (s.strW n) bs, failed) }
      let s := if lost then s.bumpF F.DL_RETRY_LATE_CNT else s
      if bad || lost then s.holdFails n else s
  else s
/-- A line of background pixels. -/
def State.bgLine (s : State) (n : Nat) : List Pixel := List.replicate (s.strW n) (s.bgPixel n)
/-- The gain row a held line is finished with: free words where it was not complete. -/
def State.heldGain (s : State) (n y : Nat) : List Byte :=
  match s.gainRow n (s.dom (s.getF (F.STR_n_CFG_DOM n))).round y with
  | some g => g
  | none => ((List.range (s.strW n)).map (fun i => leBytes 4 (Config.freeValue s.freeIdx i))).flatten
/-- A held line is finished: with repaired entries where the lookup met parity errors, and as a background line where its
read or a repair failed (R298, R309, R441). -/
def State.finishHeld (s : State) (n y : Nat) : State :=
  match SMap.find? (s.strm n).heldLines y with
  | none => s
  | some (ws, failed) =>
    let gain := s.heldGain n y
    let s := s.drawFree
    let px := if failed then s.bgLine n else ws.map pixelOfTriple
    let s := (s.cvErrors n (s.finishLine n gain px).2).1
    let again := s.finishLine n gain px
    let unrepaired := !again.2.isEmpty && !failed
    let s := if unrepaired then s.holdFails n else s
    let px := if unrepaired then s.bgLine n else px
    let ws := px.map tripleWord
    let x := s.strm n
    s.setStrm n { x with
      heldLines := if failed || unrepaired then SMap.set (fun _ => ([], false)) x.heldLines y (ws, true) else SMap.erase x.heldLines y,
      scan := SMap.set (fun _ => ([], [])) x.scan y ((s.finishLine n gain px).1, ws) }

/-! ### Display check rectangles (R312, R313) -/

/-- CRC-32 of IEEE 802.3 with a running value. -/
def crc32Run (c : Nat) (bs : List Byte) : Nat := bs.foldl (fun c b => crcByte 0xEDB88320 c b.toNat) c
def crc32 (bs : List Byte) : Nat := crc32Run 0xFFFFFFFF bs ^^^ 0xFFFFFFFF
/-- The settings of a rectangle in force: CFG, POS, SIZE, EXPECT; empty while it is disabled. -/
def State.dcr (s : State) (k : Nat) : List Nat := SMap.get (fun _ => []) s.raster.dcrSet k
def dcrStream (c : List Nat) : Nat := bitsOf (c.getD 0 0) 21 16
def dcrX (c : List Nat) : Nat := bitsOf (c.getD 1 0) 13 0
def dcrY (c : List Nat) : Nat := bitsOf (c.getD 1 0) 29 16
def dcrW (c : List Nat) : Nat := bitsOf (c.getD 2 0) 14 0
def dcrH (c : List Nat) : Nat := bitsOf (c.getD 2 0) 30 16
/-- The rectangles in force of a stream. -/
def State.dcrsOf (s : State) (n : Nat) : List Nat := (s.raster.dcrSet.filter (fun c => decide (c.1 < 512) && !c.2.isEmpty && dcrStream c.2 == n)).map (fun c => c.1)
/-- Take the codes of a transmitted line into the running values. -/
def dcrLines (n y : Nat) (codes : List Nat) : List Nat → State → State
  | [], s => s
  | k :: r, s =>
    let c := s.dcr k
    dcrLines n y codes r (if dcrY c ≤ y ∧ y < dcrY c + dcrH c then
      let part := (codes.drop (3 * dcrX c)).take (3 * dcrW c)
      let run := if y = dcrY c then 0xFFFFFFFF else SMap.get (fun _ => 0) s.raster.dcrCrc k
      { s with raster := { s.raster with dcrCrc := SMap.set (fun _ => 0) s.raster.dcrCrc k (crc32Run run ((part.map (leBytes 2)).flatten)) } }
    else s)
/-- A rectangle completes: value, round, comparison. -/
def State.dcrComplete (s : State) (k : Nat) : State :=
  let c := s.dcr k
  let n := dcrStream c
  let d := s.dom (s.getF (F.STR_n_CFG_DOM n))
  if (d.isRepeat && (c.getD 0 0).testBit 29) || ((s.strm n).hold.isSome && (c.getD 0 0).testBit 28) then s
  else
    let v := SMap.get (fun _ => 0) s.raster.dcrCrc k ^^^ 0xFFFFFFFF
    let was := s.flag (F.DCR_k_CFG_MATCH k)
    let s := (s.setF (F.DCR_k_LAST_CRC k) v).setF (F.DCR_k_ROUND_ROUND k) d.round
    if v = c.getD 3 0 then s.setF (F.DCR_k_CFG_MATCH k) 1
    else
      let s := (s.bumpF F.DCR_STAT_MISMATCH).setF (F.DCR_k_CFG_MATCH k) 0
      if was then
        let s := s.record 0x0A n n
        if (c.getD 0 0).testBit 30 then s.raiseIrq 0 else s
      else s
def dcrEnds (y : Nat) : List Nat → State → State
  | [], s => s
  | k :: r, s => dcrEnds y r (if y + 1 = dcrY (s.dcr k) + dcrH (s.dcr k) then s.dcrComplete k else s)
/-- A setting is valid: within an enabled output stream (R313). -/
def State.dcrFits (s : State) (c : List Nat) : Bool :=
  let n := dcrStream c
  s.isOutput n && decide (0 < dcrW c) && decide (0 < dcrH c) && decide (dcrX c + dcrW c ≤ s.strW n) && decide (dcrY c + dcrH c ≤ s.strH n)
/-- At a round boundary of a domain, the rectangles whose streams it has take their settings; a ninth of one stream, or one
that does not fit, is left disabled with ERR set. -/
def dcrTake (d : Nat) : Nat → State → State
  | 0, s => s
  | i + 1, s =>
    let s := dcrTake d i s
    let c := [(s.reg (R.DCR_k_CFG i)).toNat, (s.reg (R.DCR_k_POS i)).toNat, (s.reg (R.DCR_k_SIZE i)).toNat, (s.reg (R.DCR_k_EXPECT i)).toNat]
    let put := fun (s : State) (v : List Nat) => { s with raster := { s.raster with dcrSet := SMap.set (fun _ => []) s.raster.dcrSet i v } }
    if s.getF (F.STR_n_CFG_DOM (dcrStream c)) = d then
      if (c.getD 0 0).testBit 31 then
        if s.dcrFits c && decide (((s.dcrsOf (dcrStream c)).filter (fun k => decide (k < i))).length < 8) then (put s c).setF (F.DCR_k_CFG_ERR i) 0
        else (put s []).setF (F.DCR_k_CFG_ERR i) 1
      else (put s []).setF (F.DCR_k_CFG_ERR i) 0
    else if s.getF (F.STR_n_CFG_DOM (dcrStream (s.dcr i))) = d then put s [] else s
/-- The settings of a domain's rectangles take effect. -/
def State.dcrBoundary (s : State) (d : Nat) : State :=
  let s := dcrTake d 512 s
  s.setF F.DCR_STAT_ACTIVE (s.raster.dcrSet.filter (fun c => !c.2.isEmpty)).length

/-! ### Sending a line (R292, R318, R348) -/

/-- A transmitted pixel packed for the fabric: format 0x4 for 8 bits, 0x5 for 10 (R348). -/
def packCodes (depth : Nat) : Nat → List Nat → List Byte
  | n + 1, r :: g :: b :: rest =>
    leBytes 4 (if depth = 8 then 255 * 2 ^ 24 + r * 2 ^ 16 + g * 2 ^ 8 + b else r * 2 ^ 20 + g * 2 ^ 10 + b) ++ packCodes depth n rest
  | _, _ => []
/-- Send the PIXEL flits of a line, 64 bytes each. -/
def sendPixels (n y total : Nat) (bs : List Byte) : Nat → State → State
  | 0, s => s
  | k + 1, s =>
    let i := total - (k + 1)
    let part := (bs.drop (64 * i)).take 64
    let arg := s.getF (F.STR_n_OUT_FSTREAM n) * 2 ^ 19 + y * 2 ^ 5 + (if i = 0 then 16 else 0) + (if k = 0 then 8 else 0)
    sendPixels n y total bs k
      (s.sendFlit (s.ownFlit 3 0x14 (s.getF (F.STR_n_OUT_FX n)) (s.getF (F.STR_n_OUT_FY n)) arg (part ++ List.replicate (64 - part.length) 0#8)))
/-- Line y of a stream is transmitted. -/
def State.transmit (s : State) (n y : Nat) : State :=
  match SMap.find? (s.strm n).scan y with
  | none => s.setStrm n { s.strm n with sent := none }
  | some (fin, _) =>
    let codes := s.lineCodes n y fin
    let s := s.setStrm n { s.strm n with sent := some (y, codes) }
    let s := dcrLines n y codes (s.dcrsOf n) s
    if s.getF (F.STR_n_CFG_OUT n) = 2 then
      let bs := packCodes (s.getF (F.FIN_n_CFG_DEPTH n)) (s.strW n) codes
      sendPixels n y (ceilDiv bs.length 64) bs (ceilDiv bs.length 64) s
    else s
/-- A RASTER write of DRAM from the raster die: one that the die link drops is counted, and nothing is written (R16). -/
def State.linkWrite (s : State) (dropped : Bool) (a : Nat) (bs : List Byte) : State × Bool :=
  if dropped then (s.bumpF F.DL_RETRY_LATE_CNT, false) else s.writeDram a bs
/-- Writeback of a transmitted line, and the frame that it completes (R292). -/
def State.writeBackLine (s : State) (n y : Nat) (fin : List Pixel) (ws : List Nat) (dropped : Bool) : State :=
  if s.flag (F.STR_n_CFG_WB n) then
    let round := (s.dom (s.getF (F.STR_n_CFG_DOM n))).round
    let buf := round % (s.getF (F.STR_n_FRM_CFG_NBUF n) + 1)
    let fmt := s.getF (F.STR_n_FRM_CFG_FMT n)
    let bs := if s.flag (F.STR_n_CFG_WB_POINT n) then (fin.map (encodePixel fmt)).flatten else tripleBytes ws
    match s.linkWrite dropped (s.frameLine n buf y) bs with
    | (s, ok) =>
      let s := if ok then s.setStrm n { s.strm n with wbLines := (s.strm n).wbLines + 1 } else s
      if (s.strm n).wbLines = s.strH n then (s.setF (F.STR_n_FRM_LAST_BUF n) buf).setF (F.STR_n_FRM_LAST_FRAME n) round else s
  else s
/-- Write composed lines to the hold buffer (R298). -/
def holdWrites (n : Nat) (dropped : Bool) : List (Nat × List Nat) → State → State
  | [], s => s
  | (y, ws) :: r, s => holdWrites n dropped r (s.linkWrite dropped (s.holdLine n y) (tripleBytes ws)).1
/-- What the end of a turn does for a stream: hold-buffer writes, the transmitted line's writeback, rectangles and buffer. `lost` names
a stream n whose hold-buffer writes are dropped as 64 + n, and one whose writeback is dropped as 128 + n. -/
def State.endLine (s : State) (n : Nat) (lost : List Nat) : State :=
  let s := holdWrites n (lost.contains (64 + n)) (s.strm n).composed s
  let s := s.setStrm n { s.strm n with composed := [] }
  match (s.strm n).sent with
  | none => s
  | some (y, _) =>
    let line := SMap.get (fun _ => ([], [])) (s.strm n).scan y
    let s := match SMap.find? (s.strm n).heldLines y with
      | some (ws, true) => (s.linkWrite (lost.contains (64 + n)) (s.holdLine n y) (tripleBytes ws)).1
      | _ => s
    let s := s.writeBackLine n y line.1 line.2 (lost.contains (128 + n))
    let s := dcrEnds y (s.dcrsOf n) s
    let x := s.strm n
    s.setStrm n { x with sent := none, scan := SMap.erase x.scan y, heldLines := SMap.erase x.heldLines y }
def endLines (lost : List Nat) : List Nat → State → State
  | [], s => s
  | n :: r, s => endLines lost r (s.endLine n lost)
/-- The end of a domain's turn. -/
def State.endTurn (s : State) (d : Nat) (lost : List Nat) : State :=
  if (s.dom d).inTurn then
    let s := endLines lost (s.outputsOf d) s
    s.setDom d { s.dom d with inTurn := false }
  else s

/-! ### The turn boundary (R36, R297, R327) -/

/-- What a turn does for one stream. -/
def State.streamTurn (s : State) (n t : Nat) (lost : List Nat) : State :=
  let d := s.getF (F.STR_n_CFG_DOM n)
  let c0 := s.compTurn d
  let v0 := s.getF (F.TB_Dn_VSCAN_V_START d)
  let h := s.strH n
  let s := match lineAt t (c0 + 1) h with
    | some y => s.holdRead n y (lost.contains n)
    | none => s
  let s := match lineAt t c0 h with
    | some y => (s.composeStep n y).dropFetched n y t v0
    | none => s
  let s := match lineAt (t + 1) v0 h with
    | some y => s.finishHeld n y
    | none => s
  match lineAt t v0 h with
  | some y => s.transmit n y
  | none => s
def streamTurns (t : Nat) (lost : List Nat) : List Nat → State → State
  | [], s => s
  | n :: r, s => streamTurns t lost r (s.streamTurn n t lost)
/-- Pulses of REFSYNC_OUT that a turn start causes (R327). -/
def State.syncPulses (s : State) (d turn start len : Nat) : State :=
  let v := s.raster.syncOut
  if bitsOf v 25 24 = d then
    let s := if v.testBit 31 && turn == 0 then
        { s with raster := { s.raster with refF := some (start + 6, start + bitsOf v 23 16 * len + 6) } } else s
    if v.testBit 30 then { s with raster := { s.raster with refL := some (start + 6, start + 6 + min (bitsOf v 9 0) (len - 1)) } } else s
  else s
/-- A domain's turn begins at its next boundary; in STANDBY only the turn grid runs (R422). -/
def State.beginTurn (s : State) (n : Nat) (lost : List Nat) : State :=
  let d := s.dom n
  let start := d.next
  let len := s.getF (F.TB_Dn_TURN_LEN n)
  let s := { s with now := max s.now start }
  let s := s.endTurn n lost
  let turn := if d.fresh then 0 else d.turn + 1
  let s := s.setDom n { s.dom n with next := start + len, turn := turn, turnStart := start, fresh := false, inTurn := true }
  if s.getF F.PWR_STATE_STATE = 2 then s
  else
    let s := s.syncPulses n turn start len
    let s := if n = s.leadDom then
        let s := { s with tt := { s.tt with marks := s.tt.marks ++ [⟨d.round, turn, d.isRepeat, start + len⟩] } }
        if s.seq.started && !d.isRepeat then s.dueChecks turn s.seq.list.lineDue else s
      else s
    streamTurns turn lost (s.outputsOf n) s
/-- RASTER_TURN_BOUNDARY: the next boundary of a domain's turn grid, unless a decision or a round start at it comes first. `lost`
names streams whose RASTER transfers at it are lost or late: a hold-buffer read (n), hold-buffer writes of the turn that ends (64 + n),
its writeback (128 + n). -/
def execRasterTurnBoundary (n : Nat) (lost : List Nat) (upsets : List (Nat × Bool)) (flips : List (Nat × Nat)) (s : State) :
    Host.Outcome State Fault Refusal :=
  let s := (s.strike upsets).strikeCv flips
  let d := s.dom n
  let waits := match d.decided with
    | some x => decide (x.at_ ≤ d.next)
    | none => decide (d.cand ≤ d.next)
  .next (if !d.on then s
    else if !d.run then
      if waits then s else { s.setDom n { d with next := d.next + s.getF (F.TB_Dn_TURN_LEN n) } with now := max s.now d.next }
    else if waits && !d.fresh then s
    else s.beginTurn n lost)

/-! ### Layer fetches (R283) -/

/-- Streams and lines: the first stream line of a fetch and the number of lines a layer has; layer 8 is the gain map. -/
def State.fetchTop (s : State) (n l : Nat) : Nat := if l = 8 then 0 else s.getF (F.STR_n_Ll_POS_Y n l)
def State.fetchLines (s : State) (n l : Nat) : Nat := if l = 8 then s.strH n else s.getF (F.STR_n_Ll_SIZE_H n l)
/-- A layer that is fetched. -/
def State.fetches (s : State) (n l : Nat) : Bool :=
  if l = 8 then s.flag (F.FIN_n_CFG_GAIN_EN n)
  else (s.layersOf n).any (fun x => x.idx == l && decide (x.src < 2))
/-- The bytes of a layer line, reading only the 64-byte blocks that hold a visible pixel (R282). -/
def readBlocks (l : Layer) (above : List Layer) (line bpp a : Nat) : Nat → State → State × List Byte × Bool
  | 0, s => (s, [], false)
  | k + 1, s =>
    match readBlocks l above line bpp a k s with
    | (s, bs, bad) =>
      if l.blockSeen above line bpp k then
        match s.countedRead (a + 64 * k) 64 with
        | (s, more, bad') => (s, bs ++ more, bad || bad')
      else (s, bs ++ List.replicate 64 0#8, bad)
/-- The DRAM that a layer line or gain row lies in: address and bytes (R283). -/
def State.lineSpan (s : State) (n li line : Nat) (frame : Option Nat) : Nat × Nat :=
  if li = 8 then
    (s.getF (F.FIN_n_GBASE_BASE n) * 65536 + line / 2 ^ s.getF (F.FIN_n_GCFG_GH n) * (s.getF (F.FIN_n_GCFG_PITCH n) * 64),
      4 * ceilDiv (s.strW n) (2 ^ s.getF (F.FIN_n_GCFG_GW n)))
  else
    let l := s.layer n li
    let len := l.w * pixelBytes (s.layerFmt l)
    if l.src = 0 then (l.base + line * l.pitch, len)
    else match frame.bind (s.strm l.cap).frame? with
      | some f => (s.frameLine l.cap f.buf line, len)
      | none => (0, 0)
/-- Read a layer line or gain row for a round: the bytes, whether the read failed, and the captured frame it is of; none when
there is nothing to read. -/
def State.readLayerLine (s : State) (n li line : Nat) (frame : Option Nat) : Option (State × List Byte × Bool) :=
  if li = 8 then
    let row := line / 2 ^ s.getF (F.FIN_n_GCFG_GH n)
    let cells := ceilDiv (s.strW n) (2 ^ s.getF (F.FIN_n_GCFG_GW n))
    some (s.countedRead (s.getF (F.FIN_n_GBASE_BASE n) * 65536 + row * (s.getF (F.FIN_n_GCFG_PITCH n) * 64)) (4 * cells))
  else
    let l := s.layer n li
    let above := layersAbove li (s.layersOf n)
    let bpp := pixelBytes (s.layerFmt l)
    if !l.visible above line then none
    else if l.src = 0 then some (readBlocks l above line bpp (l.base + line * l.pitch) (ceilDiv (l.w * bpp) 64) s)
    else match frame with
      | none => none
      | some id => match (s.strm l.cap).frame? id with
        | none => none
        | some f =>
          if f.lines.contains line then some (readBlocks l above line bpp (s.frameLine l.cap f.buf line) (ceilDiv (l.w * bpp) 64) s) else none
/-- Lines of a layer in the line buffer or on their way to it. -/
def State.bufferedLines (s : State) (n l : Nat) : Nat :=
  ((s.strm n).fetched.filter (fun f => f.layer == l)).length +
  (s.raster.dl.toRaster.filter (fun m => match m.body with | .layerLine _ n' l' _ _ _ _ => n' == n && l' == l | _ => false)).length

end Sys2Proof.Machine
end

