-- ==== Sys2Proof/Machine/VideoPorts.lean ====
section
/-! DEFINITION. Inputs and outputs of the raster die: triggers (R45, R46, R300), capture streams (R291, R322, R323, R348),
capture notices (R223) and DisplayPort ports (R316 to R324). -/

namespace Sys2Proof.Machine

/-! ### Triggers -/

/-- The settings of a domain that its registers give (R42). -/
def State.domSet (s : State) (n : Nat) : DomSet :=
  { src := s.getF (F.TB_Dn_CFG_TRIG_SRC n), edge := s.flag (F.TB_Dn_CFG_EDGE n), ann := s.getF (F.TB_Dn_CFG_ANNOUNCE n)
    vtMin := s.getF (F.TB_Dn_VTOT_VT_MIN n), vtMax := s.getF (F.TB_Dn_VTOT_VT_MAX n) }
/-- A trigger of a domain is stamped: pending from its tick while the turn grid runs. -/
def State.addTrigger (s : State) (n tick : Nat) : State :=
  let d := s.dom n
  if d.on then s.setDom n { d with trigs := d.trigs ++ [tick] } else s
/-- A trigger of the source that the registers name, while another source or edge is in force: it counts only if it is stamped at or
after the boundary at which the written source takes effect (R42). -/
def State.addNextTrigger (s : State) (n tick : Nat) : State :=
  let d := s.dom n
  let w := s.domSet n
  if d.on && !(w.src == d.set.src && w.edge == d.set.edge) then s.setDom n { d with nextTrigs := d.nextTrigs ++ [(w.src, w.edge, tick)] } else s
/-- Triggers for every domain with a source in force, or written for its next boundary, that satisfies a test. -/
def trigDomains (test : Nat → DomSet → Bool) (tick : Nat) : Nat → State → State
  | 0, s => s
  | n + 1, s =>
    let s := trigDomains test tick n s
    let s := if test n (s.domSet n) then s.addNextTrigger n tick else s
    if test n (s.dom n).set then s.addTrigger n tick else s
/-- TB_SWTRIG: software triggers (R45). -/
def execTbSwtrig (v : Word32) (s : State) : Host.Outcome State Fault Refusal :=
  .next (trigDomains (fun n d => d.src == 9 && v.toNat.testBit n) s.now 4 s)

/-- The panel sync monitor of a domain (R300). -/
def tearDomains (pin : Nat) (rising : Bool) (tick : Nat) : Nat → State → State
  | 0, s => s
  | n + 1, s =>
    let s := tearDomains pin rising tick n s
    let d := s.dom n
    let len := s.getF (F.TB_Dn_TURN_LEN n)
    let first := d.start + s.getF (F.TB_Dn_VSCAN_V_START n) * len
    if s.flag (F.TB_Dn_PSMON_EN n) && s.getF (F.TB_Dn_PSMON_PIN n) == pin && s.flag (F.TB_Dn_PSMON_EDGE n) != rising && d.run &&
       decide (first ≤ tick) && decide (tick < first + s.getF (F.TB_Dn_PSMON_LINES n) * len)
    then s.bumpF (F.TB_Dn_TEAR_COUNT n) else s
/-- The phase pin stamps every enabled domain. -/
def phaseDomains (tick : Nat) : Nat → State → State
  | 0, s => s
  | n + 1, s =>
    let s := phaseDomains tick n s
    if (s.dom n).on then s.setDom n { s.dom n with lphase := some tick } else s
/-- SYNC_PIN_EDGE: an edge at a ball, 0 REFSYNC_IN_F, 1 REFSYNC_IN_L, 2 to 5 PSYNC0 to PSYNC3 (R46, R300, R326). -/
def execSyncPinEdge (pin : Nat) (rising : Bool) (tick : Nat) (s : State) : Host.Outcome State Fault Refusal :=
  let s := { s with now := max s.now tick }
  .next (if pin = 1 then phaseDomains tick 4 s
    else if pin = 0 then trigDomains (fun _ d => d.src == 1 && d.edge != rising) tick 4 s
    else if pin < 6 then tearDomains (pin - 2) rising tick 4 (trigDomains (fun _ d => d.src == pin + 2 && d.edge != rising) tick 4 s)
    else s)

/-! ### Capture streams -/

/-- Frames that rounds in progress have bound: layers of enabled output streams of domains that run, and the tensor side's binding. -/
def State.boundFrames (s : State) (n : Nat) : List Nat :=
  (((List.range 64).filter (fun o => s.isOutput o && (s.dom (s.getF (F.STR_n_CFG_DOM o))).run)).map (fun o => ((s.strm o).binds.filter (fun b => s.getF (F.STR_n_Ll_CFG_CAP o b.1) == n)).map (fun b => b.2))).flatten ++
  (if (s.dom s.leadDom).run then (s.seq.binds.filter (fun b => b.stream == n)).map (fun b => b.frame) else [])
/-- The buffer a new frame takes: the first after the last used that no round in progress has bound (R291). -/
def State.nextBuffer (s : State) (n : Nat) : Option Nat :=
  let nbuf := s.getF (F.STR_n_FRM_CFG_NBUF n) + 1
  let x := s.strm n
  let bound := s.boundFrames n
  let taken := (x.frames.filter (fun f => bound.contains f.id)).map (fun f => f.buf)
  match x.lastBuf with
  | none => some 0
  | some b => ((List.range (nbuf - 1)).map (fun i => (b + 1 + i) % nbuf)).find? (fun i => !taken.contains i)
def StreamRt.updFrame (x : StreamRt) (id : Nat) (f : CapFrame → CapFrame) : StreamRt :=
  { x with frames := x.frames.map (fun g => if g.id = id then f g else g) }
/-- The frame that lines still arrive for. -/
def StreamRt.openFrame (x : StreamRt) : Option CapFrame := x.frames.find? (fun f => f.isOpen)
def StreamRt.closeAll (x : StreamRt) : StreamRt := { x with frames := x.frames.map (fun f => { f with isOpen := false }) }
/-- A new frame begins with its line 0. -/
def State.openCapture (s : State) (n tick : Nat) : State :=
  let x := (s.strm n).closeAll
  match s.nextBuffer n with
  | none => (s.setStrm n x).bumpF (F.STR_n_EVT_DROP n)
  | some b =>
    s.setStrm n { x with frames := x.frames.filter (fun f => f.buf != b) ++ [{ id := x.nextFrame, buf := b, start := tick }],
                         nextFrame := x.nextFrame + 1, lastBuf := some b }
/-- A line of an input, in the capture format, is received: queued for its write into the frame (R291). -/
def State.captureLine (s : State) (n line tick : Nat) (bs : List Byte) : State :=
  let s := if line = 0 then s.openCapture n tick else s
  let x := s.strm n
  match x.openFrame with
  | none => s
  | some f =>
    if line ≠ f.received then s.setStrm n (x.updFrame f.id (fun g => { g with isOpen := false }))
    else if s.strH n ≤ line then s
    else
      (s.setStrm n { x.updFrame f.id (fun g => { g with received := line + 1 }) with writes := x.writes ++ [⟨f.id, line, bs⟩] }).setF
        (F.STR_n_STATUS_LINE n) line
/-- An n-bit input component in m bits (R322). -/
def scaleInput (n m k : Nat) : Nat := roundNat .rna (k * (2 ^ m - 1)) (2 ^ n - 1)
/-- The pixels of an input line in the capture format. -/
def inputBytes (fmt depth : Nat) : Nat → List Nat → List Byte
  | w + 1, r :: g :: b :: rest =>
    (if fmt = 5 then leBytes 4 (scaleInput depth 10 r * 2 ^ 20 + scaleInput depth 10 g * 2 ^ 10 + scaleInput depth 10 b)
     else if fmt = 4 then leBytes 4 (255 * 2 ^ 24 + scaleInput depth 8 r * 2 ^ 16 + scaleInput depth 8 g * 2 ^ 8 + scaleInput depth 8 b)
     else leBytes 3 (scaleInput depth 8 r * 2 ^ 16 + scaleInput depth 8 g * 2 ^ 8 + scaleInput depth 8 b)) ++ inputBytes fmt depth w rest
  | _, _ => []
/-- The capture streams of a source and sub-stream. -/
def State.captureOf (s : State) (src sub : Nat) : List Nat :=
  (List.range 64).filter (fun n => s.isCapture n && s.getF (F.STR_n_FRM_CFG_SRC n) == src && s.getF (F.STR_n_FRM_CFG_SUB n) == sub &&
    !s.flag (F.STR_n_STATUS_SHED n))
def captureAll (line tick depth : Nat) (comps : List Nat) : List Nat → State → State
  | [], s => s
  | n :: r, s =>
    captureAll line tick depth comps r (if comps.length < 3 * s.strW n then s
      else s.captureLine n line tick (inputBytes (s.getF (F.STR_n_FRM_CFG_FMT n)) depth (s.strW n) comps))
/-- DPRX_LINE_RECEIVED: content-ready stamps and capture (R45, R322). -/
def execDprxLineReceived (port sub line tick depth : Nat) (comps : List Nat) (s : State) : Host.Outcome State Fault Refusal :=
  let s := { s with now := max s.now tick }
  .next (if decide (port < 2) && s.flag (F.DPI_p_CFG_EN port) && s.flag (F.DPI_p_STATUS_TRAINED port) then
    let t := s
    let s := trigDomains (fun n d => d.src == 2 + port && t.getF (F.TB_Dn_CONTENT_LINE n) == line && t.getF (F.TB_Dn_CONTENT_SUB n) == sub) tick 4 s
    captureAll line tick depth comps (s.captureOf port sub) s
  else s)
/-- CAPTURE_LINE_WRITTEN: the oldest captured line's write completes, or is dropped late on the die link and counted (R16); its notice goes
out (R223, R291). -/
def execCaptureLineWritten (n : Nat) (lost : Bool) (s : State) : Host.Outcome State Fault Refusal :=
  let x := s.strm n
  .next (match x.writes with
    | [] => s
    | w :: r =>
      let s := s.setStrm n { x with writes := r }
      match x.frame? w.frame with
      | none => s
      | some f =>
        if !lost && s.stripesWait (s.frameLine n f.buf w.line) w.bytes.length then s.setStrm n x
        else match (if lost then (s.bumpF F.DL_RETRY_LATE_CNT, false) else s.writeDram (s.frameLine n f.buf w.line) w.bytes) with
        | (s, false) => s
        | (s, true) =>
          let x := (s.strm n).updFrame w.frame (fun g => { g with lines := g.lines ++ [w.line] })
          let s := (s.setStrm n x).toTensor (.notice n w.frame) 8
          if f.lines.length + 1 = s.strH n then
            (s.setF (F.STR_n_FRM_LAST_BUF n) f.buf).setF (F.STR_n_FRM_LAST_FRAME n) (s.getF (F.STR_n_FRM_LAST_FRAME n) + 1)
          else s)
/-- Take the first notice of a queue, with the tick at which it was accepted. It passes a transfer whose data are still being read, and
none that was accepted before it (R13). -/
def popNotice : List DlMsg → Option ((Nat × Nat × Nat) × List DlMsg)
  | [] => none
  | m :: r => match m.body with
    | .notice n f => some ((n, f, m.queued), r)
    | _ => ((popNotice r).filter (fun x => match m.accepted with | some a => decide (x.1.2.2 < a) | none => true)).map (fun x => (x.1, m :: x.2))
/-- CAPTURE_NOTICE: the oldest notice acts on the tensor side, or is dropped late (R16, R223). -/
def execCaptureNotice (late : Bool) (s : State) : Host.Outcome State Fault Refusal :=
  .next (match popNotice s.raster.dl.toTensor with
    | none => s
    | some ((n, f, a), q) =>
      let late := late || decide (a + rasterTicks < s.now)
      let s := { s with now := max s.now (a + rasterTicks) }.setDl { s.raster.dl with toTensor := q, lastAccepted := SMap.set (fun _ => 0) s.raster.dl.lastAccepted 0 a }
      if late then s.bumpF F.DL_RETRY_LATE_CNT
      else s.setStrm n ((s.strm n).updFrame f (fun g => { g with noticed := g.noticed + 1 })))
/-- A pixel flit for a capture stream whose source is the fabric: gathered into its line (R348). -/
def State.pixelFlit (s : State) (f : FabFlit) : State :=
  let n := bitsOf f.arg 24 19
  let line := bitsOf f.arg 18 5
  let from_ := f.sy * 64 + f.sx
  if !s.isCapture n || s.getF (F.STR_n_FRM_CFG_SRC n) != 2 || s.flag (F.STR_n_STATUS_SHED n) then s.dropFlit
  else
    let x := s.strm n
    let opens := line == 0 && f.arg.testBit 4 && (x.sender.isNone || x.sender == some from_ || x.openFrame.isNone)
    if !opens && x.sender != some from_ then s.dropFlit
    else
      let part := (if f.arg.testBit 4 then [] else x.part) ++ f.payload
      let s := s.setStrm n { x with sender := some from_, part := part }
      if f.arg.testBit 3 then
        let bytes := s.strW n * pixelBytes (s.getF (F.STR_n_FRM_CFG_FMT n))
        let s := s.setStrm n { s.strm n with part := [], sender := if line + 1 = s.strH n then none else some from_ }
        if part.length < bytes then s
        else s.captureLine n line s.now (captureBytes (s.getF (F.STR_n_FRM_CFG_FMT n)) (s.strW n) part)
      else s

/-! ### Receive ports (R322, R323) -/

/-- Frames in arrival from a port end where they are. -/
def stopInputs (port : Nat) (sub : Option Nat) : Nat → State → State
  | 0, s => s
  | n + 1, s =>
    let s := stopInputs port sub n s
    let mine := s.isCapture n && s.getF (F.STR_n_FRM_CFG_SRC n) == port &&
      (match sub with | some k => s.getF (F.STR_n_FRM_CFG_SUB n) == k | none => true)
    if mine then s.setStrm n (s.strm n).closeAll else s
/-- DPRX_LINK_LOSS: the link of a receive port is lost, or the input of one sub-stream stops (R323). -/
def execDprxLinkLoss (port : Nat) (sub : Option Nat) (s : State) : Host.Outcome State Fault Refusal :=
  .next (if port < 2 then
    let s := stopInputs port sub 64 s
    match sub with
    | some _ => s.setF (F.DPI_p_STATUS_SUBS port) (s.getF (F.DPI_p_STATUS_SUBS port) - 1)
    | none =>
      ((((s.setF (F.DPI_p_STATUS_TRAINED port) 0).setF (F.DPI_p_STATUS_SUBS port) 0).setF (F.DPI_p_STATUS_RATE port) 0).setF
        (F.DPI_p_STATUS_LANES port) 0).record 0x0A port port
  else s)
/-- DPRX_LINK_TRAINED: a source trains the link of an enabled receive port, within what the port advertises (R322, R323). -/
def execDprxLinkTrained (port rate lanes subs : Nat) (mst dsc : Bool) (s : State) : Host.Outcome State Fault Refusal :=
  .next (if decide (port < 2) && s.flag (F.DPI_p_CFG_EN port) && decide (1 ≤ rate) && decide (rate ≤ s.getF (F.DPI_p_CFG_RATE port)) &&
      [1, 2, 4].contains lanes && decide (lanes ≤ s.getF (F.DPI_p_CFG_LANES port)) && decide (subs ≤ 16) &&
      (!mst || s.flag (F.DPI_p_CFG_MST port)) && (!dsc || s.flag (F.DPI_p_CFG_DSC port)) then
    let s := stopInputs port none 64 s
    let s := (s.setF (F.DPI_p_STATUS_TRAINED port) 1).setF (F.DPI_p_STATUS_HPD port) 1
    let s := (s.setF (F.DPI_p_STATUS_MST port) mst.toNat).setF (F.DPI_p_STATUS_DSC port) dsc.toNat
    ((s.setF (F.DPI_p_STATUS_SUBS port) subs).setF (F.DPI_p_STATUS_RATE port) rate).setF (F.DPI_p_STATUS_LANES port) lanes
  else s)

/-! ### Transmit ports (R316, R317, R319, R321) -/

/-- The streams a port carries, each with the width it carries. -/
def State.carried (s : State) (p : Nat) : List (Nat × Nat) :=
  if s.flag (F.DPO_p_CFG_TILE p) then
    let n := s.getF (F.DPO_p_CFG_TSTREAM p)
    if s.isOutput n then [(n, s.getF (F.DPO_p_TILE_TW p))] else []
  else
    ((List.range 64).filter (fun n => s.isOutput n && s.getF (F.STR_n_CFG_OUT n) == 1 && s.getF (F.STR_n_OUT_PORT n) == p)).map
      (fun n => (n, s.strW n))
/-- Bits of a pixel on a port, in sixteenths. -/
def State.pixelBits16 (s : State) (p n : Nat) : Nat :=
  if s.flag (F.DPO_p_CFG_DSC p) then s.getF (F.DPO_p_DSC_BPP p) else 48 * s.getF (F.FIN_n_CFG_DEPTH n)
/-- The sum of a port's line rates, in Mbit/s (R317). -/
def State.portRate (s : State) (p : Nat) : ExactQ :=
  (s.carried p).foldl (fun a c =>
    a.add ⟨Int.ofNat (c.2 * s.pixelBits16 p c.1 * 1000000), 16 * max 1 (s.getF (F.TB_Dn_TURN_LEN (s.getF (F.STR_n_CFG_DOM c.1))))⟩) ⟨0, 1⟩
/-- Budget of a lane in Mbit/s, by rate code. -/
def laneBudget : Nat → Nat
  | 1 => 1257 | 2 => 2095 | 3 => 4190 | 4 => 6286 | 5 => 9406 | 6 => 12698 | 7 => 18812 | _ => 0
/-- A port's line rates meet the budget of a rate and lane count. -/
def State.portFits (s : State) (p rate lanes : Nat) : Bool :=
  (s.portRate p).le (if s.flag (F.DPO_p_CFG_MST p) then ⟨Int.ofNat (laneBudget rate * lanes * 63), 64⟩ else ⟨Int.ofNat (laneBudget rate * lanes), 1⟩)
/-- A stream needs Adaptive-Sync (R319). -/
def State.adaptiveSync (s : State) (n : Nat) : Bool :=
  let d := s.getF (F.STR_n_CFG_DOM n)
  decide (s.getF (F.TB_Dn_VTOT_VT_MIN d) < s.getF (F.TB_Dn_VTOT_VT_MAX d))
/-- The conditions under which a port carries video (R321). -/
def State.portReady (s : State) (p : Nat) : Bool :=
  s.flag (F.DPO_p_CFG_EN p) && s.flag (F.DPO_p_STATUS_TRAINED p) &&
  s.portFits p (s.getF (F.DPO_p_STATUS_RATE p)) (s.getF (F.DPO_p_STATUS_LANES p)) &&
  (!s.flag (F.DPO_p_CFG_DSC p) || s.flag (F.DPO_p_STATUS_SINK_DSC p)) &&
  (!(s.carried p).any (fun c => s.adaptiveSync c.1) || s.flag (F.DPO_p_STATUS_SINK_ASYNC p)) &&
  (!s.flag (F.DPO_p_CFG_MST p) || s.raster.txMst.contains p)
/-- Stop a port's video. -/
def State.stopVideo (s : State) (p : Nat) : State :=
  let s := s.setF (F.DPO_p_STATUS_VIDEO p) 0
  { s with raster := { s.raster with video := s.raster.video.filter (fun v => v.1 != p) } }
/-- At a round boundary of a domain, the ports that are ready send its streams, and the others do not (R321). -/
def State.portBoundary (s : State) (d : Nat) : Nat → State
  | 0 => s
  | p + 1 =>
    let s := State.portBoundary s d p
    let mine := ((s.carried p).map (fun c => c.1)).filter (fun n => s.getF (F.STR_n_CFG_DOM n) == d)
    let others := s.raster.video.filter (fun v => !(v.1 == p && s.getF (F.STR_n_CFG_DOM v.2) == d))
    let video := if s.portReady p then others ++ mine.map (fun n => (p, n)) else others
    let s := { s with raster := { s.raster with video := video } }
    s.setF (F.DPO_p_STATUS_VIDEO p) (video.any (fun v => v.1 == p)).toNat
/-- Training starts on a port. -/
def State.startTraining (s : State) (p : Nat) : State :=
  let s := s.stopVideo p
  ((s.setF (F.DPO_p_STATUS_TRAINED p) 0).setF (F.DPO_p_STATUS_RATE p) 0).setF (F.DPO_p_STATUS_LANES p) 0
/-- DPTX_HPD: a sink asserts HPD, or reports a link failure; an enabled port trains (R321, R324). -/
def execDptxHpd (port : Nat) (failure : Bool) (s : State) : Host.Outcome State Fault Refusal :=
  .next (if port < 4 then
    let s := if failure then s else s.setF (F.DPO_p_STATUS_HPD port) 1
    if s.flag (F.DPO_p_CFG_EN port) && s.flag (F.DPO_p_STATUS_HPD port) then s.startTraining port else s
  else s)
/-- DPTX_TRAINING_COMPLETE: training ends at a rate and lane count no higher than the targets, or fails (rate 0); a port that
cannot carry video is recorded and sends the idle pattern (R321). -/
def execDptxTrainingComplete (port rate lanes : Nat) (dsc async mst : Bool) (s : State) : Host.Outcome State Fault Refusal :=
  .next (if decide (port < 4) && s.flag (F.DPO_p_CFG_EN port) && s.flag (F.DPO_p_STATUS_HPD port) &&
      decide (rate ≤ s.getF (F.DPO_p_CFG_RATE port)) && decide (lanes ≤ s.getF (F.DPO_p_CFG_LANES port)) then
    let s := s.startTraining port
    let s := (s.setF (F.DPO_p_STATUS_SINK_DSC port) dsc.toNat).setF (F.DPO_p_STATUS_SINK_ASYNC port) async.toNat
    let s := { s with raster := { s.raster with txMst := s.raster.txMst.filter (fun q => q != port) ++ (if mst then [port] else []) } }
    if rate = 0 ∨ lanes = 0 then (s.bumpF (F.DPO_p_STATUS_LOSS port)).record 0x0A port port
    else
      let s := ((s.setF (F.DPO_p_STATUS_TRAINED port) 1).setF (F.DPO_p_STATUS_RATE port) rate).setF (F.DPO_p_STATUS_LANES port) lanes
      if s.portReady port then s else s.record 0x0A port port
  else s)
/-- DPTX_LINK_LOSS: nothing more is sent in the round; an unplugged sink no longer asserts HPD (R321). -/
def execDptxLinkLoss (port : Nat) (unplugged : Bool) (s : State) : Host.Outcome State Fault Refusal :=
  .next (if decide (port < 4) && s.flag (F.DPO_p_STATUS_TRAINED port) then
    let s := ((s.startTraining port).bumpF (F.DPO_p_STATUS_LOSS port)).record 0x0A port port
    if unplugged then s.setF (F.DPO_p_STATUS_HPD port) 0 else s
  else if port < 4 ∧ unplugged then s.setF (F.DPO_p_STATUS_HPD port) 0 else s)

end Sys2Proof.Machine
end

