-- ==== Sys2Proof/Machine/Bundle.lean ====
section
/-! DEFINITION. Bundle images: the header and its directory (R386), move-list sections (R387), the region map, capability
matching (R30, R31), and the checks of a move list at load and at start (R228). Where the region map's bytes are not laid
out by the spec the model takes the layouts of R232 for the regions, followed by 16 LINE_END halfwords (DESIGN CHOICE). -/

namespace Sys2Proof.Machine

/-- Completion codes (R382). -/
abbrev Code := Nat
def ccOk : Code := 0x00
def ccBusy : Code := 0x01
def ccLate : Code := 0x02
def ccBudget : Code := 0x03
def ccCapability : Code := 0x04
def ccSignature : Code := 0x05
def ccState : Code := 0x06
def ccNoSpace : Code := 0x07
def ccDuplicate : Code := 0x08
def ccVoided : Code := 0x09
def ccFormat : Code := 0x0A
def ccExpired : Code := 0x0B
def ccUnreachable : Code := 0x0C
def ccFaulted : Code := 0x0D
def ccDenied : Code := 0x0E
def ccIo : Code := 0x0F
/-- The code of the first test of a list that holds; OK when none does. -/
def firstCode : List (Bool × Code) → Code
  | [] => ccOk
  | (b, c) :: r => if b then c else firstCode r

/-! ### Capabilities (R28, R30, R31) -/

/-- Mask fields of the capability words, by word. -/
def capMasks : List (Nat × Nat × Nat) := [(0, 31, 16), (0, 3, 0), (1, 31, 16), (2, 31, 30)]
/-- Counts of the capability words: the required one is at most the published one. -/
def capCounts : List (Nat × Nat × Nat) :=
  [(1, 15, 8), (2, 23, 20), (2, 19, 16), (2, 15, 12), (2, 11, 8), (2, 7, 4), (2, 3, 0), (3, 31, 28), (3, 27, 24), (3, 23, 20),
   (3, 19, 16), (3, 15, 12), (3, 11, 8)]
/-- A published capability word. -/
def State.capWord (s : State) (i : Nat) : Nat := (s.reg (R.HUB_CAP0 + 4 * i)).toNat
/-- Required capability words are met (R30). -/
def State.capsMet (s : State) (req : List Nat) : Bool :=
  capMasks.all (fun (w, hi, lo) =>
    let r := bitsOf (req.getD w 0) hi lo
    r &&& bitsOf (s.capWord w) hi lo == r) &&
  capCounts.all (fun (w, hi, lo) => decide (bitsOf (req.getD w 0) hi lo ≤ bitsOf (s.capWord w) hi lo)) &&
  (!(req.getD 0 0).testBit 8 || (s.capWord 0).testBit 8)

/-- Members of a bit mask among the first n, ascending. -/
def maskList (m n : Nat) : List Nat := (List.range n).filter (fun i => m.testBit i)
/-- Physical quarters of the logical quarters 0 to 3 that a list names; none when too few are usable (R31). -/
def State.bindQuarters (s : State) (l : MoveList) : Option (List Nat) :=
  if l.quarter then
    let named := maskList l.quarters 4
    let phys := maskList (s.getF F.HUB_CAP0_Q_MASK) 4
    if phys.length < named.length then none
    else some ((List.range 4).map (fun q => if named.contains q then phys.getD (named.filter (fun x => decide (x < q))).length q else q))
  else if s.flag F.HUB_CAP0_WHOLE then some [0, 1, 2, 3] else none

/-! ### Move-list sections (R387) -/

/-- Entries of fixed size from an offset. -/
def entriesAt (bs : List Byte) (off size n : Nat) : List (List Byte) := (List.range n).map (fun i => (bs.drop (off + size * i)).take size)
/-- The claim records of a section: (launch, claims), and where they end; none when a count runs past the end. -/
def claimsAt (bs : List Byte) : Nat → Nat → Option (List (Nat × List (Nat × Nat × Nat)) × Bool × Nat)
  | 0, off => some ([], true, off)
  | n + 1, off =>
    let k := fieldAt bs (off + 4) 4
    if bs.length < off + 8 + 4 * k then none
    else
      let ws := (entriesAt bs (off + 8) 4 k).map leNat
      match claimsAt bs n (off + 8 + 4 * k) with
      | none => none
      | some (r, ok, e) =>
        some ((fieldAt bs off 4, ws.map (fun w => (bitsOf w 15 0, bitsOf w 19 16, bitsOf w 24 20))) :: r,
          ok && ws.all (fun w => bitsOf w 31 25 == 0), e)
/-- Read a move-list section: its declarations and moves, and whether its fixed fields, counts and length are as R387 gives
them. -/
def parseList (bs : List Byte) : MoveList × Bool :=
  let f := fieldAt bs
  let quarter := f 0x0C 1 == 1
  let units := if quarter then (maskList (f 0x0D 1) 4).map (fun q => 0x10 + q) else [0x14]
  let base : MoveList :=
    { cd := f 0 4, lMin := f 4 4, vtMin := f 8 2, aclkMin := f 0xA 2, quarter := quarter, quarters := f 0x0D 1 % 16,
      reqCap := [f 0x10 4, f 0x14 4, f 0x18 4, f 0x1C 4], haloLead := [f 0x30 1, f 0x31 1, f 0x32 1, f 0x33 1] }
  let nMoves := f 0x20 4
  let nRange := f 0x24 2
  let oRing := 64 + 8 * nRange
  let oClaim := oRing + 16 * f 0x26 2
  match claimsAt bs (f 0x28 2) oClaim with
  | none => (base, false)
  | some (claims, claimsOk, oAcc) =>
    let oBw := oAcc + 4 * units.length
    let oBal := oBw + 72
    let oCap := oBal + 16 * f 0x2E 2
    let oDue := oCap + 8 * f 0x2A 2
    let oMv := oDue + 8 * f 0x2C 2
    if bs.length < 64 ∨ bs.length ≠ oMv + 16 * nMoves then (base, false)
    else
      let caps := entriesAt bs oCap 8 (f 0x2A 2)
      let dues := entriesAt bs oDue 8 (f 0x2C 2)
      ({ base with
          ranges := (entriesAt bs 64 8 nRange).map leNat
          rings := (entriesAt bs oRing 16 (f 0x26 2)).map (fun e =>
            ⟨fieldAt e 0 1, fieldAt e 1 1, fieldAt e 2 1, fieldAt e 3 1 + 1, fieldAt e 8 8, fieldAt e 4 4⟩)
          claims := claims
          accRows := (units.zip (entriesAt bs oAcc 4 units.length)).map (fun (u, e) => (u, fieldAt e 0 2, fieldAt e 2 2))
          moverBytes := (entriesAt bs oBw 4 16).map leNat
          dlBytes := (entriesAt bs (oBw + 64) 4 2).map leNat
          balance := (entriesAt bs oBal 16 (f 0x2E 2)).map (fun e => (fieldAt e 0 8, fieldAt e 8 4, fieldAt e 12 4))
          capture := caps.map (fun e => (fieldAt e 0 1, fieldAt e 2 2, fieldAt e 4 4))
          lineDue := dues.map (fun e => (fieldAt e 0 1, fieldAt e 4 4))
          moves := (entriesAt bs oMv 16 nMoves).map leNat },
        claimsOk && f 0x0E 2 == 0 && f 0x34 12 == 0 && decide (f 0x0C 1 ≤ 1) && decide (f 0x0D 1 < 16) &&
        caps.all (fun e => fieldAt e 1 1 == 0) && dues.all (fun e => fieldAt e 1 3 == 0))

/-! ### The image (R386, R390 steps 1 and 5) -/

/-- A directory entry. -/
structure DirEntry where
  typ : Nat
  arg : Nat
  flags : Nat
  off : Nat
  len : Nat
  dest : Nat
  /-- the entry's 32 bytes, and the section's bytes (decrypted where it is encrypted) -/
  raw : List Byte
  bytes : List Byte
deriving DecidableEq, Repr
def dirEntry (img raw : List Byte) : DirEntry :=
  let off := fieldAt raw 8 8
  let len := fieldAt raw 16 8
  ⟨fieldAt raw 0 2, fieldAt raw 2 2, fieldAt raw 4 4, off, len, fieldAt raw 24 8, raw, (img.drop off).take len⟩
def DirEntry.space (e : DirEntry) : Nat := bitsOf e.dest 63 60
def DirEntry.encrypted (e : DirEntry) : Bool := e.flags.testBit 0
/-- The section directory. -/
def directory (img : List Byte) : List DirEntry := (entriesAt img 0x100 32 (fieldAt img 0x2A 1)).map (dirEntry img)
def bSigned (img : List Byte) : Bool := (fieldAt img 7 1).testBit 2
def bEncrypted (img : List Byte) : Bool := (fieldAt img 7 1).testBit 0
def bSignedLen (img : List Byte) : Nat := fieldAt img 0x10 8
/-- Step 1 of R390: the header and the directory are well formed. -/
def imageOk (img : List Byte) (len : Nat) : Bool :=
  let total := fieldAt img 8 8
  let nsec := fieldAt img 0x2A 1
  decide (0x100 ≤ img.length) && fieldAt img 0 4 == 0x4442474E && fieldAt img 4 2 == 1 && decide (total ≤ len) &&
  decide (bSignedLen img ≤ total) && decide (fieldAt img 7 1 < 8) && fieldAt img 0x34 4 == 0 && fieldAt img 0x78 136 == 0 &&
  decide (fieldAt img 0x29 1 < 4) && decide (1 ≤ nsec) && decide (1 ≤ fieldAt img 0x2B 1) && decide (fieldAt img 0x2B 1 ≤ 15) &&
  (bSigned img || bSignedLen img == total) && decide (0x100 + 32 * nsec ≤ bSignedLen img) &&
  (directory img).all (fun e => decide (e.flags < 2) && decide (e.off + e.len ≤ bSignedLen img))

/-- The region map's 128 bytes: regions as in R232, then LINE_END of each core. -/
def mapOk (m : List Byte) : Bool :=
  m.length == 128 &&
  (List.range 4).all (fun r =>
    let w0 := fieldAt m (8 * r) 4
    let w1 := fieldAt m (8 * r + 4) 4
    bitsOf w0 23 17 == 0 && bitsOf w0 30 28 == 0 && bitsOf w1 31 17 == 0 && decide (bitsOf w0 16 0 ≤ bitsOf w1 16 0) &&
    decide (bitsOf w1 16 0 * 64 ≤ sliceSize)) &&
  (List.range 4).all (fun r =>
    let b := fieldAt m (32 + 16 * r) 8
    let e := fieldAt m (40 + 16 * r) 8
    bitsOf b 63 48 == 0 && bitsOf b 11 1 == 0 && bitsOf e 63 48 == 0 && bitsOf e 11 0 == 0 && decide (b / 4096 * 4096 ≤ e) &&
    regionPlaced (b / 4096 * 4096) e) &&
  (List.range 16).all (fun n => decide (fieldAt m (96 + 2 * n) 2 < 16384))
def mapLineEnd (m : List Byte) (n : Nat) : Nat := fieldAt m (96 + 2 * n) 2
/-- A slice interval lies in a scratchpad region of a region map. -/
def mapHolds (m : List Byte) (slice off len : Nat) : Bool :=
  (List.range 4).any (fun r =>
    let w0 := fieldAt m (8 * r) 4
    bitsOf w0 27 24 == slice && decide (bitsOf w0 16 0 * 64 ≤ off) && decide (off + len ≤ fieldAt m (8 * r + 4) 4 * 64))
/-- The region map of an image: that of its one section of type 0x0A, or an empty one. -/
def regionMap (dir : List DirEntry) : List Byte :=
  match dir.find? (fun e => e.typ == 0x0A) with
  | some e => e.bytes
  | none => List.replicate 128 0#8
/-- Bytes a section puts at its destination. -/
def DirEntry.destBytes (e : DirEntry) : Nat := e.bytes.length
/-- The destination of a section as (kind, unit, first, end): 0 DRAM area, 1 slice, 2 instruction memory. -/
def DirEntry.span (e : DirEntry) : Option (Nat × Nat × Nat × Nat) :=
  match e.space with
  | 0 => some (0, 0, bitsOf e.dest 59 0, bitsOf e.dest 59 0 + e.destBytes)
  | 1 => some (1, bitsOf e.dest 59 56, bitsOf e.dest 21 0, bitsOf e.dest 21 0 + e.destBytes)
  | 2 => some (2, e.arg, 0, e.destBytes)
  | _ => none
/-- Destinations a section type allows (R386). -/
def typeSpaces : Nat → List Nat
  | 0x01 => [3] | 0x02 => [2] | 0x03 => [1] | 0x04 => [1] | 0x05 => [0, 1] | 0x06 => [0, 1] | 0x07 => [0]
  | 0x08 => [3] | 0x09 => [3] | 0x0A => [3] | _ => []
/-- A section's own checks of step 5. -/
def sectionOk (map : List Byte) (e : DirEntry) : Bool :=
  (typeSpaces e.typ).contains e.space && (!e.encrypted || [5, 6, 7].contains e.typ) &&
  (match e.space with
   | 1 => bitsOf e.dest 55 22 == 0 && mapHolds map (bitsOf e.dest 59 56) (bitsOf e.dest 21 0) e.destBytes
   | 2 => decide (e.arg < 16) && bitsOf e.dest 59 0 == 0 && e.destBytes % 8 == 0 && decide (e.destBytes / 8 ≤ mapLineEnd map e.arg)
   | 3 => bitsOf e.dest 59 0 == 0
   | _ => true) &&
  (e.typ != 0x08 || (e.destBytes == 2048 && decide (e.arg < 64))) && (e.typ != 0x0A || mapOk e.bytes)
/-- No two destinations overlap. -/
def spansApart : List (Nat × Nat × Nat × Nat) → Bool
  | [] => true
  | (k, u, a, b) :: r => r.all (fun (k', u', a', b') => k != k' || u != u' || decide (b ≤ a') || decide (b' ≤ a)) && spansApart r
/-- The values 0 to n - 1 occur in a list exactly once each. -/
def indexesOnce (n : Nat) (l : List Nat) : Bool := l.length == n && (List.range n).all (fun i => l.contains i)
/-- Step 5 of R390, with at most 32 confidential regions (R401). -/
def sectionsOk (nlists : Nat) (dir : List DirEntry) : Bool :=
  let map := regionMap dir
  dir.all (sectionOk map) && indexesOnce nlists ((dir.filter (fun e => e.typ == 1)).map (fun e => e.arg)) &&
  decide ((dir.filter (fun e => e.typ == 0x0A)).length ≤ 1) && decide ((dir.filter (fun e => e.typ == 0x09)).length ≤ 1) &&
  spansApart (dir.filterMap (fun e => e.span)) && decide ((dir.filter (fun e => e.encrypted)).length ≤ 32)
/-- End of what an image puts into its DRAM area. -/
def areaEnd (dir : List DirEntry) : Nat :=
  (dir.filterMap (fun e => e.span)).foldl (fun m (k, _, _, b) => if k = 0 then max m b else m) 0
/-- Slices and cores an image names (step 7). -/
def namedUnits (dir : List DirEntry) : List Nat :=
  let map := regionMap dir
  (dir.filterMap (fun e => e.span)).filterMap (fun (k, u, _, _) => if k = 0 then none else some u) ++
  (List.range 4).filterMap (fun r =>
    let w0 := fieldAt map (8 * r) 4
    if bitsOf w0 16 0 = bitsOf (fieldAt map (8 * r + 4) 4) 16 0 then none else some (bitsOf w0 27 24)) ++
  (List.range 16).filter (fun n => mapLineEnd map n != 0)
/-- The move-list sections in bundle order. -/
def listSections (nlists : Nat) (dir : List DirEntry) : List (List Byte) :=
  (List.range nlists).filterMap (fun i => (dir.find? (fun e => e.typ == 1 && e.arg == i)).map (fun e => e.bytes))
/-- Step 9: an adaptation table is as R257 and R388 give it. -/
def tableOk (t : List Byte) : Bool :=
  decide (64 ≤ t.length) && decide (adapters t ≤ 16) && t.length == 64 + 64 * adapters t && fieldAt t 3 1 == 0 &&
  fieldAt t 0x1A 2 == 0 && fieldAt t 0x29 3 == 0 && fieldAt t 0x34 12 == 0 && decide (setRegion t 0 < 8) && decide (setRegion t 1 < 8) &&
  decide (fieldAt t 0x28 1 < 8) &&
  (List.range (adapters t)).all (fun i =>
    decide (adKind t i ≤ 2) && [7, 8].contains (adType t i) && decide (adParams t i ≤ 262144) && decide (adPairs t i ≤ 4) &&
    fieldAt t (adapterAt i + 0xE) 2 == 0 && (adKind t i != 0 || [4, 8, 16, 32, 64].contains (adRank t i)) &&
    (adKind t i == 2 || fieldAt t (adapterAt i + 0x20) 32 == 0))

/-! ### The Format and Capability rows of R228 -/

/-- Operand bits that an action uses (R212). -/
def usedBits : Nat → Nat
  | 1 => 0x3FFF <<< 70 ||| 0xFFFF <<< 48 ||| 0xFFFFFFFF
  | 2 => 0xFFFFF <<< 64 ||| 3 <<< 62 ||| 0xFF <<< 48 ||| 1 <<< 47 ||| 0xFF <<< 32
  | 3 => 0xFFFFF <<< 64 ||| 1 <<< 63 ||| 0x3F <<< 56 ||| 0x3FFF <<< 32
  | 4 => 3 <<< 82 ||| 0xFF <<< 64 ||| 0xFFFFFF
  | 5 => 0xFF <<< 64
  | _ => 0
/-- The action a unit accepts (R211). -/
def unitAction (u : Nat) : Nat :=
  if u < 0x10 then 1 else if u < 0x15 then 2 else if 0x18 ≤ u ∧ u < 0x28 then 3 else if u = 0x30 ∨ u = 0x31 then 3
  else if u = 0x38 then 4 else if u = 0x3F then 5 else 0
def MoveList.ring? (l : MoveList) (r : Nat) : Option LineRing := l.rings.find? (fun x => x.ring == r)
/-- A move breaks the Format row by itself. -/
def moveBad (l : MoveList) (lineEnd : Nat → Nat) (w : Nat) : Bool :=
  let u := mvUnit w
  let a := mvAction w
  let declared := fun r => (l.ring? r).isSome
  a == 0 || a != unitAction u || w % 2 ^ 84 &&& (2 ^ 84 - 1 - usedBits a) != 0 || decide (l.cd ≤ mvCycle w) ||
  decide (1 < mvSelMode w) || (mvSelMode w == 1 && (decide (255 < mvSel w) || decide (l.ranges.length ≤ mvSel w))) ||
  (match a with
   | 1 => bitsOf w 63 48 == 0 || decide (lineEnd u ≤ bitsOf w 83 70)
   | 2 => (if l.quarter then u == 0x14 || !l.quarters.testBit (u - 0x10) else u != 0x14) ||
          (w.testBit 63 && !declared (bitsOf w 55 48)) || (w.testBit 47 && !declared (bitsOf w 39 32))
   | 3 => decide (u < 0x30) && bitsOf w 83 80 != u - 0x18
   | 4 => (match l.ring? (bitsOf w 71 64) with
           | some r => bitsOf w 23 0 % 64 != 0 || decide (r.size * 512 < bitsOf w 23 0)
           | none => true)
   | _ => !declared (bitsOf w 71 64))
/-- A range-table entry has a reserved bit set or no step. -/
def rangeBad (e : Nat) : Bool := bitsOf e 15 14 != 0 || bitsOf e 31 30 != 0 || bitsOf e 63 46 != 0 || bitsOf e 45 32 == 0
/-- The list breaks the Format row, but for its passes' accumulator rows. -/
def listBad (l : MoveList) (lineEnd : Nat → Nat) : Bool :=
  decide (65536 < l.moves.length) || decide (256 < l.ranges.length) || l.ranges.any rangeBad ||
  !spansApart (l.rings.map (fun r => (0, 0, r.ring, r.ring + 1))) ||
  l.rings.any (fun r => decide (r.slots < 3) || decide (64 < r.slots) || decide (15 < r.slice)) || l.moves.any (moveBad l lineEnd)
/-- Units a list names that are absent (R6, R31). -/
def State.listAbsent (s : State) (l : MoveList) : Bool :=
  (s.bindQuarters l).isNone || l.rings.any (fun r => !s.unitUsable r.slice) ||
  l.moves.any (fun w =>
    let u := mvUnit w
    if u < 0x10 then !s.unitUsable u
    else if 0x18 ≤ u ∧ u < 0x28 then !s.unitUsable (u - 0x18)
    else if u = 0x30 ∨ u = 0x31 then !s.unitUsable (bitsOf w 83 80)
    else false)

/-! ### The static schedule of a round (R214, R215, R228) -/

/-- A filled slot in the static schedule: the turn and cycle at which it is ready, the turn of its fetch, and whether it is a halo's. -/
structure SlotFill where
  turn : Nat
  cycle : Nat
  fetch : Option Nat
  halo : Bool
deriving DecidableEq, Repr
/-- A grid unit in the static schedule: its turn, its passes' (S, E), and the tile its last pass left (type, K, N). -/
structure SchedUnit where
  turn : Nat := 0
  held : List (Nat × Nat) := []
  tile : Option (Nat × Nat × Nat) := none
deriving DecidableEq, Repr
/-- The static schedule: slots of each ring, units, the turn's port claims (slice, write, first, last) and kernel claims,
turns of each mover's descriptors, blocks read in the turn, pushes of the round, the first fetch into each ring, the halo sends of the list
(port, turn, bytes) and the halo bytes armed on each port, and whether a Format check, a Budget check or R225 has failed. -/
structure Sched where
  slots : SMap (List SlotFill) := []
  units : SMap SchedUnit := []
  ports : List (Nat × Bool × Nat × Nat) := []
  claims : List (Nat × Nat × Nat) := []
  queued : SMap (List Nat) := []
  reads : SMap Nat := []
  pushes : SMap Nat := []
  fetched : SMap (Option Nat) := []
  sends : List (Nat × Nat × Nat) := []
  armed : SMap Nat := []
  fmt : Bool := false
  exceeded : Bool := false
  halo : Bool := false
deriving DecidableEq, Repr
def Sched.fail (x : Sched) (b : Bool) : Sched := { x with exceeded := x.exceeded || b }

/-- The words of the descriptor a move names, from the sections of the bundle; none when they do not hold it. -/
def imageDesc (images : List (Nat × List Byte)) (slice off : Nat) : Option (List Nat) :=
  let a := sliceAddr slice off
  (images.find? (fun (b, bs) => decide (b ≤ a) && decide (a + 64 ≤ b + bs.length))).map
    (fun (b, bs) => wordsOf 16 ((bs.drop (a - b)).take 64))
def mvDesc (images : List (Nat × List Byte)) (w : Nat) : Option (List Nat) := imageDesc images (bitsOf w 83 80) (bitsOf w 79 64 * 64)

/-- Rings whose slots moves both fill and empty: those whose use the moves alone decide. Where a kernel fills or empties a ring,
its timing is taken on trust (R228). -/
def ringTracked (l : MoveList) (images : List (Nat × List Byte)) (r : Nat) : Bool :=
  let fills := l.moves.any (fun w => match mvAction w with
    | 2 => w.testBit 47 && bitsOf w 39 32 == r
    | 3 => (match mvDesc images w with | some ws => mDstRing ws && mDstRingNo ws == r | none => false)
    | 4 => bitsOf w 71 64 == r
    | _ => false)
  let empties := l.moves.any (fun w => match mvAction w with
    | 2 => w.testBit 63 && w.testBit 62 && bitsOf w 55 48 == r
    | 3 => (match mvDesc images w with | some ws => mSrcRing ws && mSrcRingNo ws == r | none => false)
    | 5 => bitsOf w 71 64 == r
    | _ => false)
  (l.ring? r).isSome && fills && empties
def Sched.ring (x : Sched) (r : Nat) : List SlotFill := SMap.get (fun _ => []) x.slots r
def Sched.setRing (x : Sched) (r : Nat) (l : List SlotFill) : Sched := { x with slots := SMap.set (fun _ => []) x.slots r l }
/-- A consumer of a ring's head slot in turn t, cycle c: the slot is filled, ready, and fetched 16 turns before (R140, R222); a halo's consumer
keeps its lead (R225). Where a kernel fills or empties a ring into which the list fetches, some fetch is 16 turns before its consumer (R222). -/
def Sched.take (x : Sched) (tracked : Nat → Bool) (r t c : Nat) (release : Bool) : Sched :=
  if !tracked r then
    match SMap.get (fun _ => none) x.fetched r with
    | some t' => x.fail (decide (t < t' + 16))
    | none => x
  else match x.ring r with
    | [] => x.fail true
    | f :: q =>
      let late := decide (t < f.turn) || (f.turn == t && decide (c < f.cycle))
      let x := if f.halo then { x with halo := x.halo || late }
        else x.fail (late || (match f.fetch with | some t' => decide (t < t' + 16) | none => false))
      if release then x.setRing r q else x
/-- The turn of a slot that is never set ready in its round. -/
def neverTurn : Nat := 2 ^ 32
/-- A slot is reserved: one must be free. -/
def Sched.put (x : Sched) (tracked : Nat → Bool) (slots r : Nat) (f : SlotFill) : Sched :=
  if !tracked r then x
  else if slots ≤ (x.ring r).length then x.fail true
  else x.setRing r (x.ring r ++ [f])

/-- What a move consumes, at its cycle. -/
def schedConsume (images : List (Nat × List Byte)) (tracked : Nat → Bool) (t w : Nat) (x : Sched) : Sched :=
  match mvAction w with
  | 2 => if w.testBit 63 then x.take tracked (bitsOf w 55 48) t (mvCycle w) (w.testBit 62) else x
  | 3 =>
    match mvDesc images w with
    | some ws => if mSrcRing ws then x.take tracked (mSrcRingNo ws) t (mvCycle w) true else x
    | none => { x with fmt := true }
  | 5 => if tracked (bitsOf w 71 64) then x.setRing (bitsOf w 71 64) ((x.ring (bitsOf w 71 64)).drop 1) else x
  | _ => x
/-- A launch: its span ends before C_d (R215), and no two claims meet in a bank's shared slot (R113). -/
def schedLaunch (l : MoveList) (idx w : Nat) (x : Sched) : Sched :=
  let mine := match l.claims.find? (fun c => c.1 == idx) with
    | some (_, cs) => cs.map (fun (c, sl, b) => (mvCycle w + c, sl, b))
    | none => []
  ({ x with claims := x.claims ++ mine }).fail (decide (l.cd < mvCycle w + bitsOf w 63 48) || mine.any (fun c => x.claims.contains c))
/-- The grid will refuse a pass for what its descriptor holds (R110): it executes nothing, and has no timeline. -/
def State.passRefused (s : State) (u : Nat) (ws : List Nat) (act drain : Nat × Nat) (tile : Option (Nat × Nat × Nat)) : Bool :=
  ((s.setGridUnit u { s.gridUnit u with tile := tile.map (fun t => ⟨t.1, t.2.1, t.2.2, [], []⟩), prevOwner := some 0 }).gridCauses u ws act drain .moveList 0).any
    (fun c => c.2 && c.1 != 3 && c.1 != 7)
/-- A pass: rows within its unit's declaration, at most one waiting, its timeline before C_d, its ports its own (R93, R101, R103,
R210, R215). -/
def schedPass (s : State) (l : MoveList) (images : List (Nat × List Byte)) (tracked : Nat → Bool) (t w : Nat) (x : Sched) : Sched :=
  match mvDesc images w with
  | none => { x with fmt := true }
  | some ws =>
    let u := mvUnit w
    let c := mvCycle w
    let old := SMap.get (fun _ => {}) x.units u
    let held : List (Nat × Nat) := if old.turn = t then old.held else []
    let keeps := gProduct ws && gKeep ws
    let kn := match old.tile with | some (_, k, n) => if keeps then (k, n) else (gK ws, gN ws) | none => (gK ws, gN ws)
    let rows := match l.accRows.find? (fun r => r.1 == u) with
      | some (_, first, n) => decide (first ≤ gAccRow ws) && decide (gAccRow ws + gM ws ≤ first + n)
      | none => false
    let tl : Nat × Nat × Nat := timeline ws kn c held.getLast?
    let last := tl.2.2
    let act := match l.ring? (bitsOf w 55 48) with
      | some r => if w.testBit 63 then (r.slice, 0) else slAddr (dword ws 1)
      | none => slAddr (dword ws 1)
    let drain := match l.ring? (bitsOf w 39 32) with
      | some r => if w.testBit 47 then (r.slice, 0) else slAddr (dword ws 10)
      | none => slAddr (dword ws 10)
    let kept := if keeps then old.tile else none
    let refused := (kept.isSome || !keeps) && s.passRefused (u - 0x10) ws act drain kept
    let spans := passSpans ws act drain kept
    let ports : List (Nat × Bool) := (spans.map (fun (g : Span) => (g.slice, g.write))).eraseDups
    let clash := ports.any (fun q => x.ports.any (fun r => q.1 == r.1 && q.2 == r.2.1 && decide (c ≤ r.2.2.2) && decide (r.2.2.1 ≤ last)))
    let x := { x with fmt := x.fmt || !rows || (w.testBit 47 && !gDrains ws) }
    let x := if refused then x else
      ({ x with
          ports := x.ports ++ ports.map (fun (q : Nat × Bool) => ((q.1, q.2, c, last) : Nat × Bool × Nat × Nat))
          units := SMap.set (fun _ => {}) x.units u
            ⟨t, held ++ [(tl.1, tl.2.1)], if keeps then old.tile else if gProduct ws then some (gWType ws, gK ws, gN ws) else none⟩ }).fail
        (clash || decide (l.cd ≤ last) || decide (2 ≤ (held.filter (fun (h : Nat × Nat) => decide (c < h.2))).length) || (keeps && old.tile.isNone))
    if w.testBit 47 then
      match l.ring? (bitsOf w 39 32) with
      | some r => x.put tracked r.slots r.ring ⟨if refused then neverTurn else t, last, none, false⟩
      | none => x
    else x
/-- A descriptor reads DRAM. -/
def readsDram (ws : List Nat) : Bool := mKind ws == 0 && !mSrcRing ws && decide (4 ≤ bitsOf (dword ws 2) 31 28) && decide (bitsOf (dword ws 2) 31 28 ≤ 7)
/-- A move is a fetch: it reads DRAM in the RASTER class, or takes a line from the die link (R222). -/
def isFetch (w : Nat) (ws : List Nat) : Bool := (readsDram ws && mClass ws == 0) || mvUnit w == 0x31
/-- A mover move: descriptors queued within the 16 turns of a fetch, reads of a turn, pushes, and the slot it fills (R127, R137,
R149). -/
def schedMove (l : MoveList) (images : List (Nat × List Byte)) (tracked : Nat → Bool) (t w : Nat) (x : Sched) : Sched :=
  match mvDesc images w with
  | none => { x with fmt := true }
  | some ws =>
    let m := if mvUnit w < 0x30 then mvUnit w - 0x18 else bitsOf w 83 80
    let dram := readsDram ws
    let fetch := isFetch w ws
    let q := (SMap.get (fun _ => []) x.queued m).filter (fun t' => decide (t < t' + 16))
    let blocks := if dram && decide (mClass ws ≤ 1) then ceilDiv (mSrcRun ws) 128 * runCount ws else 0
    let reads := SMap.get (fun _ => 0) x.reads m + blocks
    let pushes := SMap.get (fun _ => 0) x.pushes (mHq ws) + (if mDone ws = 2 then 1 else 0)
    let x := { x with
      queued := SMap.set (fun _ => []) x.queued m (q ++ [t]), reads := SMap.set (fun _ => 0) x.reads m reads
      pushes := SMap.set (fun _ => 0) x.pushes (mHq ws) pushes
      fmt := x.fmt || (decide (0x30 ≤ mvUnit w) && mKind ws != mvUnit w - 0x2F) }
    let x := x.fail (decide (16 ≤ q.length) || decide (256 < reads) || decide (64 < pushes))
    if mDstRing ws then
      match l.ring? (mDstRingNo ws) with
      | some r => x.put tracked r.slots r.ring (if mDone ws = 0 then ⟨neverTurn, 0, none, false⟩ else if fetch then ⟨t + 16, 0, some t, false⟩ else ⟨t, mvCycle w, none, false⟩)
      | none => x
    else x
/-- The halo bytes that a move sends: port and number (R345). -/
def haloSend (images : List (Nat × List Byte)) (w : Nat) : Option (Nat × Nat) :=
  if mvAction w = 3 then
    match mvDesc images w with
    | some ws => if 8 ≤ bitsOf (dword ws 4) 31 28 ∧ bitsOf (dword ws 4) 31 28 < 12 then some (bitsOf (dword ws 4) 31 28 - 8, mDstRun ws * runCount ws) else none
    | none => none
  else none
/-- The turn of the send that carries byte `a` of what goes out on a port. -/
def turnOfByte (port : Nat) : Nat → List (Nat × Nat × Nat) → Option Nat
  | _, [] => none
  | a, (p, t, n) :: r => if p = port then (if a < n then some t else turnOfByte port (a - n) r) else turnOfByte port a r
/-- A HALO move: every device runs a list of one shape, so what arrives on a port is what this list sends on the opposite one. The slot is armed no
later than the first of its bytes is sent, and ready a halo lead after the last (R225). -/
def schedHalo (l : MoveList) (tracked : Nat → Bool) (t w : Nat) (x : Sched) : Sched :=
  let port := bitsOf w 83 82
  let have_ := SMap.get (fun _ => 0) x.armed port
  let bytes := bitsOf w 23 0
  let first := turnOfByte ((port + 2) % 4) have_ x.sends
  let last := turnOfByte ((port + 2) % 4) (have_ + bytes - 1) x.sends
  let x := { x with armed := SMap.set (fun _ => 0) x.armed port (have_ + bytes), halo := x.halo || decide (first.getD t < t) }
  match l.ring? (bitsOf w 71 64) with
  | some r => x.put tracked r.slots r.ring ⟨max t (last.getD t) + l.haloLead.getD port 0, mvCycle w, none, true⟩
  | none => x
/-- What a move produces, at its cycle. -/
def schedProduce (s : State) (l : MoveList) (images : List (Nat × List Byte)) (tracked : Nat → Bool) (t idx w : Nat) (x : Sched) : Sched :=
  match mvAction w with
  | 1 => schedLaunch l idx w x
  | 2 => schedPass s l images tracked t w x
  | 3 => schedMove l images tracked t w x
  | 4 => schedHalo l tracked t w x
  | _ => x

/-- Run the moves of one cycle: what they consume comes first (R135, R214). -/
def schedCycle (s : State) (l : MoveList) (images : List (Nat × List Byte)) (tracked : Nat → Bool) (t : Nat) (g : List (Nat × Nat)) (x : Sched) : Sched :=
  let units := g.map (fun m => mvUnit m.2)
  let x := x.fail (decide (8 < g.length) || decide (units.eraseDups.length < units.length))
  let x := g.foldl (fun x m => schedConsume images tracked t m.2 x) x
  g.foldl (fun x m => schedProduce s l images tracked t m.1 m.2 x) x
/-- Run a turn's moves, cycle by cycle. -/
def schedTurn (s : State) (l : MoveList) (images : List (Nat × List Byte)) (tracked : Nat → Bool) (t : Nat) : Nat → List (Nat × Nat) → Sched → Sched
  | 0, _, x => x
  | _, [], x => x
  | n + 1, m :: r, x =>
    let same := fun k => mvCycle k.2 == mvCycle m.2
    schedTurn s l images tracked t n ((m :: r).filter (fun k => !same k)) (schedCycle s l images tracked t ((m :: r).filter same) x)
/-- The last turn that any move selects, and one more. -/
def turnsUsed (l : MoveList) : Nat :=
  l.moves.foldl (fun m w => max m (1 + (if mvSelMode w = 0 then mvSel w
    else let e := l.ranges.getD (mvSel w % 256) 0
         bitsOf e 13 0 + (bitsOf e 29 16 - bitsOf e 13 0) / max 1 (bitsOf e 45 32) * bitsOf e 45 32))) 0
/-- The halo sends of a round in order: port, turn, bytes. -/
def haloSends (l : MoveList) (images : List (Nat × List Byte)) : List (Nat × Nat × Nat) :=
  (List.range (turnsUsed l)).flatMap (fun t => (turnMoves l t).filterMap (fun m => (haloSend images m.2).map (fun p => (p.1, t, p.2))))
/-- The first fetch into each ring. -/
def firstFetches (l : MoveList) (images : List (Nat × List Byte)) : SMap (Option Nat) :=
  (List.range (turnsUsed l)).foldl (fun x t => (turnMoves l t).foldl (fun x m =>
    match (if mvAction m.2 = 3 then mvDesc images m.2 else none) with
    | some ws => if mDstRing ws && isFetch m.2 ws && (SMap.get (fun _ => none) x (mDstRingNo ws)).isNone then SMap.set (fun _ => none) x (mDstRingNo ws) (some t) else x
    | none => x) x) []
/-- Run turns 0 to n - 1 of a round. -/
def schedTurns (s : State) (l : MoveList) (images : List (Nat × List Byte)) (tracked : Nat → Bool) : Nat → Sched
  | 0 => { sends := haloSends l images, fetched := firstFetches l images }
  | t + 1 =>
    let x := schedTurns s l images tracked t
    let ms := turnMoves l t
    schedTurn s l images tracked t ms.length ms { x with ports := [], claims := [], reads := [] }
/-- The Budget row: C_d fits the shortest turn at the ACLK in force. -/
def State.listBudget (s : State) (l : MoveList) : Bool :=
  decide (budgetOf l.lMin (s.getF F.HUB_ACLK_MHZ) < l.cd) || decide (s.getF F.HUB_ACLK_MHZ < l.aclkMin)
/-- The load checks of R228; the first row of the table that is broken gives the code. -/
def State.checkLoad (s : State) (images : List (Nat × List Byte)) (lineEnd : Nat → Nat) (l : MoveList) (ok : Bool) : Code :=
  let formed := ok && !listBad l lineEnd
  let tracked := ringTracked l images
  let x := if formed then schedTurns s l images tracked (turnsUsed l) else {}
  firstCode [(!formed || x.fmt, ccFormat), (s.listAbsent l, ccCapability), (s.listBudget l || x.exceeded, ccBudget),
    (x.slots.any (fun r => !r.2.isEmpty), ccBudget)]

/-! ### The start checks of R228 -/

/-- The Gates row: line g of a capture is noticed (g - trigger) periods and 17 turns after the round's start (R223). -/
def gatesBad (l : MoveList) : Bool :=
  l.moves.any (fun w =>
    mvAction w == 3 && w.testBit 63 &&
    (match l.capture.find? (fun c => c.1 == bitsOf w 61 56) with
     | none => true
     | some (_, trig, period) =>
       let need := ceilDiv ((bitsOf w 45 32 - trig) * period) 16 + 17
       (List.range need).any (fun t => mvSelects l.ranges w t)))
/-- Bytes of HALO class that a turn's moves send on a port (R346). -/
def haloBytes (l : MoveList) (images : List (Nat × List Byte)) (port t : Nat) : Nat :=
  (turnMoves l t).foldl (fun n m => match haloSend images m.2 with
    | some (p, b) => if p = port then n + b else n
    | none => n) 0
/-- The Halo row: the declared lead of a port that the list uses covers the fabric's delivery bound (R346). -/
def haloBad (l : MoveList) (images : List (Nat × List Byte)) : Bool :=
  (List.range 4).any (fun p =>
    let most := (List.range (turnsUsed l)).foldl (fun m t => max m (haloBytes l images p t)) 0
    l.moves.any (fun w => mvAction w == 4 && bitsOf w 83 82 == p) &&
    decide (l.haloLead.getD p 0 * l.lMin * 310 < (600 + l.lMin) * 310 + 2 * most * 100))
/-- The Die link row: declared bytes within 96 bytes a tick, and each line delivered before it is due (R227). -/
def dieLinkBad (l : MoveList) (images : List (Nat × List Byte)) (len mhz : Nat) : Bool :=
  l.dlBytes.any (fun b => decide (96 * l.lMin < b)) ||
  ((List.range (turnsUsed l)).foldl (fun (acc : SMap Nat × Bool) t =>
    (turnMoves l t).foldl (fun acc m =>
      if mvUnit m.2 = 0x30 then
        match mvDesc images m.2 with
        | none => acc
        | some ws =>
          let n := dbits ws 14 31 26
          let y := SMap.get (fun _ => 0) acc.1 n
          let late := match l.lineDue.find? (fun d => d.1 == n) with
            | none => true
            | some (_, f) =>
              decide ((f + y) * len * 96 * mhz ≤ (t * len + 280) * 96 * mhz + (1 + mvCycle m.2) * 1000 * 96 + l.dlBytes.getD 0 0 * mhz)
          (SMap.set (fun _ => 0) acc.1 n (y + 1), acc.2 || late)
      else acc) acc) ([], false)).2
/-- The start rows that the list, its domain and the ACLK decide. -/
def State.checkStart (s : State) (images : List (Nat × List Byte)) (d : Nat) (l : MoveList) : Code :=
  let len := s.turnLen d
  firstCode [(s.listBudget l || decide (len < l.lMin) || decide (s.vtMin d + 1 < turnsUsed l) || gatesBad l || haloBad l images ||
    (schedTurns s l images (ringTracked l images) (turnsUsed l)).halo ||
    dieLinkBad l images len (s.getF F.HUB_ACLK_MHZ) || l.lineDue.any (fun x => decide (s.getF (F.TB_Dn_VSCAN_V_START d) < x.2 + 19)), ccBudget)]

end Sys2Proof.Machine
end

