-- ==== Sys2Proof/Machine/StreamCfg.lean ====
section
/-! DEFINITION. Stream configurations: stream blocks (R384), their acceptance checks (R279, R280, R293, R296, R297, R307,
R316 to R318, R320, R348), the balance check (R150), shedding (R275), and flip sets (R288 to R290, R385). -/

namespace Sys2Proof.Machine

/-! ### Stream blocks (R384) -/

def blkStream (b : List Byte) : Nat := fieldAt b 0 1 % 64
def blkStr (b : List Byte) : Bool := (fieldAt b 0 4).testBit 8
def blkFin (b : List Byte) : Bool := (fieldAt b 0 4).testBit 9
def blkPort (b : List Byte) : Bool := (fieldAt b 0 4).testBit 10
/-- The port a block sets: transmit port 0 to 3, or receive port. -/
def blkPortNo (b : List Byte) : Nat := fieldAt b 4 4 % 8
def blkRx (b : List Byte) : Bool := (fieldAt b 4 4).testBit 3
def zeroBytes (b : List Byte) : Bool := b.all (fun x => x == 0#8)
/-- The block is malformed: a reserved bit or a port that does not exist. -/
def blockBad (b : List Byte) : Bool :=
  b.length != 2048 || fieldAt b 0 4 &&& (0xFFFFFFFF ^^^ 0x73F) != 0 || fieldAt b 4 4 &&& 0xFFFFFFF0 != 0 ||
  !zeroBytes ((b.drop 0x18).take 232) || !zeroBytes ((b.drop 0x180).take 640) ||
  (blkStr b && imageReserved (R.STR_n_CFG (blkStream b)) 256 (b.drop 0x400)) ||
  (blkFin b && imageReserved (R.FIN_n_CFG (blkStream b)) 32 (b.drop 0x100)) ||
  (blkPort b && (if blkRx b then decide (1 < blkPortNo b) || imageReserved (R.DPI_p_CFG (blkPortNo b)) 1 (b.drop 8) ||
      !zeroBytes ((b.drop 0xC).take 12)
    else decide (3 < blkPortNo b) || imageReserved (R.DPO_p_CFG (blkPortNo b)) 4 (b.drop 8)))
/-- The settings of a block, put in force. -/
def State.putBlock (s : State) (b : List Byte) : State :=
  let n := blkStream b
  let s := if blkStr b then s.putImage (R.STR_n_CFG n) 256 (b.drop 0x400) else s
  let s := if blkFin b then s.putImage (R.FIN_n_CFG n) 32 (b.drop 0x100) else s
  if blkPort b then
    if blkRx b then s.putImage (R.DPI_p_CFG (blkPortNo b)) 1 (b.drop 8) else s.putImage (R.DPO_p_CFG (blkPortNo b)) 4 (b.drop 8)
  else s

/-! ### One stream (R279, R280, R293) -/

def State.strDom (s : State) (n : Nat) : Nat := s.getF (F.STR_n_CFG_DOM n)
def State.layerOn (s : State) (n l : Nat) : Bool := s.flag (F.STR_n_Ll_CFG_EN n l)
def State.layerSrc (s : State) (n l : Nat) : Nat := s.getF (F.STR_n_Ll_CFG_SRC n l)
def State.layerW (s : State) (n l : Nat) : Nat := s.getF (F.STR_n_Ll_SIZE_W n l)
def State.layerH (s : State) (n l : Nat) : Nat := s.getF (F.STR_n_Ll_SIZE_H n l)
/-- A layer that a stream has: one that is enabled, or that a flip may enable, its size being set. -/
def State.layerSet (s : State) (n l : Nat) : Bool := s.layerOn n l || (decide (0 < s.layerW n l) && decide (0 < s.layerH n l))
/-- The tensor-fed layers of a stream. -/
def State.tensorLayers (s : State) (n : Nat) : List Nat := (List.range 8).filter (fun l => s.layerSet n l && s.layerSrc n l == 2)
/-- Bytes of one line of a memory or capture layer at full width. -/
def State.layerBytes (s : State) (n l : Nat) : Nat :=
  s.layerW n l * pixelBytes (if s.layerSrc n l = 1 then s.getF (F.STR_n_FRM_CFG_FMT (s.getF (F.STR_n_Ll_CFG_CAP n l))) else s.getF (F.STR_n_Ll_CFG_FMT n l))
/-- A layer breaks R276, R277 or R279, enabled or not: a flip may enable it. -/
def State.layerBad (s : State) (n l : Nat) : Bool :=
  let x := s.getF (F.STR_n_Ll_POS_X n l)
  let y := s.getF (F.STR_n_Ll_POS_Y n l)
  let pitch := s.getF (F.STR_n_Ll_CFG_PITCH n l) * 64
  let off := s.getF (F.STR_n_Ll_OFF_OFFSET n l)
  s.layerSrc n l == 3 || decide (s.strW n < x + s.layerW n l) || decide (s.strH n < y + s.layerH n l) ||
  decide (65536 < s.getF (F.STR_n_Ll_EXT_ALPHA n l)) ||
  (s.layerSrc n l == 1 && !s.isCapture (s.getF (F.STR_n_Ll_CFG_CAP n l))) ||
  (s.layerSrc n l == 0 && (decide (7 < s.getF (F.STR_n_Ll_CFG_FMT n l)) || off % 64 != 0 || decide (pitch < s.layerBytes n l) ||
    (s.layerSet n l && decide (s.getF (F.STR_n_Ll_EXT_RANGE_LEN n l) * 65536 < off + (s.layerH n l - 1) * pitch + s.layerBytes n l))))
/-- The order list of a stream names a layer twice (R280), whether ORDER selects it or not. -/
def State.orderBad (s : State) (n : Nat) : Bool :=
  let named := (List.range 8).filterMap (fun i =>
    let e := bitsOf (s.getF (F.STR_n_ORDER_LIST n)) (4 * i + 3) (4 * i)
    if e < 8 then none else some (e % 8))
  decide (named.eraseDups.length < named.length)
/-- A size that R279 forbids. -/
def State.sizeBad (s : State) (n : Nat) : Bool :=
  s.strW n == 0 || s.strH n == 0 || decide (16384 < s.strW n) || decide (16384 < s.strH n) || s.strW n % 2 == 1
/-- Entries of a cube (R307). -/
def cubeEntries (size : Nat) : Nat := cubeEdge size ^ 3
/-- First and end entry of a stream's cube, if it uses one. -/
def State.cubeOf (s : State) (n : Nat) : Option (Nat × Nat) :=
  if s.isOutput n && s.flag (F.FIN_n_CFG_CV_EN n) then
    let b := s.getF (F.FIN_n_CV_BASE n)
    some (b, b + cubeEntries (s.getF (F.FIN_n_CV_SIZE n)))
  else none
/-- A finish setting that is reserved (R301, R310). -/
def State.finishBad (s : State) (n : Nat) : Bool :=
  let depth := s.getF (F.FIN_n_CFG_DEPTH n)
  decide (4 < s.getF (F.FIN_n_CFG_ITF n)) || decide (4 < s.getF (F.FIN_n_CFG_OTF n)) || s.getF (F.FIN_n_CFG_IDX n) == 3 ||
  decide (depth < 8) || decide (16 < depth) || s.getF (F.FIN_n_NITS_REF_NITS n) == 0 || decide (10000 < s.getF (F.FIN_n_NITS_REF_NITS n)) ||
  (s.flag (F.FIN_n_CFG_CV_EN n) && decide (4 < s.getF (F.FIN_n_CV_SIZE n))) ||
  (s.flag (F.STR_n_CFG_EN n) && s.getF (F.STR_n_CFG_OUT n) == 1 && !([8, 10, 12, 16].contains depth)) ||
  (s.flag (F.STR_n_CFG_EN n) && s.getF (F.STR_n_CFG_OUT n) == 2 && !([8, 10].contains depth))
/-- Frame buffer settings of a capture stream, or of an output stream that writes back (R291, R292). -/
def State.framesBad (s : State) (n : Nat) : Bool :=
  let fmt := s.getF (F.STR_n_FRM_CFG_FMT n)
  let capture := s.isCapture n
  (capture || s.flag (F.STR_n_CFG_WB n)) &&
  (decide (s.getF (F.STR_n_FRM_CFG_PITCH n) * 64 < s.strW n * pixelBytes fmt) || s.getF (F.STR_n_FRM_CFG_NBUF n) == 0 ||
   (if capture then s.getF (F.STR_n_FRM_CFG_SRC n) == 3 || !([3, 4, 5].contains fmt)
    else if s.flag (F.STR_n_CFG_WB_POINT n) then decide (7 < fmt) else fmt != 7))
/-- Encodings that are reserved in a stream that is not enabled, too (R293). -/
def State.reservedBad (s : State) (n : Nat) : Bool :=
  decide (1 < s.getF (F.STR_n_CFG_KIND n)) || s.getF (F.STR_n_CFG_OUT n) == 3 || decide (4 < s.getF (F.FIN_n_CFG_ITF n)) ||
  decide (4 < s.getF (F.FIN_n_CFG_OTF n)) || s.getF (F.FIN_n_CFG_IDX n) == 3 ||
  anyBelow (fun l => s.layerSrc n l == 3 || decide (7 < s.getF (F.STR_n_Ll_CFG_FMT n l))) 8
/-- The encoding that the loaded bundle declares for a stream's tensor-fed output is the input transfer function of the stream setup that it
carries for it (log 86); a stream fed by a started bundle must keep it (R278). -/
def State.encodingBad (s : State) (n : Nat) : Bool :=
  match (if s.seq.started && s.fedStreams.contains n then s.seq.bundle else none) with
  | some b => b.setups.any (fun x => blkStream x == n && blkFin x && (s.putBlock x).getF (F.FIN_n_CFG_ITF n) != s.getF (F.FIN_n_CFG_ITF n))
  | none => false
/-- R279 and R280 for an output stream, and R274: what a flip set may not break either (R288). -/
def State.pictureBad (s : State) (n : Nat) : Bool :=
  s.orderBad n || anyBelow (s.layerBad n) 8 || decide (1 < (s.tensorLayers n).length) || (!(s.tensorLayers n).isEmpty && s.strDom n != s.leadDom)
/-- The Format row of R293 for one stream. -/
def State.streamBad (s : State) (n : Nat) : Bool :=
  s.reservedBad n || (s.flag (F.STR_n_CFG_EN n) &&
  (s.sizeBad n || s.framesBad n || s.encodingBad n ||
   (s.isOutput n && (s.pictureBad n || s.finishBad n ||
     decide (s.vtMin (s.strDom n) + 1 < s.getF (F.TB_Dn_VSCAN_V_START (s.strDom n)) + s.strH n)))))

/-! ### Ports (R316, R317, R318, R320) -/

/-- Streams whose OUT names a transmit port. -/
def State.portStreams (s : State) (p : Nat) : List Nat :=
  (List.range 64).filter (fun n => s.isOutput n && s.getF (F.STR_n_CFG_OUT n) == 1 && s.getF (F.STR_n_OUT_PORT n) == p)
/-- Settings of a port that give BAD_FORMAT. -/
def State.portBad (s : State) (p : Nat) : Bool :=
  let ns := s.portStreams p
  let tile := s.flag (F.DPO_p_CFG_TILE p)
  let t := s.getF (F.DPO_p_CFG_TSTREAM p)
  let tw := s.getF (F.DPO_p_TILE_TW p)
  let subs := ns.map (fun n => s.getF (F.STR_n_OUT_SUB n))
  let h := fun n => s.strH n
  s.flag (F.DPO_p_CFG_EN p) &&
  (s.getF (F.DPO_p_CFG_COL p) == 3 || s.getF (F.DPO_p_CFG_RATE p) == 0 || decide (7 < s.getF (F.DPO_p_CFG_RATE p)) ||
   !([1, 2, 4].contains (s.getF (F.DPO_p_CFG_LANES p))) || (tile && (!ns.isEmpty || s.flag (F.DPO_p_CFG_MST p))) ||
   (tile && s.isOutput t && (tw % 2 == 1 || tw == 0 || decide (s.strW t < s.getF (F.DPO_p_TILE_X0 p) + tw))) ||
   (if s.flag (F.DPO_p_CFG_MST p) then decide (subs.eraseDups.length < subs.length) else decide (1 < ns.length)) ||
   (s.carried p).any (fun c =>
     !([8, 10, 12, 16].contains (s.getF (F.FIN_n_CFG_DEPTH c.1))) ||
     decide (s.getF (F.DPO_p_TIM_HTOTAL p) < c.2 + s.getF (F.DPO_p_TIM_HSW p) + 32) ||
     (s.flag (F.DPO_p_CFG_DSC p) &&
      (let k := s.getF (F.DPO_p_DSC_SLICES p)
       let sh := s.getF (F.DPO_p_DSC_SLICE_H p)
       k == 0 || decide (24 < k) || sh == 0 || h c.1 % sh != 0 || c.2 % k != 0 || decide (2560 < c.2 / k) ||
       decide (s.getF (F.DPO_p_DSC_BPP p) < 128) || decide (384 < s.getF (F.DPO_p_DSC_BPP p))))))
/-- Lanes that HUB_CAP3 reports for a transmit port, and for a receive port. -/
def State.txLanes (s : State) (p : Nat) : Nat := bitsOf (s.reg R.HUB_CAP3).toNat (19 + 4 * p) (16 + 4 * p)
def State.rxLanes (s : State) (p : Nat) : Nat := bitsOf (s.reg R.HUB_CAP3).toNat (11 + 4 * p) (8 + 4 * p)
/-- The Capability row of R293: a port, its lanes or a domain is absent. -/
def State.streamAbsent (s : State) (n : Nat) : Bool :=
  s.flag (F.STR_n_CFG_EN n) && (!(s.dom (s.strDom n)).on ||
   (s.isOutput n && s.getF (F.STR_n_CFG_OUT n) == 1 && s.txLanes (s.getF (F.STR_n_OUT_PORT n)) == 0) ||
   (s.isCapture n && decide (s.getF (F.STR_n_FRM_CFG_SRC n) < 2) && s.rxLanes (s.getF (F.STR_n_FRM_CFG_SRC n)) == 0))
def State.portAbsent (s : State) (p : Nat) : Bool :=
  (s.flag (F.DPO_p_CFG_EN p) && decide (s.txLanes p < s.getF (F.DPO_p_CFG_LANES p))) ||
  (decide (p < 2) && s.flag (F.DPI_p_CFG_EN p) && decide (s.rxLanes p < s.getF (F.DPI_p_CFG_LANES p)))

/-! ### Sums over the streams (R293, R297) -/

/-- A common multiple of the domains' turn lengths: rates are compared in units of 1 / it. -/
def State.rateUnit (s : State) : Nat := (List.range 4).foldl (fun p d => p * max 1 (s.turnLen d)) 1
/-- `x` events a turn of a domain, in rate units a tick. -/
def State.perTick (s : State) (d x : Nat) : Nat := x * (s.rateUnit / max 1 (s.turnLen d))
def sumOf (f : Nat → Nat) : List Nat → Nat
  | [] => 0
  | a :: r => f a + sumOf f r
def State.outputs (s : State) : List Nat := (List.range 64).filter s.isOutput
def State.captures (s : State) : List Nat := (List.range 64).filter s.isCapture
/-- Memory and capture layers of a stream. -/
def State.fetchedLayers (s : State) (n : Nat) : List Nat := (List.range 8).filter (fun l => s.layerSet n l && decide (s.layerSrc n l < 2))
/-- Cells of a gain-map row, 0 where the gain stage is off (R304). -/
def State.gainCells (s : State) (n : Nat) : Nat :=
  if s.flag (F.FIN_n_CFG_GAIN_EN n) then ceilDiv (s.strW n) (2 ^ s.getF (F.FIN_n_GCFG_GW n)) else 0
/-- Layer-fetch pixels of a stream's line. -/
def State.fetchPixels (s : State) (n : Nat) : Nat := sumOf (s.layerW n) (s.fetchedLayers n) + s.gainCells n
/-- Layer-fetch rate in thousandths of Mpx/s and rate units. -/
def State.fetchRate (s : State) : Nat := sumOf (fun n => s.perTick (s.strDom n) (s.fetchPixels n * 1000)) s.outputs
/-- The input pixel rate of a capture stream in Mpx/s: the spec names no register that gives it; a free value. -/
def inputRate (n : Nat) : Nat := Config.partValue 1 n
def State.captureRate (s : State) : Nat := sumOf inputRate s.captures
/-- Line buffers: 19 lines of each fetched layer, 32 of each tensor-fed one, 20 scan-out lines of each stream. -/
def State.bufferBytes (s : State) : Nat :=
  sumOf (fun n => 19 * sumOf (s.layerBytes n) (s.fetchedLayers n) +
    sumOf (fun l => 32 * s.layerW n l * 8) (s.tensorLayers n) + 20 * s.strW n * 8) s.outputs
/-- RASTER bytes per line of the streams, to the raster die and from it (R14). -/
def State.lineToRaster (s : State) (n : Nat) : Nat := sumOf (s.layerBytes n) (s.fetchedLayers n) + 4 * s.gainCells n
def State.lineToTensor (s : State) (n : Nat) : Nat :=
  8 * s.strW n + (if s.flag (F.STR_n_CFG_WB n) then s.strW n * pixelBytes (s.getF (F.STR_n_FRM_CFG_FMT n)) else 0)
/-- Bytes of one line of a capture stream. -/
def State.frameBytes (s : State) (n : Nat) : Nat := s.strW n * pixelBytes (s.getF (F.STR_n_FRM_CFG_FMT n))
/-- Input lines of a capture stream in a window of 16 lead turns: no register gives the input's timing; a free value. -/
def inputLines (n : Nat) : Nat := Config.partValue 2 n
/-- The Die link row: RASTER bytes within 96 a tick in each direction, with the started bundle's declaration. -/
def State.dieLinkOver (s : State) : Bool :=
  let decl := fun i => if s.seq.started then s.seq.list.dlBytes.getD i 0 else 0
  let lead := s.leadDom
  let down := sumOf (fun n => s.perTick (s.strDom n) (s.lineToRaster n)) s.outputs + s.perTick lead (decl 0)
  let up := sumOf (fun n => s.perTick (s.strDom n) (s.lineToTensor n)) s.outputs + s.perTick lead (decl 1) +
    sumOf (fun n => s.perTick lead (ceilDiv (s.frameBytes n * inputLines n) 16)) s.captures
  decide (96 * s.rateUnit < down) || decide (96 * s.rateUnit < up)
/-- R283: a domain with a fetching stream has VT_MIN of at least 17. -/
def State.blankingBad (s : State) : Bool := s.outputs.any (fun n => !(s.fetchedLayers n).isEmpty && decide (s.vtMin (s.strDom n) < 17))
/-- PIXEL bytes a turn of the streams routed to a fabric port exceed 0.75 of the rate of its lanes, 3.10 GB/s each (R348). -/
def State.pixelOver (s : State) (p : Nat) : Bool :=
  let mine := s.outputs.filter (fun n => s.getF (F.STR_n_CFG_OUT n) == 2 && s.routePort (s.getF (F.STR_n_OUT_FX n)) (s.getF (F.STR_n_OUT_FY n)) == p)
  let lanes := bitsOf (s.reg R.HUB_CAP2).toNat (11 + 4 * p) (8 + 4 * p)
  decide (75 * 310 * lanes * s.rateUnit < 10000 * sumOf (fun n => s.perTick (s.strDom n) (4 * s.strW n)) mine)

/-! ### Pixel pipes (R293) -/

/-- Column strip of a stream on k of its pipes. -/
def strip (w k : Nat) : Nat := ceilDiv w k + ceilDiv w k % 2
/-- Load of one strip, in thousandths of Mpx/s and rate units. -/
def State.stripLoad (s : State) (n k : Nat) : Nat := s.perTick (s.strDom n) ((strip (s.strW n) k + 64) * 1000)
/-- The first run of k pipes with room, from pipe p. -/
def State.roomAt (s : State) (load : List Nat) (n k p : Nat) : Bool :=
  (List.range k).all (fun i => decide (load.getD (p + i) 0 + s.stripLoad n k ≤ 1170 * s.rateUnit))
def State.firstRoom (s : State) (load : List Nat) (n : Nat) : Option (Nat × Nat) :=
  ([(1, 0), (1, 1), (1, 2), (1, 3), (2, 0), (2, 1), (2, 2), (3, 0), (3, 1), (4, 0)] : List (Nat × Nat)).find?
    (fun q => s.roomAt load n q.1 q.2)
/-- Output streams in descending order of pixel rate, the lower number first among equals. -/
def State.byRate (s : State) : List Nat :=
  s.outputs.foldl (fun l n =>
    let r := fun k => s.perTick (s.strDom k) (s.strW k)
    l.takeWhile (fun k => decide (r n ≤ r k)) ++ n :: l.dropWhile (fun k => decide (r n ≤ r k))) []
/-- Assign pipes: (stream, pipes, first pipe) for each; none when some stream does not fit. -/
def State.assignPipes (s : State) : List Nat → List Nat → Option (List (Nat × Nat × Nat))
  | [], _ => some []
  | n :: r, load =>
    match s.firstRoom load n with
    | none => none
    | some (k, p) =>
      let load' := (List.range 4).map (fun i => load.getD i 0 + if p ≤ i ∧ i < p + k then s.stripLoad n k else 0)
      (State.assignPipes s r load').map (fun l => (n, k, p) :: l)
def State.pipes (s : State) : Option (List (Nat × Nat × Nat)) := s.assignPipes s.byRate [0, 0, 0, 0]

/-! ### The balance check (R149, R150, R151) -/

/-- Per-channel bound of a range (R147). -/
def channelBound (n len : Nat) : Nat := if len = 0 then 0 else 256 * (ceilDiv len (256 * max 1 n) + 1)
/-- RASTER ranges of the streams in a window of 16 lead turns: (bytes, events). -/
def State.rasterRanges (s : State) (shed : Nat → Bool) : List (Nat × Nat) :=
  let lead := s.turnLen s.leadDom
  ((s.outputs.filter (fun n => !shed n)).map (fun n =>
    let ev := ceilDiv (16 * lead) (max 1 (s.turnLen (s.strDom n)))
    [(8 * s.strW n, ev), (4 * s.gainCells n, ev), (if s.flag (F.STR_n_CFG_WB n) then (s.frameBytes n, ev) else (0, 0)),
     (if (s.cubeOf n).isSome then (64, 1) else (0, 0))] ++ (s.fetchedLayers n).map (fun l => (s.layerBytes n l, ev)))).flatten ++
  (s.captures.filter (fun n => !shed n)).map (fun n => (s.frameBytes n, inputLines n))
/-- Ranges that the selected list of a bundle declares. -/
def listRanges (l : MoveList) : List (Nat × Nat) := l.balance.map (fun (_, len, ev) => (len, ev))
/-- Data rates of a channel in MT/s by code (R145). -/
def dramRate (code : Nat) : Nat := match code with | 1 => 3200 | 2 => 4267 | 3 => 5500 | 4 => 6400 | 5 => 7500 | 6 => 8533 | _ => 0
/-- The SHARE a set of ranges needs, by 16 lead turns at 80 % of the lowest channel rate in force. -/
def State.shareNeeded (s : State) (ranges : List (Nat × Nat)) : Nat :=
  let bytes := ranges.foldl (fun a (len, ev) => a + channelBound s.mc.mapping.length len * ev) 0
  let rates := (s.mc.mapping.filter (fun c => s.getF (F.MC_CHc_STAT_STATE c) != 3)).map (fun c => dramRate (s.getF (F.MC_CHc_STAT_RATE c)))
  let rate := rates.foldl min (dramRate (s.getF F.MC_CFG_RATE))
  ceilDiv (bytes * 256 * 10000) (max 1 (16 * s.turnLen s.leadDom * rate * 16))
def State.isShed (s : State) (n : Nat) : Bool := s.flag (F.STR_n_STATUS_SHED n)
/-- Ranges of the streams and of a bundle's list. -/
def State.allRanges (s : State) (l : Option MoveList) (shed : Nat → Bool) : List (Nat × Nat) :=
  s.rasterRanges shed ++ (match l with | some l => listRanges l | none => [])
/-- All start rows of R228: those of `checkStart`, and the balance check with the streams as they are set. -/
def State.startRowsCode (s : State) (images : List (Nat × List Byte)) (d : Nat) (l : MoveList) : Code :=
  firstCode [(s.checkStart images d l != ccOk, s.checkStart images d l),
    (decide (204 < s.shareNeeded (s.allRanges (some l) (fun _ => false))), ccBudget)]
/-- The list of the started bundle. -/
def State.startedList (s : State) : Option MoveList := if s.seq.started then some s.seq.list else none

/-! ### The checks of SET_STREAM -/

/-- R297 and R228 for the started bundle: line y of a fed stream is due no later than the start of turn C(y). -/
def State.dueBad (s : State) (l : Option MoveList) : Bool :=
  match l with
  | none => false
  | some l => l.lineDue.any (fun d => s.isOutput d.1 && decide (s.getF (F.TB_Dn_VSCAN_V_START (s.strDom d.1)) < d.2 + 19))
/-- The code of a configuration as a change leaves it, for the stream the change names. -/
def State.streamsCode (s : State) (n : Nat) (l : Option MoveList) : Code :=
  firstCode
    [(s.streamBad n || s.outputs.any (fun k => (List.range 8).any (fun i => s.layerOn k i && s.layerSrc k i == 1 && s.layerBad k i)) ||
        (List.range 4).any s.portBad, ccFormat),
     (s.streamAbsent n || (List.range 4).any s.portAbsent, ccCapability),
     (s.pipes.isNone || decide (16000 * s.rateUnit < s.fetchRate) || (!s.captures.isEmpty && decide (5200 < s.captureRate)) ||
        decide (10485760 < s.bufferBytes) || s.blankingBad || s.dieLinkOver || decide (204 < s.shareNeeded (s.allRanges l (fun _ => false))) ||
        (List.range 4).any (fun p => s.flag (F.DPO_p_CFG_EN p) && !s.portFits p (s.getF (F.DPO_p_CFG_RATE p)) (s.getF (F.DPO_p_CFG_LANES p))) ||
        (List.range 4).any s.pixelOver || s.dueBad l, ccBudget)]
/-- Two entry ranges meet. -/
def cubesMeet (a b : Nat × Nat) : Bool := decide (a.1 < b.2) && decide (b.1 < a.2)
/-- The code of a stream's cube in the settings `s'` that a change leaves (R307), with the cubes in use now. -/
def State.cubeCode (s s' : State) (n : Nat) : Code :=
  match s'.cubeOf n with
  | none => ccOk
  | some c =>
    firstCode [(decide (531441 < c.2), ccNoSpace),
      ((List.range 64).any (fun k => k != n && (match s'.cubeOf k with | some d => d != c && cubesMeet c d | none => false)), ccFormat),
      (s.cubeOf n != some c && !((List.range 64).any (fun k => s.cubeOf k == some c)) &&
        (List.range 64).any (fun k => match s.cubeOf k with | some d => cubesMeet c d | none => false), ccState)]
/-- A change loads its cube: it uses one that no enabled stream's cube is. -/
def State.cubeLoads (s s' : State) (n : Nat) : Bool :=
  match s'.cubeOf n with
  | none => false
  | some c => !((List.range 64).any (fun k => s.cubeOf k == some c))
/-- Write n entries of a cube from its volume image in DRAM; the flag tells of an uncorrectable entry. -/
def State.loadCube (s : State) (entry addr : Nat) : Nat → State × Bool
  | 0 => (s, false)
  | n + 1 =>
    match s.countedRead addr 8 with
    | (s, bs, bad) =>
      match State.loadCube (s.setCv entry (cvWord (leNat bs))) (entry + 1) (addr + 8) n with
      | (s, bad') => (s, bad || bad')

/-- The background that fills a hold buffer (R299). -/
def State.writeBackground (s : State) (a : Nat) (bs : List Byte) : State := (s.writeDram a bs).1
def putPipes : List (Nat × Nat × Nat) → State → State
  | [], s => s
  | (n, k, p) :: r, s => putPipes r ((s.setF (F.STR_n_STATUS_PIPES n) (k - 1)).setF (F.STR_n_STATUS_PIPE0 n) p)
/-- SHARE set to the smallest value that covers what is accepted (R150). -/
def State.putShare (s : State) : State := s.setF F.MC_RSV_SHARE (min 204 (s.shareNeeded (s.allRanges s.startedList s.isShed)))
def State.noteAccepted (s : State) : State :=
  let s := match s.pipes with | some l => putPipes l s | none => s
  let s := (s.setF F.CMP_LOAD_FETCH (ceilDiv s.fetchRate s.rateUnit)).setF F.CMP_LOAD_CAPTURE s.captureRate
  s.putShare
/-- Training starts on a transmit port that a change has enabled (R321). -/
def State.trainEnabled (s : State) (old : State) (b : List Byte) : State :=
  let p := blkPortNo b
  if blkPort b && !blkRx b && s.flag (F.DPO_p_CFG_EN p) && s.flag (F.DPO_p_STATUS_HPD p) && !old.flag (F.DPO_p_CFG_EN p) then s.startTraining p
  else s
/-- Pending flip sets that name a stream are voided (R290). -/
def FlipSet.names (f : FlipSet) (n : Nat) : Bool := f.entries.any (fun e => e.stream == n)
def voidFlips (n : Nat) : List FlipSet → State → State
  | [], s => s
  | f :: r, s => voidFlips n r (if f.names n then s.complete f.cmd ccVoided else s)
def State.setFlips (s : State) (l : List FlipSet) : State :=
  ({ s with raster := { s.raster with flips := l } }).setF F.CMP_FLIP_STAT_PEND l.length
/-- The Rulebook prepares a stream's new settings: its hold buffer is filled where the stream is enabled as an output stream or resized
(R299). -/
def State.prepareHold (s : State) (b : List Byte) : State :=
  let n := blkStream b
  let s' := s.putBlock b
  if s'.isOutput n && (!s.isOutput n || s.strW n != s'.strW n || s.strH n != s'.strH n) then
    s.writeBackground (s'.getF (F.STR_n_HOLD_BASE n) * 65536) (List.replicate (s'.strW n * s'.strH n) (leBytes 8 (tripleWord (s'.bgPixel n)))).flatten
  else s
/-- A SET_STREAM takes effect at a boundary; its cube and its hold buffer are written already. -/
def State.applyStream (s : State) (b : List Byte) : State :=
  let n := blkStream b
  let s' := s.putBlock b
  let fresh := s'.flag (F.STR_n_CFG_EN n) && !s.flag (F.STR_n_CFG_EN n)
  let x := s.strm n
  let s' := if fresh then (s'.setStrm n { fetched := x.fetched, fetchAt := x.fetchAt, fetchSet := x.fetchSet }).setReg (R.STR_n_FRM_LAST n) 0#32 else s'
  let s' := s'.setStrm n { s'.strm n with changed := true }
  let flips := s'.raster.flips
  let s' := (voidFlips n flips s').setFlips (flips.filter (fun f => !f.names n))
  (s'.trainEnabled s b).noteAccepted

/-! ### Shedding (R152, R275) -/

/-- The stream to shed next: lowest PRIO, and the highest number among equals. -/
def State.shedNext (s : State) (shed : Nat → Bool) : Option Nat :=
  ((List.range 64).filter (fun n => s.flag (F.STR_n_CFG_EN n) && !shed n)).foldl (fun m n => match m with
    | none => some n
    | some k => if s.getF (F.STR_n_CFG_PRIO n) ≤ s.getF (F.STR_n_CFG_PRIO k) then some n else some k) none
/-- The balance check passes with a set of streams shed. -/
def State.fitsShed (s : State) (l : List Nat) : Bool := decide (s.shareNeeded (s.allRanges s.startedList (fun n => l.contains n)) ≤ 204)
/-- Shed streams one at a time, until the balance check passes. -/
def State.shedMore (s : State) : Nat → List Nat → List Nat
  | 0, l => l
  | k + 1, l =>
    if s.fitsShed l then l
    else match s.shedNext (fun n => l.contains n) with
      | some n => State.shedMore s k (n :: l)
      | none => l
/-- The order in which shed streams are tried for a return: the reverse of that in which streams are shed (log 225). -/
def State.returnOrder (s : State) (l : List Nat) : List Nat :=
  l.foldl (fun a n => a.takeWhile (fun k => decide (s.getF (F.STR_n_CFG_PRIO n) < s.getF (F.STR_n_CFG_PRIO k)) ||
    (s.getF (F.STR_n_CFG_PRIO n) == s.getF (F.STR_n_CFG_PRIO k) && decide (k < n))) ++ n ::
    a.dropWhile (fun k => decide (s.getF (F.STR_n_CFG_PRIO n) < s.getF (F.STR_n_CFG_PRIO k)) ||
    (s.getF (F.STR_n_CFG_PRIO n) == s.getF (F.STR_n_CFG_PRIO k) && decide (k < n)))) []
/-- The streams that are shed from a boundary on: where the check fails with those that are, more are shed; then each returns with which it
passes. -/
def State.shedSet (s : State) (l : List Nat) : List Nat :=
  let l := s.shedMore 64 l
  (s.returnOrder l).foldl (fun l n => if s.fitsShed (l.erase n) then l.erase n else l) l
def putShed (l : List Nat) : Nat → State → State
  | 0, s => s
  | n + 1, s =>
    let s := putShed l n s
    if s.isShed n == l.contains n then s else (s.setF (F.STR_n_STATUS_SHED n) (l.contains n).toNat).record 0x03 0 n
/-- Shed and return streams at a lead-domain boundary. -/
def State.shed (s : State) : State := (putShed (s.shedSet ((List.range 64).filter (fun n => s.isShed n && s.flag (F.STR_n_CFG_EN n)))) 64 s).putShare

/-! ### Flip sets (R288, R289, R385) -/

/-- An entry of a flip-set block, none when a reserved bit is set. -/
def flipEntry (e : List Byte) : Option FlipEntry :=
  let w := fieldAt e 0 4
  if w &&& (0xFFFFFFFF ^^^ 0x1F073F) != 0 ∨ !zeroBytes (e.drop 0x18) ∨ fieldAt e 0xC 4 ≥ 2 ^ 17 ∨ fieldAt e 0x10 4 ≥ 2 then none
  else some { stream := bitsOf w 5 0, layer := bitsOf w 10 8
              offset := if w.testBit 16 then some (fieldAt e 4 4) else none
              pos := if w.testBit 17 then some (fieldAt e 8 2, fieldAt e 0xA 2) else none
              alpha := if w.testBit 18 then some (fieldAt e 0xC 4) else none
              en := if w.testBit 19 then some (fieldAt e 0x10 4 == 1) else none
              order := if w.testBit 20 then some (fieldAt e 0x14 4) else none }
/-- The entries of a block. -/
def allSome {α : Type} : List (Option α) → Option (List α)
  | [] => some []
  | none :: _ => none
  | some a :: r => (allSome r).map (fun l => a :: l)
def flipEntries (b : List Byte) : Option (List FlipEntry) :=
  let n := fieldAt b 0 1
  if n = 0 ∨ 16 < n ∨ b.length ≠ 32 + 32 * n ∨ !zeroBytes ((b.drop 1).take 31) then none
  else allSome ((entriesAt b 32 32 n).map flipEntry)
/-- The settings of an entry, put in force. -/
def State.putFlip (s : State) (e : FlipEntry) : State :=
  let n := e.stream
  let l := e.layer
  let s := match e.offset with | some v => s.setF (F.STR_n_Ll_OFF_OFFSET n l) v | none => s
  let s := match e.pos with | some (x, y) => (s.setF (F.STR_n_Ll_POS_X n l) x).setF (F.STR_n_Ll_POS_Y n l) y | none => s
  let s := match e.alpha with | some v => s.setF (F.STR_n_Ll_EXT_ALPHA n l) v | none => s
  let s := match e.en with | some v => s.setF (F.STR_n_Ll_CFG_EN n l) v.toNat | none => s
  match e.order with | some v => s.setF (F.STR_n_ORDER_LIST n) v | none => s
def State.putFlips (s : State) : List FlipEntry → State
  | [] => s
  | e :: r => State.putFlips (s.putFlip e) r
/-- An entry breaks R274, R279 or R280, or names no output stream. -/
def State.flipBad (s : State) (e : FlipEntry) : Bool :=
  !s.isOutput e.stream || s.pictureBad e.stream
/-- The flip decision tick for a deadline round has passed (R289). -/
def State.flipTooLate (s : State) (d deadline : Nat) : Bool :=
  let x := s.dom d
  x.run && (decide (deadline ≤ x.round) ||
    (deadline == x.round + 1 && (x.flipsDecided || decide (x.bmin < s.now + 18 * s.turnLen d))))
/-- FLIP_SET: a set is accepted, or the code with which its command completes at once. -/
def State.acceptFlip (s : State) (c : HostCmd) (block : List Byte) (k target deadline : Nat) : State :=
  match flipEntries block with
  | none => s.complete c ccFormat
  | some es =>
    let d := s.strDom ((es.head?.map (fun e => e.stream)).getD 0)
    let s' := s.putFlips es
    if es.any (fun e => s.strDom e.stream != d) || es.any s'.flipBad then s.complete c ccFormat
    else if s.flipTooLate d deadline then (s.bumpF F.CMP_FLIP_CNT_EXPIRED).complete c ccExpired
    else if 32 ≤ s.raster.flips.length then s.complete c ccNoSpace
    else
      let reached := fenceReached (s.getF (F.CMP_FENCE_k_VALUE k)) target
      s.setFlips (s.raster.flips ++ [{ cmd := c, dom := d, fence := k, target := target, deadline := deadline, entries := es,
                                       stamp := if reached then some s.now else none }])
/-- The flip decision of a domain: pending sets whose fence is stamped at or before its tick are decided (R289). -/
def State.decideFlips (s : State) (d tick : Nat) : State :=
  { s with raster := { s.raster with flips := s.raster.flips.map (fun f =>
      if f.dom = d then match f.stamp with | some t => if t ≤ tick then { f with decided := true } else f | none => f else f) } }
/-- The flip sets of a domain at a boundary: the decided ones take effect in order of acceptance and complete with OK; those
whose deadline round begins complete with EXPIRED (R289, R290). -/
def runFlips (d round : Nat) : List FlipSet → State → State
  | [], s => s
  | f :: r, s =>
    runFlips d round r (if f.dom = d then
      if f.decided then (((s.putFlips f.entries).bumpF F.CMP_FLIP_CNT_APPLIED).complete f.cmd ccOk)
      else if f.deadline ≤ round then (s.bumpF F.CMP_FLIP_CNT_EXPIRED).complete f.cmd ccExpired else s
    else s)
/-- Sets that come while others complete, and stamps given by their fences, stand (R287). -/
def State.applyFlips (s : State) (d round : Nat) : State :=
  let now := fun (f : FlipSet) => f.dom == d && (f.decided || decide (f.deadline ≤ round))
  let l := s.raster.flips
  runFlips d round (l.filter now) (s.setFlips (l.filter (fun f => !now f)))

end Sys2Proof.Machine
end

