-- ==== Sys2Proof/Machine/Adapt.lean ====
section
/-! DEFINITION. Online adaptation: the state sets at a start (R260), windows and the placing of a step (R260 to R263), decision,
commit and discard (R265 to R268), repair of the live set (R271), and the sub-commands of ADAPT_CTRL (R272). -/

namespace Sys2Proof.Machine

def State.setAdapt (s : State) (a : Adapt) : State := { s with adapt := a }
def State.live (s : State) : Nat := s.getF F.TT_ADP_STATUS_LIVE
def State.adaptOn (s : State) : Bool := s.flag F.TT_ADP_STATUS_EN
def State.commanded (s : State) : Bool := s.flag F.TT_ADP_STATUS_MODE
/-- The device shares its lead domain with a wall: it drives the wall's time or follows it (R266). -/
def State.inWall (s : State) : Bool := decide (1 < s.raster.fab.presence.length)

/-- The run round of the lead domain's present round (R54). -/
def State.runRoundNow (s : State) : Nat := (s.leadRound + 2 ^ 48 - s.seq.startRound) % 2 ^ 48

/-! ### State sets (R258, R260) -/

/-- A device address lies in the scratchpad. -/
def isSpad (a : Nat) : Bool := decide (spadBase ≤ a) && decide (a < spadBase + 16 * sliceSize)
/-- Read and write device memory as the Rulebook does: a slice or DRAM. -/
def State.readDev (s : State) (a len : Nat) : State × List Byte × Bool :=
  if isSpad a then s.readSlice ((a - spadBase) / sliceSize) ((a - spadBase) % sliceSize) len else s.countedRead a len
/-- A read of the Rulebook for adaptation: DRAM through the shared cache, in class ADAPT (R144, log 224). -/
def State.readTcc (s : State) (a len : Nat) : State × List Byte × Bool :=
  if isSpad a then s.readDev a len else s.cacheRead 2 false a len
def State.writeDev (s : State) (a : Nat) (bs : List Byte) : State :=
  if isSpad a then s.writeSlice ((a - spadBase) / sliceSize) ((a - spadBase) % sliceSize) bs else (s.writeDram a bs).1
/-- Zero the moments and their scales of every adapter of a set. -/
def zeroMoments (t : List Byte) (i : Nat) : Nat → State → State
  | 0, s => s
  | k + 1, s =>
    let s := zeroMoments t i k s
    s.writeDev (s.setAddr i (adParts t k + adMoments t k)) (List.replicate (2 * adParams t k + 4 * adBlocks t k) 0#8)
/-- A bundle start puts set 0 in force as live with the images, the moments zero, and adaptation disabled (R260). -/
def State.adaptStart (s : State) : State :=
  let t := s.adaptTable
  if t.isEmpty then s
  else
    let s := zeroMoments t 0 (adapters t) (s.writeDev (s.setAddr 0 0) s.adapt.image)
    let s := ((s.setF F.TT_ADP_STATUS_LIVE 0).setF F.TT_ADP_STATUS_EN 0).setF F.TT_ADP_STATUS_PEND 0
    s.setAdapt { image := s.adapt.image, commits := s.adapt.commits }

/-! ### Samples (R261, R363) -/

/-- The hash of a token at wall token coordinates (u, v), for step n. -/
def sampleHash (seed n u v : Nat) : Nat := crc32c (leBytes 8 seed ++ leBytes 4 n ++ leBytes 4 u ++ leBytes 4 v)
/-- Wall token coordinates of the device's own tokens of a tensor-fed stream. -/
def State.ownTokens (s : State) (n : Nat) : List (Nat × Nat) :=
  let tw := max 1 (fieldAt s.adaptTable 1 1)
  let th := max 1 (fieldAt s.adaptTable 2 1)
  (List.range (ceilDiv (s.strH n) th)).flatMap (fun j => (List.range (ceilDiv (s.strW n) tw)).map (fun i =>
    (s.getF (F.FIN_n_WALLX_X0 n) / tw + i, s.getF (F.FIN_n_WALLY_Y0 n) / th + j)))
/-- The offset in the window of run round `rr`. -/
def State.windowOffset (s : State) (rr : Nat) : Nat :=
  rr - (if s.commanded then s.adapt.opened else s.adapt.w0 + s.adapt.step * s.getF F.TT_ADP_STATUS_P)
/-- A token is a sample of the open window's step, taken at this offset in the window. -/
def State.takesSample (s : State) (offset : Nat) (uv : Nat × Nat) : Bool :=
  let seed := match s.seq.bundle with | some b => b.adaptSeed | none => 0
  let h := sampleHash seed s.adapt.step uv.1 uv.2
  decide (h / 65536 < s.adapt.rate) && h % 65536 % max 1 (s.getF F.TT_ADP_STATUS_P) == offset
/-- The samples of the round that begins: none in a repeat round, in HOLD or STANDBY, or past the window (R261, R262). -/
def State.takeSamples (s : State) (rr : Nat) (isRepeat : Bool) : State :=
  let o := s.windowOffset rr
  if !s.adaptOn || isRepeat || s.getF F.PWR_STATE_STATE != 0 || decide (s.getF F.TT_ADP_STATUS_P ≤ o) then s
  else s.setAdapt { s.adapt with samples := s.adapt.samples ++ (s.fedStreams.flatMap s.ownTokens).filter (s.takesSample o) }

/-! ### Placing a step (R263) -/

/-- The lowest free slots of the task table. -/
def State.freeSlots (s : State) : Nat → Nat → Nat → List Nat
  | 0, _, _ => []
  | _, 0, _ => []
  | k + 1, n + 1, t =>
    if s.taskState t = 0 then t :: State.freeSlots s k n (t + 1) else State.freeSlots s (k + 1) n (t + 1)
/-- A group identifier that no task carries, the largest first. -/
def State.freeGroup (s : State) : Nat :=
  let used := s.usedSlots.map s.slotGroup
  ((List.range 16385).map (fun i => 65535 - i)).find? (fun g => !used.contains g) |>.getD 0xFFFF
/-- Physical units of the mode in force, and the rows that the line task does not declare, which a step's tasks are given. -/
def State.stepUnits (s : State) : Nat := if s.flag F.GRID_CTRL_QUARTER then s.getF F.HUB_CAP0_Q_MASK else 16
def State.stepRows (s : State) : Nat × Nat :=
  let first := s.seq.list.accRows.foldl (fun m (_, a, n) => max m (a + n)) 0
  let rows := if s.flag F.GRID_CTRL_QUARTER then s.getF F.ACC_ROWS_ROWS / 2 else s.getF F.ACC_ROWS_ROWS
  (min first rows, rows - first)
/-- The bytes of a step task's slot: READY, CLASS ADAPT, KIND 0x2, its core, the line task's regions, the step program's entry,
the group of the step. -/
def State.stepImage (s : State) (core group rank size : Nat) : List Byte :=
  let rows := s.stepRows
  leBytes 4 (1 + s.adapt.prio * 16 + 2 * 256 + 2 * 4096) ++ leBytes 4 0 ++ leBytes 4 (core + s.stepUnits * 16) ++
  leBytes 4 (rows.1 + rows.2 * 65536) ++ s.tableBytes 0 0x10 96 ++ leBytes 4 (adaptEntry s.adaptTable) ++ leBytes 36 0 ++
  leBytes 8 s.leadRound ++ leBytes 8 0 ++ leBytes 4 (if size = 1 then 0 else group + rank * 65536 + size * 16777216) ++ leBytes 84 0
/-- Fill the slots of a step's tasks. -/
def fillStep (group size : Nat) : List (Nat × Nat × Nat) → State → State
  | [], s => s
  | (slot, core, rank) :: r, s => fillStep group size r (s.putTable slot 0 (s.stepImage core group rank size))
/-- The tasks of step n are placed, one on each core of the table; with too few free slots the step stays unplaced. -/
def State.placeStep (s : State) (n : Nat) : State :=
  let cores := adaptCores s.adaptTable
  let slots := s.freeSlots cores.length 16383 1
  if slots.length < cores.length then s.setAdapt { s.adapt with unplaced := some n }
  else
    let s := fillStep s.freeGroup cores.length (slots.zip (cores.zip (List.range cores.length))) s
    let cause := if s.adapt.copyFailed then 3 else 0
    (s.setAdapt { s.adapt with pend := some ⟨n, slots, cause, s.adapt.samples⟩, unplaced := none, idle := false, copyFailed := false,
                               samples := [] }).setF F.TT_ADP_STATUS_PEND 1

/-! ### Decision (R265 to R268) -/

/-- Cancel the tasks of a step that still run. -/
def cancelSlots : List Nat → State → State
  | [], s => s
  | t :: r, s => cancelSlots r (if [0, 8, 9, 11, 10].contains (s.taskState t) then s else s.beginCancel t none)
/-- Latch a decision and record it. -/
def State.latchDecision (s : State) (n cause : Nat) (commit : Bool) : State :=
  let s := ((s.setF F.TT_ADP_LAST_VALID 1).setF F.TT_ADP_LAST_COMMIT commit.toNat).setF F.TT_ADP_LAST_CAUSE cause
  (s.setF F.TT_ADP_LAST_STEP (n % 2 ^ 27)).record 0x09 cause n
/-- A step is discarded: its tasks are cancelled, the skip counted, the cause latched (R265). In COMMANDED mode the next step's
window opens. -/
def State.discardStep (s : State) (n cause : Nat) : State :=
  let slots := match s.adapt.pend with | some p => p.slots | none => []
  let s := s.setAdapt { s.adapt with pend := none, unplaced := none, idle := false }
  let s := cancelSlots slots s
  let s := ((s.bumpF F.TT_ADP_CNT_SKIPS).setF F.TT_ADP_STATUS_PEND 0).latchDecision n cause false
  if s.commanded then s.setAdapt { s.adapt with step := n + 1, opened := s.runRoundNow, samples := [] } else s
/-- Discard the step that is placed, if there is one. -/
def State.discardPlaced (s : State) (cause : Nat) : State :=
  match s.adapt.pend with
  | some p => s.discardStep p.step cause
  | none => s
/-- Discard whatever step is placed or due, if there is one. -/
def State.discardPending (s : State) (cause : Nat) : State :=
  match s.adapt.pend, s.adapt.unplaced with
  | none, some n => s.discardStep n cause
  | _, _ => s.discardPlaced cause

/-! ### Quantisation records (R83, R84, R267, R268) -/

/-- The records of the α adapters: (slice, offset). An α adapter names one record for each parameter, at most 8. -/
def alphaRecords (t : List Byte) : List (Nat × Nat) :=
  ((List.range (adapters t)).map (fun i => if adKind t i = 2 then (List.range (min 8 (adParams t i))).map (adRecord t i) else [])).flatten
/-- The copies of records that the Rulebook knows: those that α adapters name, and those that line kernels have counted into (log 93). -/
def State.knownCopies (s : State) : List (Nat × Nat) := (alphaRecords s.adaptTable ++ s.adapt.records).eraseDups
/-- The copies of one record: those at its offset in any slice (log 93). -/
def State.copiesAt (s : State) (off : Nat) : List (Nat × Nat) := s.knownCopies.filter (fun r => r.2 == off)
/-- The offsets of the records, each once. -/
def State.recordOffsets (s : State) : List Nat := (s.knownCopies.map (fun r => r.2)).eraseDups
/-- Write bytes at an offset in every copy of a record. -/
def writeCopies (at_ : Nat) (bs : List Byte) : List (Nat × Nat) → State → State
  | [], s => s
  | r :: l, s => writeCopies at_ bs l (s.writeSlice r.1 (r.2 + at_) bs)
/-- Write the learned α of one α adapter to every copy of its records (R267). -/
def putAlphas (t : List Byte) (i : Nat) : Nat → State → State
  | 0, s => s
  | k + 1, s =>
    let s := putAlphas t i k s
    match s.readTcc (s.setAddr s.live (adParts t i + adWorking t i + 2 * k)) 2 with
    | (s, bs, _) => writeCopies 0 bs (s.copiesAt (adRecord t i k).2) s
def putAllAlphas (t : List Byte) : Nat → State → State
  | 0, s => s
  | i + 1, s =>
    let s := putAllAlphas t i s
    if adKind t i = 2 then putAlphas t i (min 8 (adParams t i)) s else s
/-- A counter of every copy of a record goes up by one, saturating. -/
def bumpCopies (at_ : Nat) : List (Nat × Nat) → State → State
  | [], s => s
  | r :: l, s => bumpCopies at_ l (s.writeSlice r.1 (r.2 + at_) (leBytes 4 (min (s.sliceNat r.1 (r.2 + at_) 4 + 1) 0xFFFFFFFF)))
/-- R84 for one record with its sums S and E. The counters of a record whose DRIFT_EN is clear are cleared too: R83 counts since the last
commit; the model's choice (log 93). -/
def State.driftRecord (s : State) (off : Nat) (sums : Nat × Nat) : State :=
  let l := s.copiesAt off
  match s.readSlice (l.headD (0, 0)).1 off 8 with
  | (s, bs, _) =>
    let f := fieldAt bs
    let s :=
      if (f 6 2).testBit 0 then
        match driftAlpha sums.1 sums.2 (f 4 2) (f 0 2) (f 2 2) with
        | some a => bumpCopies 0x14 l (writeCopies 0 (leBytes 2 a) l s)
        | none => s
      else s
    writeCopies 8 (leBytes 12 0) l s
/-- The sums of SAT_CNT and ELEM_CNT over a record's copies. -/
def State.recordSums (s : State) (off : Nat) : Nat × Nat :=
  let l := s.copiesAt off
  ((l.map (fun r => s.sliceNat r.1 (r.2 + 8) 4)).sum, (l.map (fun r => s.sliceNat r.1 (r.2 + 12) 4)).sum)
/-- S and E of a record: on a single device the counts closed now; in a wall the snapshot closed at the last commit and what the other
devices' snapshots add to it, free values (R268, log 93). -/
def State.driftSums (s : State) (k off : Nat) : Nat × Nat :=
  if s.inWall then
    let own := match s.adapt.snap.find? (fun x => x.1 == off) with | some x => x.2 | none => (0, 0)
    (own.1 + Config.freeValue s.freeIdx (2 * k), own.2 + Config.freeValue s.freeIdx (2 * k + 1))
  else s.recordSums off
/-- R84 for every record. -/
def driftAll : List Nat → Nat → State → State
  | [], _, s => s
  | r :: rs, k, s => driftAll rs (k + 1) (s.driftRecord r (s.driftSums k r))
/-- A COMMIT of the placed step (R267). -/
def State.commitStep (s : State) (n : Nat) : State :=
  let t := s.adaptTable
  let recs := s.recordOffsets
  let s := s.setF F.TT_ADP_STATUS_LIVE (1 - s.live)
  let s := putAllAlphas t (adapters t) s
  let closed := recs.map (fun r => (r, s.recordSums r))
  let s := driftAll recs 0 s
  let s := (if s.inWall then s.drawFree else s).setAdapt { s.adapt with snap := closed }
  let s := ((s.setReg R.TT_ADP_STEP (BitVec.ofNat 32 n)).bumpF F.TT_ADP_CNT_COMMITS).setF F.TT_ADP_STATUS_PEND 0
  let s := (s.setAdapt { s.adapt with pend := none }).latchDecision n 0 true
  if s.commanded then s.setAdapt { s.adapt with step := n + 1, opened := s.runRoundNow, samples := [] } else s
/-- The step is ready: its tasks are DONE and it has met no cause (R266). -/
def State.stepReady (s : State) : Bool := match s.adapt.pend with | some p => p.slots.isEmpty && p.cause == 0 | none => false

/-- Commands complete, in order of acceptance, with one code. -/
def completeAll (code : Nat) : List HostCmd → State → State
  | [], s => s
  | c :: r, s => completeAll code r (s.complete c code)
/-- Step 5 of R50: the decision of the boundary of run round `rr`. `go` is the wall's outcome, none on a single device. -/
def State.decideStep (s : State) (rr : Nat) (go : Option Bool) : State :=
  let a := s.adapt
  let ready := match go with | some b => b | none => s.stepReady
  if a.commits ≠ [] then
    let s := s.setAdapt { s.adapt with commits := [] }
    match a.pend with
    | some p => if ready then completeAll ccOk a.commits (s.commitStep p.step) else completeAll ccBusy a.commits s
    | none => completeAll ccBusy a.commits s
  else if !s.adaptOn then s
  else if s.commanded then
    match a.pend with
    | some p => if p.cause = 0 then s else s.discardStep p.step p.cause
    | none => s
  else
    let due := fun n => a.w0 + (n + 1) * s.getF F.TT_ADP_STATUS_P + s.getF F.TT_ADP_STATUS_G == rr
    match a.pend, a.unplaced with
    | some p, _ =>
      if !due p.step then s
      else if ready then s.commitStep p.step
      else s.discardStep p.step (if p.cause ≠ 0 then p.cause else if s.stepReady then 7 else 1)
    | none, some n => if due n then s.discardStep n (if a.idle then 6 else 1) else s
    | none, none => s
/-- Windows: a step whose window closes at this boundary is placed; in HOLD and STANDBY it is not (R262, R263). -/
def State.advanceWindow (s : State) (rr : Nat) : State :=
  if !s.adaptOn then s
  else
    let p := s.getF F.TT_ADP_STATUS_P
    let runs := s.getF F.PWR_STATE_STATE == 0
    let n := s.adapt.step
    if s.commanded then
      if s.adapt.pend.isNone && decide (s.adapt.opened + p ≤ rr) && runs then s.placeStep n else s
    else if rr = s.adapt.w0 + (n + 1) * p then
      let s := if runs then s.placeStep n else s.setAdapt { s.adapt with unplaced := some n, idle := true, copyFailed := false }
      s.setAdapt { s.adapt with step := n + 1, samples := [] }
    else s

/-! ### Repair (R271) -/

/-- RESET: as DISABLE, then set 0 in force with the images (R260, R272). -/
def State.adaptDisable (s : State) : State := (s.discardPending 6).setF F.TT_ADP_STATUS_EN 0
def State.adaptReset (s : State) : State :=
  let r := s.adapt.records
  let s := s.adaptDisable.adaptStart
  s.setAdapt { s.adapt with records := r }
/-- Some word of an interval of device memory is uncorrectable. -/
def State.badRange (s : State) (a len : Nat) : Bool := s.anyBad (firstWord a) (wordCount a len)
/-- The live masters and moments of some adapter are uncorrectable. -/
def State.masterBad (s : State) : Bool :=
  let t := s.adaptTable
  (List.range (adapters t)).any (fun i => s.badRange (s.setAddr s.live (adParts t i)) (max 1 (adWorking t i)))
/-- Where the parts of a set end that begin at an offset: at the next adapter's parts, or the set's end. -/
def partsEnd (t : List Byte) (at_ : Nat) : Nat :=
  ((List.range (adapters t)).map (adParts t)).foldl (fun m x => if at_ < x then min m x else m) (setSize t)
/-- Clear the error marks of the working weights: the same bits written again. -/
def clearWorking (t : List Byte) : Nat → State → State
  | 0, s => s
  | i + 1, s =>
    let s := clearWorking t i s
    let a := s.setAddr s.live (adParts t i + adWorking t i)
    let n := partsEnd t (adParts t i) - (adParts t i + adWorking t i)
    if n = 0 then s else s.clearErrs (firstWord a) (wordCount a n)
/-- At a boundary after a line pass met an uncorrectable live working weight, the working weights are rebuilt from the masters,
or adaptation is reset; each is recorded. -/
def State.repairLive (s : State) : State :=
  if !s.adapt.rebuild then s
  else
    let s := s.setAdapt { s.adapt with rebuild := false }
    if s.masterBad then (s.record 0x09 0).adaptReset else (clearWorking s.adaptTable (adapters s.adaptTable) s).record 0x09 0

/-! ### ADAPT_CTRL (R272) -/

def adSub (c : HostCmd) : Nat := c.args.getD 0 0 % 16
def adMode (c : HostCmd) : Nat := bitsOf (c.args.getD 0 0) 4 4
def adPrio (c : HostCmd) : Nat := bitsOf (c.args.getD 0 0) 11 8
def adP (c : HostCmd) : Nat := bitsOf (c.args.getD 1 0) 7 0
def adG (c : HostCmd) : Nat := bitsOf (c.args.getD 1 0) 15 8
def adRate (c : HostCmd) : Nat := c.args.getD 2 0
def argAddr (c : HostCmd) (i : Nat) : Nat := c.args.getD i 0 + c.args.getD (i + 1) 0 * 2 ^ 32
/-- Arguments out of range. -/
def adaptBad (c : HostCmd) : Bool :=
  bitsOf (c.args.getD 0 0) 31 12 != 0 || bitsOf (c.args.getD 0 0) 7 5 != 0 ||
  (adSub c == 1 && (adG c == 0 || decide (adP c < adG c) || bitsOf (c.args.getD 1 0) 31 16 != 0 || adRate c == 0 || decide (65536 < adRate c)))
/-- ENABLE at a due round: W0 is its run round and step 0's window opens; the wall offsets must be multiples of the token size (R363). -/
def State.adaptEnable (s : State) (c : HostCmd) : State :=
  let t := s.adaptTable
  let skew := s.fedStreams.any (fun n => s.getF (F.FIN_n_WALLX_X0 n) % max 1 (fieldAt t 1 1) != 0 ||
    s.getF (F.FIN_n_WALLY_Y0 n) % max 1 (fieldAt t 2 1) != 0)
  if s.adaptOn || !s.seq.started then s.complete c ccState
  else if skew then s.complete c ccFormat
  else if (adaptCores s.adaptTable).any (fun n => !s.unitUsable n) then s.complete c ccCapability
  else
    let s := (((s.setF F.TT_ADP_STATUS_EN 1).setF F.TT_ADP_STATUS_MODE (adMode c)).setF F.TT_ADP_STATUS_P (adP c)).setF F.TT_ADP_STATUS_G (adG c)
    (s.setAdapt { image := s.adapt.image, commits := s.adapt.commits, records := s.adapt.records, rate := adRate c, prio := adPrio c, w0 := s.runRoundNow, opened := s.runRoundNow }).complete c ccOk
/-- EXPORT copies the live set to host memory; it runs after a commit of its boundary. -/
def State.adaptExport (s : State) (c : HostCmd) : State :=
  let n := setSize s.adaptTable
  if s.seq.bundle.isNone then s.complete c ccState
  else if c.args.getD 5 0 < n then s.complete c ccNoSpace
  else
    match s.readTcc (s.setAddr s.live 0) n with
    | (s, bs, bad) => if bad then s.complete c ccIo else ((s.putHost (argAddr c 3) bs).complete c ccOk)
/-- IMPORT replaces the images of R260: a state set and its CRC-32C. -/
def State.adaptImport (s : State) (c : HostCmd) (block : List Byte) : State :=
  let n := setSize s.adaptTable
  if s.seq.started || s.seq.bundle.isNone then s.complete c ccState
  else if block.length ≠ n + 4 ∨ crc32c (block.take n) ≠ leNat (block.drop n) then s.complete c ccFormat
  else (s.setAdapt { s.adapt with image := block.take n }).complete c ccOk
/-- A sub-command takes effect in step 3 of R50; COMMIT and EXPORT are finished after the decision of step 5. -/
def State.applyAdapt (s : State) (c : HostCmd) (block : List Byte) : State :=
  match adSub c with
  | 1 => s.adaptEnable c
  | 2 => s.adaptDisable.complete c ccOk
  | 3 => if !s.adaptOn || !s.commanded then s.complete c ccState else s.setAdapt { s.adapt with commits := s.adapt.commits ++ [c] }
  | 4 => if s.adapt.pend.isNone && s.adapt.unplaced.isNone then s.complete c ccState else (s.discardPending 6).complete c ccOk
  | 5 => s.adaptReset.complete c ccOk
  | 6 => s.adaptExport c
  | 7 => s.adaptImport c block
  | _ => s.complete c ccFormat

end Sys2Proof.Machine
end

