-- ==== Sys2Proof/Machine/Crypto.lean ====
section
/-! DEFINITION. The algorithms that the security block runs, which the spec names and does not print: SHA-256 (FIPS 180-4),
HMAC-SHA-256 (R397), LMS and HSS with the parameter sets of R400 (RFC 8554), and AES-256-GCM (R389; FIPS 197, SP 800-38D).
PRESUMED: the algorithms are those of the standards that the spec names. -/

namespace Sys2Proof.Machine

/-! ### SHA-256 -/

def w32 (x : Nat) : Nat := x % 4294967296
def rotr (n x : Nat) : Nat := (x >>> n) ||| w32 (x <<< (32 - n))
/-- The big-endian number of bytes, and the big-endian bytes of a number. -/
def beNat (bs : List Byte) : Nat := bs.foldl (fun n b => n * 256 + b.toNat) 0
def beBytes (n v : Nat) : List Byte := (leBytes n v).reverse
def shaConstants : List Nat :=
  [0x428a2f98, 0x71374491, 0xb5c0fbcf, 0xe9b5dba5, 0x3956c25b, 0x59f111f1, 0x923f82a4, 0xab1c5ed5, 0xd807aa98, 0x12835b01, 0x243185be, 0x550c7dc3, 0x72be5d74, 0x80deb1fe, 0x9bdc06a7, 0xc19bf174] ++
  [0xe49b69c1, 0xefbe4786, 0x0fc19dc6, 0x240ca1cc, 0x2de92c6f, 0x4a7484aa, 0x5cb0a9dc, 0x76f988da, 0x983e5152, 0xa831c66d, 0xb00327c8, 0xbf597fc7, 0xc6e00bf3, 0xd5a79147, 0x06ca6351, 0x14292967] ++
  [0x27b70a85, 0x2e1b2138, 0x4d2c6dfc, 0x53380d13, 0x650a7354, 0x766a0abb, 0x81c2c92e, 0x92722c85, 0xa2bfe8a1, 0xa81a664b, 0xc24b8b70, 0xc76c51a3, 0xd192e819, 0xd6990624, 0xf40e3585, 0x106aa070] ++
  [0x19a4c116, 0x1e376c08, 0x2748774c, 0x34b0bcb5, 0x391c0cb3, 0x4ed8aa4a, 0x5b9cca4f, 0x682e6ff3, 0x748f82ee, 0x78a5636f, 0x84c87814, 0x8cc70208, 0x90befffa, 0xa4506ceb, 0xbef9a3f7, 0xc67178f2]
def shaInit : List Nat := [0x6a09e667, 0xbb67ae85, 0x3c6ef372, 0xa54ff53a, 0x510e527f, 0x9b05688c, 0x1f83d9ab, 0x5be0cd19]
/-- Extend the message schedule, newest word first, by `n` words. -/
def shaSchedule : Nat → List Nat → List Nat
  | 0, ws => ws
  | n + 1, ws =>
    let a := ws.getD 14 0
    let b := ws.getD 1 0
    let s0 := rotr 7 a ^^^ rotr 18 a ^^^ (a >>> 3)
    let s1 := rotr 17 b ^^^ rotr 19 b ^^^ (b >>> 10)
    shaSchedule n (w32 (ws.getD 15 0 + s0 + ws.getD 6 0 + s1) :: ws)
/-- One round on the working variables. -/
def shaRound (v : List Nat) (kw : Nat × Nat) : List Nat :=
  let g := fun i => v.getD i 0
  let s1 := rotr 6 (g 4) ^^^ rotr 11 (g 4) ^^^ rotr 25 (g 4)
  let ch := (g 4 &&& g 5) ^^^ ((0xFFFFFFFF ^^^ g 4) &&& g 6)
  let t1 := g 7 + s1 + ch + kw.1 + kw.2
  let s0 := rotr 2 (g 0) ^^^ rotr 13 (g 0) ^^^ rotr 22 (g 0)
  let maj := (g 0 &&& g 1) ^^^ (g 0 &&& g 2) ^^^ (g 1 &&& g 2)
  [w32 (t1 + s0 + maj), g 0, g 1, g 2, w32 (g 3 + t1), g 4, g 5, g 6]
def shaBlock (h : List Nat) (block : List Byte) : List Nat :=
  let w0 := (List.range 16).map (fun i => beNat ((block.drop (4 * i)).take 4))
  let ws := (shaSchedule 48 w0.reverse).reverse
  let v := (shaConstants.zip ws).foldl shaRound h
  (h.zip v).map (fun p => w32 (p.1 + p.2))
def shaBlocks : Nat → List Byte → List Nat → List Nat
  | 0, _, h => h
  | n + 1, bs, h => shaBlocks n (bs.drop 64) (shaBlock h (bs.take 64))
def sha256 (bs : List Byte) : List Byte :=
  let n := bs.length
  let padded := bs ++ [0x80#8] ++ List.replicate ((119 - n % 64) % 64) 0#8 ++ beBytes 8 (8 * n)
  ((shaBlocks (padded.length / 64) padded shaInit).map (beBytes 4)).flatten
/-- HMAC-SHA-256 (R397). -/
def hmac (key msg : List Byte) : List Byte :=
  let k := if key.length ≤ 64 then key else sha256 key
  let k := k ++ List.replicate (64 - k.length) 0#8
  sha256 (k.map (fun b => b ^^^ 0x5c#8) ++ sha256 (k.map (fun b => b ^^^ 0x36#8) ++ msg))

/-! ### LM-OTS and LMS (RFC 8554) -/

/-- Width, chains and checksum shift of an LM-OTS typecode; none for one that R400 does not accept. -/
def otsParams : Nat → Option (Nat × Nat × Nat)
  | 1 => some (1, 265, 7)
  | 2 => some (2, 133, 6)
  | 3 => some (4, 67, 4)
  | 4 => some (8, 34, 0)
  | _ => none
/-- Height of an LMS typecode. -/
def lmsHeight : Nat → Option Nat
  | 5 => some 5
  | 6 => some 10
  | 7 => some 15
  | 8 => some 20
  | 9 => some 25
  | _ => none
/-- Digit i of a string at a width. -/
def coef (bs : List Byte) (i w : Nat) : Nat :=
  ((bs.getD (i * w / 8) 0#8).toNat >>> (8 - (w * (i % (8 / w)) + w))) % 2 ^ w
def otsChecksum (w ls : Nat) (q : List Byte) : Nat :=
  (List.range (256 / w)).foldl (fun a i => a + (2 ^ w - 1 - coef q i w)) 0 <<< ls
/-- The message digits with their checksum. -/
def otsDigits (w ls : Nat) (q : List Byte) : List Byte := q ++ beBytes 2 (otsChecksum w ls q)
/-- Hash a chain's value from digit `j` on, `n` times. -/
def otsChain (ident : List Byte) (leaf i : Nat) : Nat → Nat → List Byte → List Byte
  | _, 0, v => v
  | j, n + 1, v => otsChain ident leaf i (j + 1) n (sha256 (ident ++ beBytes 4 leaf ++ beBytes 2 i ++ beBytes 1 j ++ v))
def otsMessage (ident : List Byte) (leaf : Nat) (rand msg : List Byte) : List Byte :=
  sha256 (ident ++ beBytes 4 leaf ++ [0x81#8, 0x81#8] ++ rand ++ msg)
/-- The public key that a signature and a message imply. -/
def otsCandidate (typ : Nat) (ident : List Byte) (leaf : Nat) (rand ys msg : List Byte) : Option (List Byte) :=
  match otsParams typ with
  | none => none
  | some (w, p, ls) =>
    let d := otsDigits w ls (otsMessage ident leaf rand msg)
    let zs := (List.range p).map (fun i =>
      let a := coef d i w
      otsChain ident leaf i a (2 ^ w - 1 - a) ((ys.drop (32 * i)).take 32))
    some (sha256 (ident ++ beBytes 4 leaf ++ [0x80#8, 0x80#8] ++ zs.flatten))
/-- The root that an authentication path implies, from a node of the tree. -/
def lmsRoot (ident : List Byte) : Nat → List Byte → List (List Byte) → List Byte
  | _, v, [] => v
  | node, v, p :: ps =>
    lmsRoot ident (node / 2) (sha256 (ident ++ beBytes 4 (node / 2) ++ [0x83#8, 0x83#8] ++ (if node % 2 = 1 then p ++ v else v ++ p))) ps
def lmsLeaf (ident : List Byte) (node : Nat) (ots : List Byte) : List Byte :=
  sha256 (ident ++ beBytes 4 node ++ [0x82#8, 0x82#8] ++ ots)
def chunks32 : Nat → List Byte → List (List Byte)
  | 0, _ => []
  | n + 1, bs => bs.take 32 :: chunks32 n (bs.drop 32)
/-- Length of an LMS signature, by its typecodes. -/
def lmsSigLen (p h : Nat) : Nat := 12 + 32 * (p + 1) + 32 * h
/-- A signature verifies under an LMS public key (56 bytes): typecodes, length, leaf and root. -/
def lmsVerify (pub msg sig : List Byte) : Bool :=
  match lmsHeight (beNat (pub.take 4)), otsParams (beNat ((pub.drop 4).take 4)) with
  | some h, some (_, p, _) =>
    let ots := beNat ((pub.drop 4).take 4)
    let ident := (pub.drop 8).take 16
    let leaf := beNat (sig.take 4)
    let off := 8 + 32 * (p + 1)
    pub.length == 56 && sig.length == lmsSigLen p h && beNat ((sig.drop 4).take 4) == ots &&
    beNat ((sig.drop off).take 4) == beNat (pub.take 4) && decide (leaf < 2 ^ h) &&
    (match otsCandidate ots ident leaf ((sig.drop 8).take 32) ((sig.drop 40).take (32 * p)) msg with
     | some k => lmsRoot ident (2 ^ h + leaf) (lmsLeaf ident (2 ^ h + leaf) k) (chunks32 h (sig.drop (off + 4))) == (pub.drop 24).take 32
     | none => false)
  | _, _ => false
/-- Bytes of the LMS signature at the front of a list under a public key; 0 where the typecodes are not accepted. -/
def lmsLenOf (pub : List Byte) : Nat :=
  match lmsHeight (beNat (pub.take 4)), otsParams (beNat ((pub.drop 4).take 4)) with
  | some h, some (_, p, _) => lmsSigLen p h
  | _, _ => 0
/-- Walk an HSS signature: `n` levels below this one. -/
def hssLevels (pub msg : List Byte) : Nat → List Byte → Bool
  | 0, sig => lmsVerify pub msg sig
  | n + 1, sig =>
    let k := lmsLenOf pub
    let next := (sig.drop k).take 56
    k != 0 && lmsVerify pub next (sig.take k) && hssLevels next msg n (sig.drop (k + 56))
/-- R400: an HSS signature verifies. -/
def hssVerify (pub msg sig : List Byte) : Bool :=
  let levels := beNat (pub.take 4)
  pub.length == 60 && decide (1 ≤ levels) && decide (levels ≤ 3) && beNat (sig.take 4) + 1 == levels &&
  hssLevels (pub.drop 4) msg (levels - 1) (sig.drop 4)

/-! ### Signing (R403, R406): LMOTS_SHA256_N32_W8 keys from a seed -/

/-- The private chain value i of a leaf (RFC 8554, appendix A). -/
def otsSecret (seed ident : List Byte) (leaf i : Nat) : List Byte :=
  sha256 (ident ++ beBytes 4 leaf ++ beBytes 2 i ++ [0xFF#8] ++ seed)
def otsPublic (seed ident : List Byte) (leaf : Nat) : List Byte :=
  sha256 (ident ++ beBytes 4 leaf ++ [0x80#8, 0x80#8] ++
    ((List.range 34).map (fun i => otsChain ident leaf i 0 255 (otsSecret seed ident leaf i))).flatten)
def otsSign (seed ident : List Byte) (leaf : Nat) (rand msg : List Byte) : List Byte :=
  let d := otsDigits 8 0 (otsMessage ident leaf rand msg)
  beBytes 4 4 ++ rand ++ ((List.range 34).map (fun i => otsChain ident leaf i 0 (coef d i 8) (otsSecret seed ident leaf i))).flatten
/-- The leaf nodes of a tree of height h. -/
def treeLeaves (seed ident : List Byte) (h : Nat) : List (List Byte) :=
  (List.range (2 ^ h)).map (fun q => lmsLeaf ident (2 ^ h + q) (otsPublic seed ident q))
/-- The level above a level of nodes, whose first node has a number. -/
def treeUp (ident : List Byte) : Nat → List (List Byte) → List (List Byte)
  | node, a :: b :: r => sha256 (ident ++ beBytes 4 (node / 2) ++ [0x83#8, 0x83#8] ++ a ++ b) :: treeUp ident (node + 2) r
  | _, _ => []
/-- The levels of a tree from its leaves up, the root last. -/
def treeLevels (ident : List Byte) : Nat → List (List Byte) → List (List (List Byte))
  | 0, l => [l]
  | h + 1, l => l :: treeLevels ident h (treeUp ident (2 ^ (h + 1)) l)
def treeRoot (ident : List Byte) (h : Nat) (leaves : List (List Byte)) : List Byte :=
  ((treeLevels ident h leaves).getLast?.getD []).getD 0 []
/-- The authentication path of a leaf. -/
def treePath (ident : List Byte) (h leaf : Nat) (leaves : List (List Byte)) : List (List Byte) :=
  ((List.range h).zip (treeLevels ident h leaves)).map (fun (k, l) =>
    let i := leaf / 2 ^ k
    l.getD (if i % 2 = 0 then i + 1 else i - 1) [])
def lmsTypeOf (h : Nat) : Nat := 4 + h / 5
def lmsSign (seed ident : List Byte) (h leaf : Nat) (leaves : List (List Byte)) (rand msg : List Byte) : List Byte :=
  beBytes 4 leaf ++ otsSign seed ident leaf rand msg ++ beBytes 4 (lmsTypeOf h) ++ (treePath ident h leaf leaves).flatten
def lmsPublic (ident : List Byte) (h : Nat) (leaves : List (List Byte)) : List Byte :=
  beBytes 4 (lmsTypeOf h) ++ beBytes 4 4 ++ ident ++ treeRoot ident h leaves

/-! ### AES-256-GCM -/

/-- Multiplication in the field of AES. -/
def gmulAux : Nat → Nat → Nat → Nat
  | 0, _, _ => 0
  | n + 1, a, b =>
    let a2 := if a < 128 then 2 * a else (2 * a - 256) ^^^ 0x1B
    (if b % 2 = 1 then a else 0) ^^^ gmulAux n a2 (b / 2)
def gmul (a b : Nat) : Nat := gmulAux 8 a b
/-- The inverse, as the 254th power. -/
def ginv (a : Nat) : Nat :=
  let a2 := gmul a a
  let a4 := gmul a2 a2
  let a8 := gmul a4 a4
  let a16 := gmul a8 a8
  let a32 := gmul a16 a16
  let a64 := gmul a32 a32
  let a128 := gmul a64 a64
  gmul a128 (gmul a64 (gmul a32 (gmul a16 (gmul a8 (gmul a4 a2)))))
def rotl8 (n x : Nat) : Nat := (x * 2 ^ n) % 256 + x / 2 ^ (8 - n)
def sbox (x : Nat) : Nat :=
  let b := ginv x
  b ^^^ rotl8 1 b ^^^ rotl8 2 b ^^^ rotl8 3 b ^^^ rotl8 4 b ^^^ 0x63
def xorList (a b : List Nat) : List Nat := (a.zip b).map (fun p => p.1 ^^^ p.2)
/-- The key schedule of AES-256, newest word first: word i from the words before it. -/
def aesExpand : Nat → Nat → Nat → List (List Nat) → List (List Nat)
  | 0, _, _, ws => ws
  | n + 1, i, rcon, ws =>
    let t := ws.getD 0 []
    let t' := if i % 8 = 0 then xorList ((t.drop 1 ++ t.take 1).map sbox) [rcon, 0, 0, 0] else if i % 8 = 4 then t.map sbox else t
    aesExpand n (i + 1) (if i % 8 = 0 then gmul rcon 2 else rcon) (xorList (ws.getD 7 []) t' :: ws)
def aesKeys (key : List Nat) : List (List Nat) :=
  (aesExpand 52 8 1 ((List.range 8).map (fun i => (key.drop (4 * i)).take 4)).reverse).reverse
def aesRoundKey (ks : List (List Nat)) (r : Nat) : List Nat := ((ks.drop (4 * r)).take 4).flatten
def aesShift (st : List Nat) : List Nat := (List.range 16).map (fun i => st.getD ((i + 4 * (i % 4)) % 16) 0)
def aesMix (st : List Nat) : List Nat :=
  (List.range 16).map (fun i =>
    let c := i / 4 * 4
    let g := fun k => st.getD (c + (i + k) % 4) 0
    gmul (g 0) 2 ^^^ gmul (g 1) 3 ^^^ g 2 ^^^ g 3)
def aesRounds (ks : List (List Nat)) : Nat → List Nat → List Nat
  | 0, st => st
  | n + 1, st => aesRounds ks n (xorList (aesMix (aesShift (st.map sbox))) (aesRoundKey ks (13 - n)))
def aesBlock (ks : List (List Nat)) (block : List Nat) : List Nat :=
  let st := aesRounds ks 13 (xorList block (aesRoundKey ks 0))
  xorList (aesShift (st.map sbox)) (aesRoundKey ks 14)
def natBytes (bs : List Byte) : List Nat := bs.map (fun b => b.toNat)
def byteList (l : List Nat) : List Byte := l.map (BitVec.ofNat 8)
/-- Multiplication in the field of GHASH, on 128-bit numbers whose first bit is the most significant. -/
def ghashMulAux : Nat → Nat → Nat → Nat → Nat
  | 0, _, _, z => z
  | n + 1, x, v, z => ghashMulAux n x (if v % 2 = 1 then (v / 2) ^^^ (0xE1 * 2 ^ 120) else v / 2) (if x.testBit n then z ^^^ v else z)
def ghashMul (x y : Nat) : Nat := ghashMulAux 128 x y 0
def pad16 (bs : List Byte) : List Byte := bs ++ List.replicate ((16 - bs.length % 16) % 16) 0#8
def ghash (h : Nat) : Nat → List Byte → Nat → Nat
  | 0, _, y => y
  | n + 1, bs, y => ghash h n (bs.drop 16) (ghashMul (y ^^^ beNat (bs.take 16)) h)
/-- Counter-mode key stream from a block counter. -/
def gcmStream (ks : List (List Nat)) (iv : List Byte) : Nat → Nat → List Byte
  | 0, _ => []
  | n + 1, c => byteList (aesBlock ks (natBytes (iv ++ beBytes 4 c))) ++ gcmStream ks iv n (c + 1)
/-- Decrypt: the plaintext, or none when the tag fails. -/
def gcmOpen (key iv aad ct tag : List Byte) : Option (List Byte) :=
  let ks := aesKeys (natBytes key)
  let h := beNat (byteList (aesBlock ks (List.replicate 16 0)))
  let data := pad16 aad ++ pad16 ct ++ beBytes 8 (8 * aad.length) ++ beBytes 8 (8 * ct.length)
  let s := ghash h (data.length / 16) data 0
  let t := s ^^^ beNat (byteList (aesBlock ks (natBytes (iv ++ beBytes 4 1))))
  if beNat tag = t then some (((ct.zip (gcmStream ks iv ((ct.length + 15) / 16) 2))).map (fun p => p.1 ^^^ p.2)) else none

end Sys2Proof.Machine
end

