-- ==== Sys2Proof/Machine/SecOps.lean ====
section
/-! DEFINITION. The security block: OTP (R392 to R396), confidential regions (R401), random values (R399), debug sessions
(R408 to R413), attestation (R403 to R407) and retirement (R415). -/

namespace Sys2Proof.Machine

def State.setSec (s : State) (x : Security) : State := { s with sec := x }

/-! ### OTP (R392, R394) -/

def State.otpByte (s : State) (a : Nat) : Nat := (SMap.get zeroByte s.sec.otp a).toNat
def State.otpBytes (s : State) (a n : Nat) : List Byte := (List.range n).map (fun i => SMap.get zeroByte s.sec.otp (a + i))
/-- Some bit of a field is blown. -/
def State.anyBlown (s : State) (a n : Nat) : Bool := s.sec.otp.any (fun c => decide (a ≤ c.1) && decide (c.1 < a + n))
/-- A stage or policy byte is set: 5 of its 8 bits read blown. -/
def State.majority (s : State) (a : Nat) : Bool := decide (5 ≤ countBits (s.otpByte a) 8)
def State.lcOfOtp (s : State) : Nat :=
  if s.majority 0x302 then 3 else if s.majority 0x301 then 2 else if s.majority 0x300 then 1 else 0
/-- The lifecycle state in force, as read at the last cold reset or RETIRE. -/
def State.lc (s : State) : Nat := s.getF F.SEC_STATUS_LC
def State.noD2 (s : State) : Bool := s.majority 0x304
def State.noD1 (s : State) : Bool := s.majority 0x305
def State.certInOpen (s : State) : Bool := s.majority 0x306
def State.uid (s : State) : List Byte := s.otpBytes 0x40 16
def State.pkh (s : State) (k : Nat) : List Byte := s.otpBytes (0x200 + 32 * k) 32
def State.aesKey (s : State) (k : Nat) : List Byte := s.otpBytes (0x280 + 32 * k) 32
def State.provisioned (s : State) : Bool := s.anyBlown 0x50 32
/-- Counter bits blown (R405). -/
def State.usedLeaves (s : State) : Nat :=
  s.sec.otp.foldl (fun n c => if 0x1000 ≤ c.1 ∧ c.1 < 0x2000 then n + countBits c.2.toNat 8 else n) 0
/-- Blow bits of a byte. -/
def State.blowByte (s : State) (a v : Nat) : State :=
  s.setSec { s.sec with otp := SMap.set zeroByte s.sec.otp a (BitVec.ofNat 8 (s.otpByte a ||| v)) }
def blowBytes (a : Nat) : List Byte → State → State
  | [], s => s
  | b :: r, s => blowBytes (a + 1) r (s.blowByte a b.toNat)
/-- An open debug session, within its duration (R412). -/
def State.debugNow (s : State) : Option DebugSession :=
  match s.sec.debug with
  | some d => (match d.ends with | some e => if s.now < e then some d else none | none => some d)
  | none => none
def State.debugLevel (s : State) : Nat := match s.debugNow with | some d => d.level | none => 0
/-- Permission bit of a D2 session. -/
def State.debugPerm (s : State) (b : Nat) : Bool := match s.debugNow with | some d => decide (2 ≤ d.level) && d.perms.testBit b | none => false
/-- Customer keys are unusable: a D2 session is open in SECURED (R413). -/
def State.keysOff (s : State) : Bool := s.lc == 2 && s.debugLevel == 2
def nonceReg (n : List Byte) (i : Nat) : Word32 := BitVec.ofNat 32 (leNat ((n.drop (4 * i)).take 4))
def putNonce (n : List Byte) : Nat → State → State
  | 0, s => s
  | i + 1, s => putNonce n i (s.setReg (R.SEC_NONCE_i i) (nonceReg n i))
/-- The SEC registers follow the state of the block. -/
def State.refreshSec (s : State) : State :=
  let bits := fun (f : Nat → Bool) => ((List.range 4).map (fun k => if f k then 2 ^ k else 0)).foldl (· + ·) 0
  let s := s.setF F.SEC_STATUS_PROV s.provisioned.toNat
  let s := s.setF F.SEC_STATUS_CONF (!s.sec.conf.isEmpty).toNat
  let s := s.setF F.SEC_STATUS_KEYS_OFF s.keysOff.toNat
  let s := s.setF F.SEC_STATUS_PKH (bits (fun k => s.anyBlown (0x200 + 32 * k) 32))
  let s := s.setF F.SEC_STATUS_AESK (bits (fun k => s.anyBlown (0x280 + 32 * k) 32))
  let s := (s.setF F.SEC_CONF_COUNT s.sec.conf.length).setF F.SEC_ATT_USED s.usedLeaves
  let s := s.setF F.SEC_ATT_SES_LEFT (match s.sec.att with | some a => 32 - a.leaf | none => 0)
  let s := putNonce (s.sec.nonce.getD (List.replicate 32 0#8)) 8 s
  let s := s.setF F.SEC_DEBUG_NONCE s.sec.nonce.isSome.toNat
  match s.sec.debug with
  | some d => (((s.setF F.SEC_DEBUG_LEVEL d.level).setF F.SEC_DEBUG_CERT d.cert.toNat).setF F.SEC_DEBUG_PERMS d.perms).setF F.SEC_DEBUG_KEY d.key
  | none => (((s.setF F.SEC_DEBUG_LEVEL 0).setF F.SEC_DEBUG_CERT 0).setF F.SEC_DEBUG_PERMS 0).setF F.SEC_DEBUG_KEY 0

/-- Random bytes of the DRBG: free values. -/
def State.drbg (s : State) (n : Nat) : List Byte := (List.range n).map (fun j => BitVec.ofNat 8 (Config.freeValue s.freeIdx j))

/-- A word of OTP as the host reads it: secret and reserved fields read zero (R394, R395). -/
def otpHidden (a : Nat) : Bool :=
  (decide (0x70 ≤ a) && decide (a < 0x200)) || (decide (0x280 ≤ a) && decide (a < 0x300)) || (decide (0x308 ≤ a) && decide (a < 0x1000))
def State.otpRead (s : State) (a : Nat) : Nat := if otpHidden a then 0 else leNat (s.otpBytes a 4)
/-- The host may program the bits of a word in the present state (R393, R394). -/
def State.otpAllowed (s : State) (a data : Nat) : Bool :=
  (s.lc == 0 && decide (a < 0x70)) ||
  (s.lc == 0 && a == 0x300 && data &&& 0xFFFFFF00 == 0) ||
  (s.lc == 1 && decide (0x200 ≤ a) && decide (a < 0x300)) ||
  (s.lc == 1 && a == 0x304 && data &&& 0xFF000000 == 0) ||
  (s.lc == 1 && a == 0x300 && data &&& 0xFFFF00FF == 0 && s.anyBlown 0x200 128)
/-- The error code a PROGRAM of a word is refused with, 0 when it runs (R395). -/
def State.otpRefusal (s : State) (a data : Nat) : Nat :=
  if !s.otpAllowed a data then 1
  else if a != 0x300 && a != 0x304 && s.anyBlown a 4 then 2
  else if !s.flag F.SEC_STATUS_FUSE_PWR then 3
  else 0
/-- An OTP program ends with a code: it is recorded. -/
def State.otpEnd (s : State) (err : Nat) : State :=
  let s := (s.setF F.SEC_OTP_CMD_BUSY 0).setF F.SEC_OTP_CMD_ERR err
  ((s.setSec { s.sec with otpCmd := none }).record 0x01 err).refreshSec
/-- SEC_OTP_ registers take host writes in VENDOR_TEST and OPEN while no command is in progress (R420). -/
def State.otpOpen (s : State) : Bool := decide (s.lc < 2) && !s.flag F.SEC_OTP_CMD_BUSY
def State.otpClosed (s : State) : State := if s.lc < 2 then s else s.recordNoEffect R.SEC_OTP_CMD
/-- SEC_OTP_READ: the host writes READ to SEC_OTP_CMD. -/
def execSecOtpRead (s : State) : Host.Outcome State Fault Refusal :=
  .next (if s.otpOpen then
      (s.setReg R.SEC_OTP_DATA (BitVec.ofNat 32 (s.otpRead (s.getF F.SEC_OTP_ADDR_WORD * 4)))).setF F.SEC_OTP_CMD_ERR 0
    else s.otpClosed)
/-- SEC_OTP_PROGRAM: a program is refused, or begins. -/
def execSecOtpProgram (s : State) : Host.Outcome State Fault Refusal :=
  let a := s.getF F.SEC_OTP_ADDR_WORD * 4
  let data := (s.reg R.SEC_OTP_DATA).toNat
  .next (if !s.otpOpen then s.otpClosed
    else if s.otpRefusal a data ≠ 0 then s.otpEnd (s.otpRefusal a data)
    else (s.setSec { s.sec with otpCmd := some (2, a, data) }).setF F.SEC_OTP_CMD_BUSY 1)
/-- SEC_OTP_GENSECRET: in VENDOR_TEST only, on an unprogrammed field, with fuse power and a passing entropy source. -/
def execSecOtpGensecret (s : State) : Host.Outcome State Fault Refusal :=
  .next (if !s.otpOpen then s.otpClosed
    else if s.lc ≠ 0 then s.otpEnd 1
    else if s.anyBlown 0x100 32 then s.otpEnd 2
    else if !s.flag F.SEC_STATUS_FUSE_PWR then s.otpEnd 3
    else if !s.flag F.SEC_STATUS_RNG_OK then s.otpEnd 5
    else (s.setSec { s.sec with otpCmd := some (3, 0x100, 0) }).setF F.SEC_OTP_CMD_BUSY 1)
/-- Bits of a number cleared where a list names them. -/
def clearBits (v : Nat) : List Nat → Nat
  | [] => v
  | b :: r => clearBits (if v.testBit b then v - 2 ^ b else v) r
/-- OTP_COMMAND_COMPLETE: the program or generate in progress has read back at margin; `unblown` and `weak` name bits of the word
that did not blow, or that fail the margin read (code 4). -/
def execOtpCommandComplete (unblown weak : List Nat) (s : State) : Host.Outcome State Fault Refusal :=
  .next (match s.sec.otpCmd with
    | some (2, a, data) =>
      let bad := weak.filter (fun b => decide (b < 32) && data.testBit b)
      let lost := unblown.filter (fun b => decide (b < 32) && data.testBit b)
      let s := blowBytes a (leBytes 4 (clearBits data lost)) s
      let s := s.setSec { s.sec with weak := s.sec.weak ++ bad.map (fun b => a * 8 + b) }
      let s := if s.lc = 1 ∧ s.majority 0x301 then s.setF F.SEC_STATUS_LC_PEND 1 else s
      s.otpEnd (if bad.isEmpty && lost.isEmpty then 0 else 4)
    | some (_, a, _) =>
      let secret := s.drbg 32
      let s := blowBytes a secret s.drawFree
      s.otpEnd (if weak.isEmpty && unblown.isEmpty then 0 else 4)
    | none => s)

/-! ### Entropy (R399) -/

/-- RNG_TEST_FAIL: a health test fails; recorded. -/
def execRngTestFail (s : State) : Host.Outcome State Fault Refusal := .next ((s.setF F.SEC_STATUS_RNG_OK 0).record 0x01 0)
/-- RNG_TEST_PASS: a later test passes. -/
def execRngTestPass (s : State) : Host.Outcome State Fault Refusal := .next (s.setF F.SEC_STATUS_RNG_OK 1)

/-! ### Confidential regions (R401, R417, R418) -/

/-- An interval of device addresses meets a confidential region. -/
def State.confMeets (s : State) (a len : Nat) : Bool :=
  s.sec.conf.any (fun r => decide (a < r.1 + r.2) && decide (r.1 < a + len))
def zeroRegions : List (Nat × Nat) → State → State
  | [], s => s
  | (a, n) :: r, s => zeroRegions r (s.writeDev a (List.replicate n 0#8))
/-- Zeroise regions and take them off the list. -/
def State.dropConf (s : State) (l : List (Nat × Nat)) : State :=
  let s := zeroRegions l s
  (s.setSec { s.sec with conf := s.sec.conf.filter (fun r => !l.contains r) }).refreshSec

/-! ### Debug sessions (R409 to R412) -/

/-- A session ends: DBG_CTRL returns to its reset value, and halted cores resume at the next turn boundary. -/
def State.endDebug (s : State) : State :=
  match s.sec.debug with
  | none => s
  | some d => (((s.setSec { s.sec with debug := none }).setReg R.DBG_CTRL 0#32).record 0x01 d.level).refreshSec
/-- Cores that DBG_CTRL no longer halts issue again at a turn boundary. -/
def resumeHalted : Nat → State → State
  | 0, s => s
  | n + 1, s =>
    let s := resumeHalted n s
    if (s.vcore n).dbgHalted && !(s.getF F.DBG_CTRL_HALT).testBit n then
      (s.setVcore n { s.vcore n with dbgHalted := false, dbgStep := false }).setF F.DBG_STATUS_HALTED
        (clearBits (s.getF F.DBG_STATUS_HALTED) [n])
    else s
/-- Levels a lifecycle state allows; whether a certificate is needed. -/
def State.levelAllowed (s : State) (level : Nat) : Bool :=
  match s.lc with
  | 0 => true
  | 1 => decide (level ≤ 2)
  | 2 => (level == 1 && !s.noD1) || (level == 2 && !s.noD2)
  | _ => true
def State.certNeeded (s : State) : Bool := s.lc == 2 || (s.lc == 1 && s.certInOpen)
/-- The parts of a certificate (R410). -/
def certKind (c : List Byte) : Nat := fieldAt c 6 1
def certKey (c : List Byte) : Nat := fieldAt c 7 1
def certPubLen (c : List Byte) : Nat := fieldAt c 128 4
def certPub (c : List Byte) : List Byte := (c.drop 132).take (certPubLen c)
def certSigLen (c : List Byte) : Nat := fieldAt c (132 + certPubLen c) 4
def certSig (c : List Byte) : List Byte := (c.drop (136 + certPubLen c)).take (certSigLen c)
/-- Step 1 of R411, but for the kind. -/
def certOk (c : List Byte) : Bool :=
  decide (136 ≤ c.length) && c.length == 136 + certPubLen c + certSigLen c && fieldAt c 0 4 == 0x4344474E && fieldAt c 4 2 == 1 &&
  decide (certKey c < 4) && bitsOf (fieldAt c 0x38 4) 31 6 == 0 && (certKind c == 2 || fieldAt c 0x38 4 == 0) && fieldAt c 0x50 48 == 0
/-- Step 5 of R411. -/
def State.certAddressed (s : State) (c : List Byte) : Bool :=
  (c.drop 8).take 16 == s.uid && s.sec.nonce == some ((c.drop 0x18).take 32)
/-- Step 6 of R411. -/
def State.certSigned (s : State) (c : List Byte) : Bool :=
  let k := certKey c
  s.anyBlown (0x200 + 32 * k) 32 && sha256 (certPub c) == s.pkh k && hssVerify (certPub c) (c.take 128) (certSig c)
/-- The code of an unlock, by the order of R411. -/
def State.unlockCode (s : State) (level : Nat) (cert : Option (List Byte)) : Code :=
  firstCode
    [(level == 0 || (match cert with | some c => !certOk c || certKind c != level || level == 3 | none => s.certNeeded), ccFormat),
     (!s.levelAllowed level, ccDenied), (s.debugNow.isSome, ccState), (level == 2 && s.lc == 2 && !s.sec.conf.isEmpty, ccState),
     (match cert with | some c => !s.certAddressed c | none => false, ccDenied),
     (match cert with | some c => !s.certSigned c | none => false, ccSignature)]
/-- The session an unlock opens. -/
def State.newSession (s : State) (level : Nat) (cert : Option (List Byte)) : DebugSession :=
  match cert with
  | some c =>
    let d := fieldAt c 0x3C 4
    ⟨level, true, fieldAt c 0x38 4 % 64, certKey c, fieldAt c 0x40 8, fieldAt c 0x48 8, if d = 0 then none else some (s.now + d * 1000000000)⟩
  | none => ⟨level, false, if 2 ≤ level then 63 else 0, 0, 0, 2 ^ 64, none⟩
def State.unlock (s : State) (level : Nat) (cert : Option (List Byte)) : State × Code :=
  let code := s.unlockCode level cert
  let t := if cert.isSome then s.setSec { s.sec with nonce := none } else s
  if code = ccOk then (((t.setSec { t.sec with debug := some (s.newSession level cert) }).record 0x01 level).refreshSec, ccOk)
  else (t.refreshSec, code)
/-- DEBUG_SESSION_EXPIRY: the duration of the open session ends (R412). -/
def execDebugSessionExpiry (s : State) : Host.Outcome State Fault Refusal :=
  .next (match s.sec.debug with
    | some d => (match d.ends with | some e => { s with now := max s.now e }.endDebug | none => s)
    | none => s)

/-! ### Attestation (R403 to R407) -/

def State.topSeed (s : State) : List Byte :=
  hmac (s.otpBytes 0x100 32) ("NG5120-ATT-SEED".toList.map (fun c => BitVec.ofNat 8 c.toNat) ++ s.uid)
def State.topIdent (s : State) : List Byte :=
  (hmac (s.otpBytes 0x100 32) ("NG5120-ATT-ID".toList.map (fun c => BitVec.ofNat 8 c.toNat) ++ s.uid)).take 16
/-- Length of the HSS signature at the front of a list, by its typecodes. -/
def lmsSpan (sig : List Byte) : Nat :=
  match otsParams (beNat ((sig.drop 4).take 4)) with
  | some (_, p, _) => (match lmsHeight (beNat ((sig.drop (8 + 32 * (p + 1))).take 4)) with | some h => lmsSigLen p h | none => 0)
  | none => 0
def hssSpanAux : Nat → List Byte → Nat
  | 0, sig => lmsSpan sig
  | n + 1, sig => lmsSpan sig + 56 + hssSpanAux n (sig.drop (lmsSpan sig + 56))
def hssSpan (sig : List Byte) : Nat := 4 + hssSpanAux (min 2 (beNat (sig.take 4))) (sig.drop 4)
def leafCacheFixed : Nat := 128 + 32 * 32768
/-- The vendor certificate of a leaf cache. -/
def cacheCert (c : List Byte) : List Byte := (c.drop leafCacheFixed).take (0x60 + hssSpan (c.drop (leafCacheFixed + 0x60)))
def cacheLeaves (c : List Byte) : List (List Byte) := chunks32 32768 (c.drop 128)
/-- R404: the cache passes: header, tree against the certificate, certificate against VCERT_HASH. -/
def State.cacheOk (s : State) (c : List Byte) : Bool :=
  fieldAt c 0 4 == 0x434C474E && fieldAt c 4 4 == 1 && (c.drop 8).take 16 == s.uid && zeroBytes ((c.drop 24).take 104) &&
  treeRoot s.topIdent 15 (cacheLeaves c) == ((cacheCert c).drop 0x34).take 32 && sha256 (cacheCert c) == s.otpBytes 0x50 32
/-- The leaf cache that PROVISION writes, with the certificate it is given. -/
def State.leafCache (s : State) (cert : List Byte) : List Byte :=
  leBytes 4 0x434C474E ++ leBytes 4 1 ++ s.uid ++ List.replicate 104 0#8 ++ (treeLeaves s.topSeed s.topIdent 15).flatten ++ cert
/-- Boot flash bytes, and the flash directory's entries: 0 boot image, 1 leaf cache, 2 ledger area; 0 where absent (R434). -/
def State.flashBytes (s : State) (a n : Nat) : List Byte := (List.range n).map (fun i => SMap.get (fun _ => 0xFF#8) s.flash.bytes (a + i))
def putFlash : List Byte → Nat → State → State
  | [], _, s => s
  | b :: r, a, s => putFlash r (a + 1) { s with flash := { s.flash with bytes := SMap.set (fun _ => 0xFF#8) s.flash.bytes a b } }
def State.flashDir (s : State) (i : Nat) : Nat :=
  let d := s.flashBytes 0 32
  if s.flash.fitted && fieldAt d 0 4 == 0x4446474E && fieldAt d 4 4 == 1 then fieldAt d (8 + 8 * i) 8 else 0
/-- The most bytes a leaf cache with its certificate takes. -/
def cacheMost : Nat := leafCacheFixed + 0x60 + 30000
/-- The 192 bytes of a report (R407). -/
def State.report (s : State) (req : List Byte) (a : AttSession) : List Byte :=
  let claims := fieldAt req 32 4
  let put := fun (b : Nat) (l : List Byte) => if claims.testBit b then l else List.replicate l.length 0#8
  let lvl := s.debugLevel
  let flags := (if lvl = 0 then 0 else 1) + (if s.keysOff then 2 else 0) + (if s.sec.conf.isEmpty then 0 else 4) + (if a.hostCache then 8 else 0)
  let bundle := s.seq.bundle
  leBytes 4 0x5441474E ++ leBytes 2 1 ++ leBytes 2 claims ++ req.take 32 ++ s.uid ++ leBytes 4 (s.reg R.SYS_ID).toNat ++
  leBytes 1 s.lc ++ leBytes 1 lvl ++ leBytes 1 flags ++ leBytes 1 0 ++ leBytes 4 a.top ++ leBytes 1 a.leaf ++ leBytes 3 0 ++
  put 0 (leBytes 8 s.leadRound) ++
  put 1 ((match bundle with | some b => b.hash | none => List.replicate 32 0#8) ++ leBytes 8 (match bundle with | some b => b.ident | none => 0)) ++
  put 2 (match bundle with | some b => (sha256 (leBytes 8 b.runSeed ++ leBytes 8 b.adaptSeed)).take 8 | none => leBytes 8 0) ++
  put 3 (leBytes 4 (s.capWord 0) ++ leBytes 4 (s.capWord 1) ++ leBytes 4 (s.capWord 2) ++ leBytes 4 (s.capWord 3) ++ leBytes 4 (s.reg R.HUB_CAPGEN).toNat) ++
  put 4 (leBytes 4 (s.reg R.FAB_COORD).toNat) ++ put 5 (leBytes 4 (s.reg R.TT_ADP_STEP).toNat) ++
  leBytes 4 (32768 - s.usedLeaves) ++ (List.range 32).map (fun i => BitVec.ofNat 8 (Config.partValue 3 i))
/-- Blow counter bits: `fails` bits that fail are counted as used, at most four bits for one ATTEST; the leaf that verified. -/
def State.blowLeaf (s : State) (fails : Nat) : State × Option Nat :=
  let q := s.usedLeaves
  let n := min 4 (fails + 1)
  let s := (List.range n).foldl (fun s i => s.blowByte (0x1000 + (q + i) / 8) (2 ^ ((q + i) % 8))) s
  (s, if fails < 4 then some (q + fails) else none)
/-- A session opens with a top leaf (R405, R406): its tree from the DRBG, its public key signed by the top leaf. -/
def State.openAttest (s : State) (top : Nat) (cache : List Byte) (fromHost : Bool) : State :=
  let seed := s.drbg 32
  let s := s.drawFree
  let ident := s.drbg 16
  let s := s.drawFree
  let rand := s.drbg 32
  let s := s.drawFree
  let pub := lmsPublic ident 5 (treeLeaves seed ident 5)
  let sig := lmsSign s.topSeed s.topIdent 15 top (cacheLeaves cache) rand pub
  s.setSec { s.sec with att := some ⟨top, 0, seed, ident, sig, fromHost⟩ }
/-- The report with its signature, and the state after its leaf is used (R406, R407). -/
def State.signReport (s : State) (req : List Byte) (a : AttSession) : List Byte × State :=
  let body := s.report req a
  let leaves := treeLeaves a.seed a.ident 5
  let rand := s.drbg 32
  let sig := beBytes 4 1 ++ a.topSig ++ lmsPublic a.ident 5 leaves ++ lmsSign a.seed a.ident 5 a.leaf leaves rand body
  let s := s.drawFree
  (body ++ sig, (s.setSec { s.sec with att := if a.leaf < 31 then some { a with leaf := a.leaf + 1 } else none }).refreshSec)
/-- An attestation session closes. -/
def State.closeAttest (s : State) : State := (s.setSec { s.sec with att := none }).refreshSec

/-! ### Retirement (R396, R415) -/

/-- Every bit of the customer keys, the device secret and the key hashes is programmed. -/
def State.eraseKeys (s : State) : State :=
  let ones := fun n => List.replicate n 0xFF#8
  blowBytes 0x100 (ones 32) (blowBytes 0x200 (ones 256) s)
/-- Steps 1 to 4 of R415. -/
def State.retire (s : State) : State :=
  let s := (s.endDebug).closeAttest
  let s := (s.blowByte 0x302 0xFF).eraseKeys
  ((s.setF F.SEC_STATUS_LC s.lcOfOtp).record 0x01 0).refreshSec

end Sys2Proof.Machine
end

