-- ==== Sys2Proof/Machine/HostOps.lean ====
section
/-! DEFINITION. The command page (R372 to R377), completions (R379 to R381) and what the commands share: argument reads,
acceptance for due rounds, ready flags (R359). -/

namespace Sys2Proof.Machine

/-! ### Slots (R372, R373) -/

def State.pageBytes (s : State) (slot : Nat) : List Byte := (List.range 64).map (fun i => SMap.get zeroByte s.host.page (slot * 64 + i))
/-- A slot as a command. -/
def slotCmd (b : List Byte) (origin : Origin) : HostCmd :=
  { seq := fieldAt b 0 4, opcode := fieldAt b 4 1, flags := fieldAt b 5 1, vec := fieldAt b 6 1, due := fieldAt b 8 6, tag := fieldAt b 0x10 4,
    fenceK := fieldAt b 0x14 1, fenceValue := fieldAt b 0x18 4, args := (List.range 9).map (fun i => fieldAt b (0x1C + 4 * i) 4),
    bad := fieldAt b 7 1 != 0 || fieldAt b 0xE 2 != 0 || fieldAt b 0x15 3 != 0 || decide (63 < fieldAt b 0x14 1), origin := origin }
def HostCmd.isDue (c : HostCmd) : Bool := c.flags.testBit 0
def HostCmd.isWall (c : HostCmd) : Bool := c.flags.testBit 1
def HostCmd.arg (c : HostCmd) (i : Nat) : Nat := c.args.getD i 0
/-- What R383 says of due rounds for a command: preparation lead, required, WALL accepted; none where they are not allowed. -/
def HostCmd.dueRule (c : HostCmd) : Option (Nat × Bool × Bool) :=
  match c.opcode with
  | 0x04 => some (0, false, true)
  | 0x05 => some (2, true, true)
  | 0x06 => some (0, true, true)
  | 0x07 => some (2, false, true)
  | 0x0E => some (0, adSub c == 3, decide (1 ≤ adSub c) && decide (adSub c ≤ 4))
  | 0x0F => some (1, false, true)
  | 0x10 => some (1, false, false)
  | 0x19 => if c.arg 0 = 1 then some (2, false, false) else none
  | 0x1A => some (1, false, false)
  | _ => none
/-- A sub-command, state or kind in A0 that its command does not have, or a bit of A0 that it does not name. -/
def HostCmd.subBad (c : HostCmd) : Bool :=
  let a := c.arg 0
  match c.opcode with
  | 0x01 => decide (2 ^ 16 ≤ a)
  | 0x0D => decide (1 < a)
  | 0x0E => adSub c == 0 || decide (7 < adSub c) || adaptBad c
  | 0x10 => a &&& 0xFFFFFEFC != 0 || (!a.testBit 8 && a % 4 == 3)
  | 0x15 => a &&& 0x7FFFFFFC != 0
  | 0x19 => decide (1 < a)
  | _ => false
/-- The slot checks of R375: opcode, reserved fields, flags the opcode does not accept. -/
def HostCmd.malformed (c : HostCmd) : Bool :=
  c.bad || c.subBad || c.opcode == 0 || decide (0x1B < c.opcode) || decide (15 < c.flags) || (c.flags.testBit 2 && decide (15 < c.vec)) ||
  (match c.dueRule with
   | some (_, required, wall) => (required && !c.isDue) || (c.isWall && !(wall && c.isDue))
   | none => c.isDue || c.isWall)
/-- Commands that STANDBY accepts (R423). -/
def HostCmd.standby (c : HostCmd) : Bool := [0x01, 0x02, 0x10, 0x11, 0x1A, 0x1B].contains c.opcode || (c.opcode == 0x0D && c.arg 0 % 4 == 1)
/-- The gates on a command: HELLO's (R375), STANDBY's (R423), and that of a boot that found no die-link module (R433). -/
def State.gated (s : State) (c : HostCmd) : Bool :=
  (!s.flag F.CMD_LEVEL_AGREED && c.opcode != 1 && c.opcode != 2 && c.origin != .boot && c.origin != .gone) ||
  (s.getF F.PWR_STATE_STATE == 2 && !c.standby) || (s.getF F.PWR_BOOT_ERR == 1 && !([0x01, 0x11, 0x10].contains c.opcode))
def State.setTaken (s : State) (l : List HostCmd) : State := { s with host := { s.host with taken := l } }
/-- Commands at the front of the taken ones that are malformed or gated complete at once. -/
def settleAux : Nat → State → State
  | 0, s => s
  | n + 1, s =>
    match s.host.taken with
    | [] => s
    | c :: r =>
      if c.malformed then settleAux n ((s.setTaken r).complete c ccFormat)
      else if s.gated c then settleAux n ((s.setTaken r).complete c ccState)
      else s
def State.settle (s : State) : State := settleAux s.host.taken.length s
/-- Process the front command if it is the one a row names: otherwise nothing happens. -/
def State.withCmd (s : State) (op : Nat) (sub : HostCmd → Bool) (f : HostCmd → State → State) : State :=
  match s.host.taken with
  | c :: r => if c.opcode = op ∧ sub c = true then (f c (s.setTaken r)).settle else s
  | [] => s

/-! ### Poll points (R373 to R376) -/

/-- The lowest lead-domain round that has not begun, or begins in this tick. -/
def State.firstRound (s : State) : Nat :=
  let d := s.dom s.leadDom
  if !d.run then d.nextRound
  else if d.start = s.now then d.round
  else d.round + 1
def State.accept (s : State) (c : HostCmd) : State := s.setTaken (s.host.taken ++ [{ c with accepted := s.now, first := s.firstRound }])
def nextSeq (q : Nat) : Nat := if q = 0xFFFFFF00 then 1 else q + 1
/-- Take written slots in order. -/
def takeSlots : Nat → State → State
  | 0, s => s
  | n + 1, s =>
    let q := (s.reg R.CMD_NEXT).toNat
    let c := slotCmd (s.pageBytes (q % 256)) .host
    if c.seq = q then takeSlots n ((s.accept c).setReg R.CMD_NEXT (BitVec.ofNat 32 (nextSeq q))) else s
/-- A completion record as bytes (R380). -/
def Cpl.bytes (c : Cpl) : List Byte :=
  leBytes 4 c.seq ++ leBytes 1 c.opcode ++ leBytes 1 c.code ++ leBytes 1 c.flags ++ [0#8] ++ leBytes 4 c.tag ++ leBytes 2 c.detail ++
  leBytes 2 0 ++ leBytes 8 c.round ++ leBytes 8 c.result
/-- Send a completion flit (R347). -/
def State.sendCpl (s : State) (x y : Nat) (c : Cpl) : State := s.sendFlit (s.ownFlit 2 0x0C x y 0 (c.bytes ++ List.replicate 32 0#8))
/-- Take the slots that arrived in command flits: a completion flit of FABRIC_FORWARD says that the slot is taken (R376). -/
def takeFlits : List HostCmd → State → State
  | [], s => s
  | c :: r, s =>
    takeFlits r (match c.origin with
      | .fabric x y tag => (s.accept c).sendCpl x y ⟨0, 0x1B, ccOk, 1, tag, 0, s.leadRound, 0, none, c.origin⟩
      | _ => s.accept c)
/-- COMMAND_POLL: a poll point of the HCC. -/
def execCommandPoll (s : State) : Host.Outcome State Fault Refusal :=
  .next (if s.flag F.CMD_CTRL_EN then
      let s := takeSlots 256 s
      let l := s.host.flitSlots
      (takeFlits l { s with host := { s.host with flitSlots := [] } }).settle
    else s)

/-! ### Completions (R381) -/

/-- The two words of a 64-bit host address. -/
def State.addr64 (s : State) (lo hi mask : Nat) : Nat := ((s.reg lo).toNat &&& mask) + (s.reg hi).toNat * 2 ^ 32
/-- Host addresses of the completion ring and of the count word (R381). -/
def State.cplAddr (s : State) : Nat := s.addr64 R.CMD_CPL_LO R.CMD_CPL_HI 0xFFFFF000
def State.cntAddr (s : State) : Nat := s.addr64 R.CMD_CNT_LO R.CMD_CNT_HI 0xFFFFFFF8
/-- COMPLETION_WRITE: the oldest waiting record is written, if the ring has room, the function is not in D3 and, where the ring is in
use, the part may write host memory; the slot of a task record is free again (R235). -/
def execCompletionWrite (s : State) : Host.Outcome State Fault Refusal :=
  .next (match s.host.cpl with
    | [] => s
    | c :: r =>
      let s' := { s with host := { s.host with cpl := r } }
      let free := fun (s : State) => if c.flags.testBit 1 ∧ [8, 9, 11].contains (s.taskState c.detail) then s.clearSlot c.detail else s
      match c.origin with
      | .fabric x y _ => free (s'.sendCpl x y c)
      | _ =>
        let n := s.host.cplNext
        let en := s.flag F.CMD_CPL_LO_EN
        if 256 ≤ (n - 1 + 2 ^ 32 - (s.reg R.CMD_CPL_ACK).toNat) % 2 ^ 32 || s.flag F.PCI_STATUS_D3 || (en && !s.flag F.PCI_STATUS_BME) then s
        else
          let e := n % 256 * 32
          let s := { s' with host := { s'.host with mirror := putBytes s'.host.mirror e c.bytes, cplNext := n + 1 } }
          let s := if en then (s.putHost (s.cplAddr + e) c.bytes).putHost s.cntAddr (leBytes 8 n) else s
          let s := s.setReg R.CMD_CPL_WR (BitVec.ofNat 32 n)
          free (match c.vec with | some v => s.msix v | none => s))

/-! ### Arguments -/

/-- Read an argument: host memory, or the copy of the boot image for one of its commands (R434). None when the read fails (R367). -/
def State.readArg (s : State) (c : HostCmd) (io : Bool) (a len : Nat) : Option (List Byte) :=
  match c.origin, s.power.bootImage with
  | .boot, some (base, n) => if io || decide (n < a + len) then none else some (s.memBytes (base + a) len)
  | _, _ => if io || !s.flag F.PCI_STATUS_BME then none else some (s.hostBytes a len)
/-- Write host memory for a command; false when the function may not. -/
def State.writeArg (s : State) (c : HostCmd) (io : Bool) (a : Nat) (bs : List Byte) : State × Bool :=
  match c.origin, s.power.bootImage with
  | .boot, some (base, _) => if io then (s, false) else (s.putMem (base + a) bs, true)
  | _, _ => if io || !s.flag F.PCI_STATUS_BME then (s, false) else (s.putHost a bs, true)

/-! ### Due rounds (R377) and wall commands (R359) -/

def State.setDue (s : State) (l : List DueCmd) : State := { s with host := { s.host with due := l } }.setF F.CMD_PEND_DUE l.length
/-- The bits of a ready flag for a round: a placed step that is ready, wall commands accepted. -/
def State.readyBits (s : State) (round : Nat) : Nat :=
  s.stepReady.toNat + (if s.host.due.any (fun d => d.round == round && d.cmd.isWall) then 2 else 0)
def State.noteReady (s : State) (dev round bits : Nat) : State :=
  { s with raster := { s.raster with fab := { s.raster.fab with ready := s.raster.fab.ready ++ [(dev, round, bits)] } } }
def State.ownDev (s : State) : Nat := s.ownY * 64 + s.ownX
/-- Tell the time source that this device is ready for a round. -/
def State.sendReady (s : State) (round : Nat) : State :=
  let bits := s.readyBits round
  if s.flag F.FAB_STATUS_ORIGIN then s.noteReady s.ownDev round bits
  else s.sendFlit (s.ownFlit 2 0x0E 0 0 0 (leBytes 6 round ++ leBytes 1 bits ++ List.replicate 57 0#8))
/-- The round at which a command takes effect: its due round, or the first for which it would not be late. -/
def State.dueRound (s : State) (c : HostCmd) (p : Nat) : Nat :=
  if c.isDue then c.due
  else
    let d := s.dom s.leadDom
    if d.run then max (c.first + p) (d.round + 1) else c.first + p
/-- A command was accepted in the start tick of a round that has begun in this tick: it ties with the boundary, and it is applied at that
round (R49, R51). A wall command's flag has come too late for the decision (R359). -/
def State.tiesBoundary (s : State) (c : HostCmd) (r : Nat) : Bool :=
  let d := s.dom s.leadDom
  c.isDue && !c.isWall && d.run && r == d.round && c.accepted == d.start && s.now == d.start
/-- A command that accepts a due round has passed its own checks: it waits for its round, or completes with the code of R377; with
no lead domain enabled an undue one takes effect at once. -/
def State.acceptDue (s : State) (c : HostCmd) (dom : Nat) (block : List Byte) (apply : State → State) : State :=
  let d := s.dom s.leadDom
  let p := match c.dueRule with | some (p, _, _) => p | none => 0
  if !d.on then (if c.isDue then s.complete c ccState else apply s)
  else
    let r := s.dueRound c p
    if c.isDue && decide ((if d.run then d.round else d.nextRound) + 2 ^ 24 < r) then s.complete c ccFormat
    else if r < c.first + p then s.complete c ccLate
    else if s.tiesBoundary c r then
      let s := apply s
      if s.adapt.commits ≠ [] then s.decideStep s.runRoundNow (if s.inWall then some false else none) else s
    else if d.run && decide (r ≤ d.round) then s.complete c ccLate
    else if 64 ≤ s.host.due.length then s.complete c ccNoSpace
    else
      let s := s.setDue (s.host.due ++ [⟨c, r, dom, block⟩])
      if c.isWall then s.sendReady r else s

/-- Background commands in progress, by bit of CMD_PEND.BG. -/
def bgBit (op : Nat) : Nat := match op with | 0x03 => 0 | 0x11 => 1 | 0x13 => 2 | 0x14 => 3 | 0x17 => 4 | _ => 5
def State.setBackground (s : State) (l : List HostCmd) : State :=
  { s with host := { s.host with background := l } }.setF F.CMD_PEND_BG (((l.map (fun (c : HostCmd) => 2 ^ bgBit c.opcode)).eraseDups).foldl (· + ·) 0)
def State.bgRuns (s : State) (op : Nat) : Bool := s.host.background.any (fun c => c.opcode == op)
def State.beginBackground (s : State) (c : HostCmd) : State := s.setBackground (s.host.background ++ [c])
/-- The background command of an opcode completes, if one runs. -/
def State.endBackground (s : State) (op code : Nat) (result : Nat := 0) : State :=
  match s.host.background.find? (fun (c : HostCmd) => c.opcode == op) with
  | some c => (s.setBackground (s.host.background.filter (fun (x : HostCmd) => x.opcode != op))).complete c code result
  | none => s

end Sys2Proof.Machine
end

