-- ==== Sys2Proof/Machine/BundleRun.lean ====
section
/-! DEFINITION. Loading, starting, stopping and unloading a bundle (R229, R230, R389, R390), clearing the line task at a round
boundary (R221), reselection of a move list (R32, R429). -/

namespace Sys2Proof.Machine

def State.setSeq (s : State) (q : Sequencer) : State := { s with seq := q }

/-! ### Clearing the line task (R221) -/

/-- Void every reserved slot of the line-task rings, counting each. -/
def clearRings : List LineRing → State → State
  | [], s => s
  | r :: l, s => clearRings l ((voidAll r.ring (s.ringUsed r.ring) s).bumpF F.TT_VOID_SLOTS (s.ringUsed r.ring))
/-- Empty the handle queues of the line task that hold anything. -/
def clearQueues : Nat → State → State
  | 0, s => s
  | q + 1, s =>
    let s := clearQueues q s
    if (s.hqOf q).isEmpty || !s.ownsQueue 0 q then s else s.emptyHq q
def State.clearLine (s : State) : State :=
  let s := clearQueues 256 (clearRings s.seq.list.rings s)
  { cancelMovers 0 16 s with rings := { (cancelMovers 0 16 s).rings with halo := [] } }

/-! ### Starting (R141, R158, R229) -/

/-- GRID_CTRL takes a write only while every unit is idle and no bundle is started, and quarter mode only lets go of it where the whole
grid is available (R90). -/
def State.writeGridCtrl (s : State) (quarter : Bool) : State :=
  if s.seq.started || !s.gridIdle then s.recordNoEffect R.GRID_CTRL
  else if !quarter && !s.flag F.HUB_CAP0_WHOLE then s
  else s.setGridMode quarter
/-- RASTER buckets of the movers (R141): at least the declared rate, in tokens of 64 bytes in 1,024 ticks, and 16 turns of depth; the
bucket of a mover for which the bundle declares no rate is not enforced (log 35). -/
def putBuckets (bytes : List Nat) (len : Nat) : Nat → State → State
  | 0, s => s
  | n + 1, s =>
    let s := putBuckets bytes len n s
    let t := ceilDiv (bytes.getD n 0) 64
    if t = 0 then s.setF (F.BWR_n_c_UNLIM n 0) 1
    else ((s.setF (F.BWR_n_c_UNLIM n 0) 0).setF (F.BWR_n_c_RATE n 0) (min 65535 (ceilDiv (t * 1024) (max 1 len)))).setF (F.BWR_n_c_DEPTH n 0) (min 32767 (16 * t))
/-- The first row of a ring, and the rows in use after it: a free choice within a region of the line task that holds the ring, clear of
the rings before it, and with room left for the rings of the slice after it. -/
def State.ringPlace (s : State) (used : SMap Nat) (r : LineRing) (rest : List LineRing) : Nat × SMap Nat :=
  let rows := fun (x : LineRing) => x.slots * x.size
  let first := fun i => max (((s.spadRegion 0 i).base + 511) / 512) (SMap.get (fun _ => 0) used i)
  match (List.range 4).find? (fun i =>
    (s.spadRegion 0 i).slice == r.slice && decide (first i + rows r ≤ (s.spadRegion 0 i).bound / 512)) with
  | some i =>
    let total := rows r + (rest.filter (fun x => x.slice == r.slice)).foldl (fun n x => n + rows x) 0
    let base := first i + Config.freeValue s.freeIdx r.ring % ((s.spadRegion 0 i).bound / 512 - (first i + total) + 1)
    (base, SMap.set (fun _ => 0) used i (base + rows r))
  | none => (Config.freeValue s.freeIdx r.ring % 8192, used)
/-- Enable the rings of a list (R134). -/
def putRings (used : SMap Nat) : List LineRing → State → State
  | [], s => s
  | r :: l, s =>
    let x := s.ringPlace used r l
    putRings x.2 l (s.writeRing r.ring (1 + x.1 * 2 + (r.size - 1) * 2 ^ 14 + (r.slots - 1) * 2 ^ 22 + r.slice * 2 ^ 28))
/-- Disable the rings of a list. -/
def dropRings : List LineRing → State → State
  | [], s => s
  | r :: l, s => dropRings l (if s.flag (F.QUE_RING_r_CFG_EN r.ring) then s.writeRing r.ring 0 else s)
/-- The line contexts' registers are zero and their loops clear (R158). -/
def State.zeroLineContexts (s : State) : State :=
  let batch := fun (k : Nat) => k / 32 % 2 == 1
  { s with yu := { s.yu with
      sreg := s.yu.sreg.filter (fun c => batch c.1), vreg := s.yu.vreg.filter (fun c => batch c.1),
      preg := s.yu.preg.filter (fun c => batch c.1), ctxs := s.yu.ctxs.filter (fun c => c.1 % 2 == 1)
      cores := s.yu.cores.map (fun c => (c.1, { c.2 with lineRun := false, lineStop := false, commit := [] })) } }
/-- The selected list in the move store. -/
def State.putList (s : State) (i : Nat) (l : MoveList) : State :=
  let s := ((s.setF F.TT_SEQ_STATUS_LIST i).setF F.TT_SEQ_STATUS_MOVES l.moves.length).setF F.TT_SEQ_BUDGET_DECL l.cd
  s.setSeq { s.seq with list := l, listIndex := i }
/-- The regions of the line task: slot 0 of the task table. -/
def State.putRegions (s : State) (m : List Byte) : State := s.putTable 0 0x10 (m.take 96)

/-- The first list whose requirement is met and which passes a check; else the code of the first whose requirement is met (R390). -/
def pickAux (req : List Nat → Bool) (check : MoveList → Bool → Code) : List (List Byte) → Nat → Option Code → Except Code (Nat × MoveList)
  | [], _, c => .error (c.getD ccCapability)
  | b :: r, i, c =>
    let p := parseList b
    if req p.1.reqCap then
      let k := check p.1 p.2
      if k = ccOk then .ok (i, p.1) else pickAux req check r (i + 1) (some (c.getD k))
    else pickAux req check r (i + 1) c
/-- The settings that stream blocks leave. -/
def State.putBlocks (s : State) (l : List (List Byte)) : State := l.foldl State.putBlock s
/-- The list of a bundle that START_AT or SET_CLOCK selects at the ACLK in force, with stream setups that the start takes (R228,
R429). -/
def State.selectStart (s : State) (b : Bundle) (setups : List (List Byte)) : Except Code (Nat × MoveList) :=
  let check := fun l ok =>
    firstCode [(s.checkLoad b.images (mapLineEnd b.regions) l ok != ccOk, s.checkLoad b.images (mapLineEnd b.regions) l ok),
      ((s.putBlocks setups).startRowsCode b.images b.domain l != ccOk, (s.putBlocks setups).startRowsCode b.images b.domain l)]
  pickAux s.capsMet check b.lists 0 none
/-- The bundle's stream setups, each checked with those before it in force; the code of the first that fails. -/
def setupsCode (l : MoveList) : List (List Byte) → State → Code
  | [], _ => ccOk
  | b :: r, s =>
    let s' := s.putBlock b
    let k := firstCode [(blockBad b, ccFormat), (s'.streamsCode (blkStream b) (some l) != ccOk, s'.streamsCode (blkStream b) (some l)),
      (s.cubeCode s' (blkStream b) != ccOk, s.cubeCode s' (blkStream b))]
    if k = ccOk then setupsCode l r s' else k
/-- The checks of START_AT, and the list it starts. -/
def State.startCheck (s : State) : Except Code (Bundle × Nat × MoveList) :=
  match s.seq.bundle with
  | none => .error ccState
  | some b =>
    if s.seq.started || s.leadDom != b.domain then .error ccState
    else match s.selectStart b b.setups with
      | .error k => .error k
      | .ok (i, l) =>
        let k := setupsCode l b.setups s
        if k = ccOk then .ok (b, i, l) else .error k
/-- Write the cube that a change of a stream needs from its volume image (R307). -/
def State.takeCube (s : State) (b : List Byte) : State :=
  let n := blkStream b
  let s' := s.putBlock b
  if s.cubeLoads s' n then
    match s'.cubeOf n with
    | some (first, stop) => (s.loadCube first (s'.getF (F.FIN_n_VIMG_BASE n) * 65536) (stop - first)).1
    | none => s
  else s
/-- The domain at whose boundary a block takes effect: its stream's, or the lead domain where that one does not run. -/
def State.blockDom (s : State) (b : List Byte) : Nat :=
  let d := (s.putBlock b).strDom (blkStream b)
  if (s.dom d).on then d else s.leadDom
/-- The cube and the hold buffer of a block are written (R299, R307), and the settings take effect, now or at a boundary of another domain
that runs (R273). -/
def State.setOrStage (s : State) (d : DueCmd) : State :=
  let m := s.blockDom d.block
  let s := (s.takeCube d.block).prepareHold d.block
  if m = s.leadDom then s.applyStream d.block else { s with raster := { s.raster with staged := s.raster.staged ++ [{ d with dom := m }] } }
/-- The stream setups of a bundle are applied as SET_STREAM commands. -/
def applySetups (c : HostCmd) (round : Nat) : List (List Byte) → State → State
  | [], s => s
  | b :: r, s => applySetups c round r (s.setOrStage ⟨c, round, 0, b⟩)
/-- START_AT takes effect at the boundary of its due round. -/
def State.applyStart (s : State) (c : HostCmd) : State :=
  match s.startCheck with
  | .error k => s.complete c k
  | .ok (b, i, l) =>
    let round := s.leadRound
    let s := (((dropRings s.seq.list.rings s).putRegions b.regions).writeGridCtrl l.quarter).putList i l
    let s := (putRings [] l.rings s).drawFree
    let s := (putBuckets l.moverBytes (s.turnLen b.domain) 16 s).zeroLineContexts
    let s := (s.setSeq { s.seq with
      started := true, runSeed := b.runSeed, startRound := round, quarterMap := (s.bindQuarters l).getD [0, 1, 2, 3]
      issuedThisTurn := 0, early := [], linkLine := [], heldThisRound := [], stopRound := false }).setF F.TT_SEQ_STATUS_STARTED 1
    let s := (applySetups c round b.setups s).putShare
    (s.adaptStart).complete c ccOk

/-! ### Stopping and unloading (R230, R401) -/

/-- The bundle stops: no move issues, the line task is cleared and cancelled, adaptation ends. -/
def State.stopBundle (s : State) : State :=
  if s.seq.started then
    let s := s.adaptDisable.clearLine
    let s := (s.setSeq { s.seq with started := false }).setF F.TT_SEQ_STATUS_STARTED 0
    s.putShare
  else s
def State.applyStop (s : State) (c : HostCmd) : State :=
  if s.seq.started then s.stopBundle.complete c ccOk else s.complete c ccState
/-- Windows of a slice that lie within a line-task region are closed. -/
def closeWindows (n : Nat) : Nat → State → State
  | 0, s => s
  | w + 1, s =>
    let s := closeWindows n w s
    let lo := s.getF (F.SPAD_n_WIN_w_BASE n w) * 64
    let hi := if s.flag (F.SPAD_n_WIN_w_MASK_TOP n w) then sliceSize else s.getF (F.SPAD_n_WIN_w_BOUND n w) * 64
    if lo < hi && (List.range 4).any (fun i =>
        let g := s.spadRegion 0 i
        g.slice == n && decide (g.base ≤ lo) && decide (hi ≤ g.bound)) then
      (s.setReg (R.SPAD_n_WIN_w n w) 0#32).setReg (R.SPAD_n_WIN_w_MASK n w) 0#32
    else s
def closeAll : Nat → State → State
  | 0, s => s
  | n + 1, s => closeWindows n 32 (closeAll n s)
/-- UNLOAD: the bundle is stopped; confidential regions are zeroed; the move store, the line task's regions, rings, queues and
windows are free. -/
def State.unload (s : State) : State :=
  match s.seq.bundle with
  | none => s
  | some b =>
    let s := s.stopBundle
    let s := s.dropConf b.conf
    let s := closeAll 16 (clearQueues 256 (dropRings s.seq.list.rings s))
    let s := (s.putRegions (List.replicate 96 0#8)).putList 0 {}
    (s.setSeq { s.seq with bundle := none, quarterMap := [], binds := [], runSeed := 0 }).setAdapt {}
def State.applyUnload (s : State) (c : HostCmd) : State :=
  if s.seq.bundle.isSome then s.unload.complete c ccOk else s.complete c ccState

/-! ### Loading (R389, R390) -/

/-- The signature block passes (step 3): its key's hash is in OTP and the signature verifies. -/
def State.blockSigned (s : State) (img : List Byte) (signedLen total : Nat) : Bool :=
  let b := (img.take total).drop signedLen
  let pubLen := fieldAt b 4 4
  let pub := (b.drop 8).take pubLen
  let sigLen := fieldAt b (8 + pubLen) 4
  let key := fieldAt b 0 1
  decide (key < 4) && fieldAt b 1 3 == 0 && decide (12 + pubLen + sigLen ≤ b.length) && s.anyBlown (0x200 + 32 * key) 32 &&
  sha256 pub == s.pkh key && hssVerify pub (img.take signedLen) ((b.drop (12 + pubLen)).take sigLen)
/-- Lifecycle policy of R389 for an image: signed in SECURED, unsigned and unencrypted in RETIRED. -/
def State.policyOk (s : State) (signed encrypted : Bool) : Bool :=
  match s.lc with
  | 2 => signed
  | 3 => !signed && !encrypted
  | _ => true
/-- A section with its bytes decrypted, none when its tag fails. -/
def State.openSection (s : State) (key : Nat) (e : DirEntry) : Option DirEntry :=
  if e.encrypted then
    if e.bytes.length < 28 then none
    else
      let n := e.bytes.length - 28
      (gcmOpen (s.aesKey key) (e.bytes.take 12) e.raw ((e.bytes.drop 12).take n) (e.bytes.drop (12 + n))).map (fun p => { e with bytes := p })
  else some e
/-- Device address of a section's destination. -/
def destAddr (area : Nat) (e : DirEntry) : Option Nat :=
  match e.space with
  | 0 => some (area + bitsOf e.dest 59 0)
  | 1 => some (sliceAddr (bitsOf e.dest 59 56) (bitsOf e.dest 21 0))
  | _ => none
/-- Bytes that LOAD_BUNDLE reserves behind the sections: the standby copy of the line task's scratchpad regions (R427) and the copies
of encrypted sections (R402). -/
def reserved (map : List Byte) (sealed : List DirEntry) : Nat :=
  ((List.range 4).map (fun r => (bitsOf (fieldAt map (8 * r + 4) 4) 16 0 - bitsOf (fieldAt map (8 * r) 4) 16 0) * 64)).foldl (· + ·) 0 +
  (sealed.map (fun e => e.len)).foldl (· + ·) 0
/-- A line-task region of a map meets a region of a placed batch task (step 10). -/
def State.regionsBusy (s : State) (map : List Byte) : Bool :=
  s.placed.any (fun t =>
    (List.range 4).any (fun i => (List.range 4).any (fun j =>
      let w0 := fieldAt map (8 * i) 4
      let lo := bitsOf w0 16 0 * 64
      let hi := bitsOf (fieldAt map (8 * i + 4) 4) 16 0 * 64
      let g := s.spadRegion t j
      decide (lo < hi) && g.slice == bitsOf w0 27 24 && decide (lo < g.bound) && decide (g.base < hi) && decide (g.base < g.bound) ||
      (let b := fieldAt map (32 + 16 * i) 8 / 4096 * 4096
       let e := fieldAt map (40 + 16 * i) 8 / 4096 * 4096
       let d := s.dramRegion t j
       decide (b < e) && decide (d.base < d.bound) && decide (b < d.bound) && decide (d.base < e)))))
/-- Device address of a byte of a region of a map. -/
def mapAddr (map : List Byte) (region off : Nat) : Nat :=
  if region < 4 then
    let w0 := fieldAt map (8 * region) 4
    sliceAddr (bitsOf w0 27 24) (bitsOf w0 16 0 * 64 + off)
  else fieldAt map (32 + 16 * (region - 4)) 8 / 4096 * 4096 + off
/-- Write a core's instruction words from the start of its line range. -/
def putCode (core : Nat) : Nat → List Byte → Nat → State → State
  | 0, _, _, s => s
  | n + 1, bs, i, s =>
    putCode core n (bs.drop 8) (i + 1) (s.setImem (core * 16384 + i) (BitVec.ofNat 64 (leNat (bs.take 8))))
def putSections (area : Nat) : List DirEntry → State → State
  | [], s => s
  | e :: r, s =>
    putSections area r (match destAddr area e with
      | some a => s.writeDev a e.bytes
      | none => if e.space = 2 then putCode e.arg (e.bytes.length / 8) e.bytes 0 s else s)
def putLineEnds (map : List Byte) : Nat → State → State
  | 0, s => s
  | n + 1, s => (putLineEnds map n s).setF (F.VC_n_CTRL_LINE_END n) (mapLineEnd map n)
/-- Steps 1 to 10 of R390 on an image: the code, or the bundle with its list and its decrypted sections. -/
def State.checkImage (s : State) (c : HostCmd) (img : List Byte) : Except Code (Bundle × Nat × MoveList × List DirEntry) :=
  let area := c.arg 8 * 4096
  if !imageOk img (c.arg 2) then .error ccFormat
  else
    let dir := directory img
    let level := if c.origin = .boot then 1 else s.getF F.CMD_LEVEL_YUBEN
    let sealed := dir.filter (fun e => e.encrypted)
    let encrypted := bEncrypted img || !sealed.isEmpty
    let early := firstCode
      [(decide (s.getF F.HUB_YUBEN_LEVEL < fieldAt img 6 1) || decide (level < fieldAt img 6 1), ccCapability),
       (!s.policyOk (bSigned img) encrypted || (bSigned img && !s.blockSigned img (bSignedLen img) (fieldAt img 8 8)), ccSignature),
       (s.keysOff && !sealed.isEmpty, ccDenied)]
    if early ≠ ccOk then .error early
    else match allSome (dir.map (s.openSection (fieldAt img 0x29 1))) with
      | none => .error ccSignature
      | some secs =>
        let nlists := fieldAt img 0x2B 1
        let map := regionMap secs
        let req := [fieldAt img 0x18 4, fieldAt img 0x1C 4, fieldAt img 0x20 4, fieldAt img 0x24 4]
        let images := secs.filterMap (fun e => (if e.typ = 3 ∨ e.typ = 4 then destAddr area e else none).map (fun a => (a, e.bytes)))
        let table := match secs.find? (fun e => e.typ == 9) with | some e => e.bytes | none => []
        let mid := firstCode
          [(!sectionsOk nlists secs, ccFormat), (decide (s.dramEnd < area + areaEnd secs + reserved map sealed), ccNoSpace),
           (!s.capsMet req || (namedUnits secs).any (fun n => !s.unitUsable n), ccCapability)]
        if mid ≠ ccOk then .error mid
        else match pickAux s.capsMet (s.checkLoad images (mapLineEnd map)) (listSections nlists secs) 0 none with
          | .error k => .error k
          | .ok (i, l) =>
            let late := firstCode [(!table.isEmpty && !tableOk table, ccFormat), (s.regionsBusy map, ccBusy)]
            if late ≠ ccOk then .error late
            else
              let sealedNow := secs.filter (fun e => e.encrypted)
              .ok ({ ident := fieldAt img 0x70 8, hash := sha256 (img.take (bSignedLen img)), domain := fieldAt img 0x28 1,
                     retain := (fieldAt img 7 1).testBit 1, lMin := fieldAt img 0x2C 4, lMax := fieldAt img 0x30 4,
                     bw := (List.range 5).map (fun k => fieldAt img (0x38 + 8 * k) 8),
                     runSeed := if (c.arg 3).testBit 0 then argAddr c 4 else fieldAt img 0x60 8,
                     adaptSeed := if (c.arg 3).testBit 1 then argAddr c 6 else fieldAt img 0x68 8,
                     area := area, lists := listSections nlists secs, regions := map,
                     setups := (secs.filter (fun e => e.typ == 8)).map (fun e => e.bytes), adapt := table, images := images,
                     conf := sealedNow.filterMap (fun e => (destAddr area e).map (fun a => (a, e.bytes.length))),
                     sealed := sealed.filterMap (fun e => (destAddr area e).map (fun a => (fieldAt img 0x29 1, e.raw, e.bytes, a))) },
                   i, l, secs)
/-- A loaded bundle is put in place. -/
def State.putBundle (s : State) (b : Bundle) (i : Nat) (l : MoveList) (secs : List DirEntry) (signed : Bool) : State :=
  let s := putLineEnds b.regions 16 (putSections b.area secs s)
  let s := (s.setSec { s.sec with conf := s.sec.conf ++ b.conf }).refreshSec
  let s := (s.setSeq { s.seq with bundle := some b }).putList i l
  let t := b.adapt
  let s := if t.isEmpty then s.setAdapt {}
    else s.setAdapt { image := s.memBytes (mapAddr b.regions (setRegion t 0) (setOffset t 0)) (setSize t) }
  let s := s.setF F.TT_ADP_STATUS_ADAPTERS (adapters t)
  if signed then s else s.record 0x01 0x82
/-- LOAD_BUNDLE. -/
def State.loadBundle (s : State) (c : HostCmd) (io : Bool) : State :=
  if s.seq.bundle.isSome then s.complete c ccState
  else if bitsOf (c.arg 3) 31 2 ≠ 0 then s.complete c ccFormat
  else match s.readArg c io (argAddr c 0) (c.arg 2) with
    | none => s.complete c ccIo
    | some img =>
      match s.checkImage c img with
      | .error k => s.complete c k
      | .ok (b, i, l, secs) => (s.putBundle b i l secs (bSigned img)).complete c ccOk

/-! ### Reselection (R32, R429) -/

/-- The move list is exchanged at a round boundary: the old list's rings are voided and disabled, the new one's put in force. -/
def State.exchangeList (s : State) (b : Bundle) (i : Nat) (l : MoveList) : State :=
  let s := dropRings s.seq.list.rings s.clearLine
  let s := (putRings [] l.rings (s.putList i l)).drawFree
  let s := putBuckets l.moverBytes (s.turnLen b.domain) 16 s
  s.setSeq { s.seq with quarterMap := (s.bindQuarters l).getD [0, 1, 2, 3] }
/-- After a capability loss: the selected list stays while its requirement is met; otherwise the first list that is met and passes, or
none (the streams of the bundle show their hold buffers). Recorded. -/
def State.reselect (s : State) : State :=
  match s.seq.bundle with
  | none => s
  | some b =>
    if s.capsMet s.seq.list.reqCap then s
    else match s.selectStart b [] with
      | .ok (i, l) => (s.exchangeList b i l).record 0x03 (0x80 + i)
      | .error _ => (s.setSeq { s.seq with list := { s.seq.list with moves := [], lineDue := [], reqCap := [] } }).record 0x03 0x8F
/-- SET_CLOCK at a new ACLK with a started bundle: the first list in bundle order that passes there (R429). -/
def State.clockCode (s : State) (mhz : Nat) : Except Code (Option (Bundle × Nat × MoveList)) :=
  match s.seq.bundle with
  | some b =>
    if s.seq.started then
      match (s.setF F.HUB_ACLK_MHZ mhz).selectStart b [] with
      | .ok (i, l) => .ok (some (b, i, l))
      | .error _ => .error ccBudget
    else .ok none
  | none => .ok none
def State.applyClock (s : State) (c : HostCmd) : State :=
  match s.clockCode (c.arg 0) with
  | .error k => s.complete c k
  | .ok none => (s.setF F.HUB_ACLK_MHZ (c.arg 0)).complete c ccOk
  | .ok (some (b, i, l)) =>
    let s := if i = s.seq.listIndex then s else (s.exchangeList b i l).record 0x03 (0x80 + i)
    (s.setF F.HUB_ACLK_MHZ (c.arg 0)).complete c ccOk

end Sys2Proof.Machine
end

