-- ==== Sys2Proof/Machine/RegRead.lean ====
section
/-! DEFINITION. What a register reads (R8, R10, R35): stored fields, values computed from the state, latched words, and the
reads that a lifecycle, debug or power state turns into zero (R408, R420, R422). -/

namespace Sys2Proof.Machine

/-- The index at which a family of registers has an offset. -/
def regIdx (f : Nat → Nat) (n off : Nat) : Option Nat := (List.range n).find? (fun i => f i == off)
def State.latchedWord (s : State) (off : Nat) : Nat := (SMap.get (fun _ => 0#32) s.latched off).toNat
def State.latch (s : State) (off v : Nat) : State := { s with latched := SMap.set (fun _ => 0#32) s.latched off (BitVec.ofNat 32 v) }

/-! ### Scorepad records (R448) -/

/-- Bytes 0x00 to 0x77 of a record. -/
def Record.body (r : Record) : List Byte :=
  leBytes 4 r.seq ++ leBytes 1 r.cls ++ leBytes 1 r.trigger ++ leBytes 1 r.nreg ++ leBytes 1 r.flags ++ leBytes 2 r.event ++ leBytes 2 r.detail ++
  leBytes 4 r.hours ++ leBytes 1 r.minutes ++ leBytes 3 0 ++ leBytes 4 r.pcycles ++
  ((r.payload.map (leBytes 4)).flatten ++ List.replicate 96 0#8).take 96
def Record.bytes (r : Record) : List Byte :=
  let b := r.body ++ leBytes 4 r.seq
  b ++ leBytes 4 (crc32 b)
/-- The bytes of a record of a class; a slot that has not been written reads zero (R449). -/
def State.recordBytes (s : State) (cls i : Nat) : List Byte :=
  match (if cls = 0 then s.scorepad.ledger else s.scorepad.trace)[i]? with
  | some r => r.bytes
  | none => List.replicate 128 0#8

/-! ### Values -/

/-- The round a domain shows: the present one; while stopped, the one written, or the last it began (R41). -/
def Dom.shown (d : Dom) : Nat := if d.run then d.round else if d.written then d.nextRound else if d.ran then d.round else 0
/-- TB_Dn_POS and TB_Dn_TICK at this tick. -/
def State.posNow (s : State) (n : Nat) : Nat :=
  let d := s.dom n
  if d.run then (if d.isRepeat then 2 ^ 31 else 0) + 2 ^ 30 + d.turn else 0
def State.tickNow (s : State) (n : Nat) : Nat := let d := s.dom n; if d.run then (s.now - d.turnStart) % 2 ^ 20 else 0
/-- TB_Dn_LPHASE: ticks from the nearest turn boundary of the grid to the last edge of REFSYNC_IN_L. -/
def State.lphase (s : State) (n : Nat) : Nat :=
  let d := s.dom n
  match d.lphase with
  | none => 0
  | some t =>
    let len := max 1 (s.turnLen n)
    let r := (Int.ofNat t - Int.ofNat d.next) % Int.ofNat len
    2 ^ 31 + wrapTo 20 (if Int.ofNat len < 2 * r then r - Int.ofNat len else r)
/-- TT_POS: repeat, marked, turn. -/
def State.ttPos (s : State) : Nat := (if s.tt.isRepeat then 2 ^ 31 else 0) + (if s.tt.marked then 2 ^ 30 else 0) + s.tt.turn
/-- TT_CYCLE: the budget of R39, and the cycle within the turn. The phase of ACLK is open: it moves the cycle by one. -/
def State.ttCycle (s : State) : Nat :=
  let c := (s.now - (s.tt.start + 80)) * s.getF F.HUB_ACLK_MHZ / 1000
  s.budget % 65536 * 65536 +
    (if s.tt.running then (c - (if c = 0 then 0 else Config.freeValue s.freeIdx 0 % 2)) % 65536 else 0)
/-- VC_n_STATUS. -/
def State.vcStatus (s : State) (n : Nat) : Nat :=
  let v := s.vcore n
  (if v.lineRun then 0 else 2 ^ 31) + (if v.lineRun then 2 ^ 30 else 0) + (if v.lineStop then 2 ^ 29 else 0) +
  (if v.batchTask ≠ 0 ∧ v.batchFault = false then 2 ^ 28 else 0) + (s.yctx n (if v.lineRun then .line else .batch)).pc % 16384
/-- GRID_STATUS with its PEND and BUSY bits. -/
def State.gridStatus (s : State) : Nat :=
  let bits := fun (p : Nat → Bool) => ((List.range 5).map (fun u => if p u then 2 ^ u else 0)).foldl (· + ·) 0
  withBits (withBits (s.reg R.GRID_STATUS).toNat 12 8 (bits (fun u => !(s.gridUnit u).waiting.isEmpty))) 4 0 (bits (fun u => !(s.gridUnit u).passes.isEmpty))
/-- MOV_n_STATUS. Reads of other devices are outstanding between steps; reads of this one are made in the step of the completion. -/
def State.movStatus (s : State) (n : Nat) : Nat :=
  (if (s.mover n).busy.isEmpty then 0 else 2 ^ 31) + (s.mover n).queue.length % 128 * 65536 + readsOut (fun _ => true) (s.mover n).busy
/-- FAB_STATUS with its EDGE and UP bits. -/
def State.fabStatus (s : State) : Nat :=
  let bits := fun (p : Nat → Bool) => ((List.range 4).map (fun u => if p u then 2 ^ u else 0)).foldl (· + ·) 0
  withBits (withBits (s.reg R.FAB_STATUS).toNat 19 16 (bits s.portEdge)) 15 12 (bits s.portUp)
/-- REC_STAT. -/
def State.recStat (s : State) : Nat :=
  let l := s.scorepad.ledger.length
  let t := s.scorepad.trace.length
  (if 2048 ≤ l then 2 ^ 31 else 0) + (if 6144 ≤ t then 2 ^ 30 else 0) + t * 65536 + l
/-- Operating minutes: those at the last cold reset, and what the timebase counts since (R451). -/
def State.opMinutes (s : State) : Nat := s.scorepad.minutes + s.now / 60000000000
/-- DL_STATUS. -/
def State.dlStatus (s : State) : Nat :=
  let a := s.flag F.DL_STATUS_DL0_UP
  let b := s.flag F.DL_STATUS_DL1_UP
  (if b then 512 else 0) + (if a then 256 else 0) + (if a != b then 16 else 0) + (if a || b then 1 else 0)
/-! ### Pieces of device memory: check-value scans (R455) and debug reads (R408) -/

/-- A byte of the colour volume window. -/
def isCvAddr (a : Nat) : Bool := decide (0x1104000000 ≤ a) && decide (a < 0x1104000000 + 8 * 531441)
/-- The bytes of a piece of device memory for a scan, or the error of R455. -/
def State.scanPiece (s : State) (a n : Nat) : State × Except Nat (List Byte) :=
  let mapped := if isSpad a then s.unitUsable ((a - spadBase) / sliceSize) && s.bankOn ((a - spadBase) / sliceSize) (bankOf ((a - spadBase) % sliceSize))
    else decide (a + n ≤ s.dramEnd) || isCvAddr a
  if !mapped then (s, .error 1)
  else if s.confMeets a n then (s, .error 2)
  else if isCvAddr a then (s, .ok ((leBytes 8 (s.cvEntry ((a - 0x1104000000) / 8))).drop (a % 8) |>.take n))
  else match s.readDev a n with
    | (s, bs, bad) => (s, if bad then .error 3 else .ok bs)
def State.debugAddr (s : State) : Nat := s.getF F.DBG_MEM_ADDR_LO_ADDR * 8 + s.getF F.DBG_MEM_ADDR_HI_ADDR * 2 ^ 32
/-- The eight bytes at the debug address lie in the scope of the open session. -/
def State.debugScope (s : State) : Bool :=
  match s.debugNow with
  | some d => decide (d.base ≤ s.debugAddr) && decide (s.debugAddr + 8 ≤ d.bound)
  | none => false
/-- The window to host memory (R367). -/
def isHostWindow (a : Nat) : Bool := decide (0x2000000000 ≤ a) && decide (a < 0x4000000000)
/-- The instruction word that VC_n_IADDR names. -/
def State.instrWord (s : State) (n : Nat) : Nat := (s.imemWord (n * 16384 + s.getF (F.VC_n_IADDR_INDEX n))).toNat

/-- STEP bits that have not been spent. -/
def State.stepBits (s : State) : Nat := ((List.range 16).map (fun n => if (s.vcore n).dbgStep then 2 ^ n else 0)).foldl (· + ·) 0

/-- Registers of one kind whose value is computed: the value for the index, if the offset is one of them. -/
def pickReg (off : Nat) : List ((Nat → Nat) × Nat × (Nat → Nat)) → Option Nat
  | [] => none
  | (f, n, v) :: r => match regIdx f n off with | some i => some (v i) | none => pickReg off r
/-- Registers of one kind with a behaviour of their own: the state after, if the offset is one of them. -/
def pickWrite (off : Nat) : List ((Nat → Nat) × Nat × (Nat → State)) → Option State
  | [] => none
  | (f, n, v) :: r => match regIdx f n off with | some i => some (v i) | none => pickWrite off r
/-- A family of one register. -/
def oneReg (x : Nat) : Nat → Nat := fun _ => x
/-- Offsets that read what was latched (R35). -/
def isLatched (off : Nat) : Bool :=
  off == R.TB_NOW_HI || off == R.TT_ROUND_HI || off == R.TT_POS || off == R.TT_CYCLE || off == R.GRID_OCC_HI || off == R.DBG_MEM_DATA_HI ||
  (regIdx R.TB_Dn_ROUND_HI 4 off).isSome || (regIdx R.TB_Dn_POS 4 off).isSome || (regIdx R.TB_Dn_TICK 4 off).isSome ||
  (regIdx R.VC_n_IDATA_HI 16 off).isSome || (regIdx R.CRC_e_VAL_HI 8 off).isSome
/-- The value of a register before the gates, beside the one whose read makes a debug access. -/
def State.coreReg (s : State) (off : Nat) : Nat :=
  if isLatched off then s.latchedWord off
  else
    let one := fun (x : Nat) => (fun (_ : Nat) => x)
    match pickReg off
        [(one R.TB_NOW_LO, 1, fun _ => s.now % 2 ^ 32), (R.TB_Dn_ROUND_LO, 4, fun n => (s.dom n).shown % 2 ^ 32), (R.TB_Dn_LPHASE, 4, s.lphase),
         (one R.TT_ROUND_LO, 1, fun _ => s.tt.round % 2 ^ 32), (one R.GRID_STATUS, 1, fun _ => s.gridStatus), (one R.DL_STATUS, 1, fun _ => s.dlStatus),
         (one R.GRID_OCC_LO, 1, fun _ => s.grid.occupancy % 2 ^ 32), (R.MOV_n_STATUS, 16, s.movStatus), (R.VC_n_STATUS, 16, s.vcStatus),
         (R.VC_n_IDATA_LO, 16, fun n => s.instrWord n % 2 ^ 32), (one R.FAB_STATUS, 1, fun _ => s.fabStatus),
         (one R.TASK_COUNT, 1, fun _ => (s.slotsIn 2).length * 65536 + (s.slotsIn 1).length),
         (R.TASK_WIN_w, 64, fun w => s.slotField (s.getF F.TASK_SEL_SLOT) (4 * w) 4), (one R.REC_STAT, 1, fun _ => s.recStat),
         (one R.REC_HOURS, 1, fun _ => s.opMinutes / 60 % 2 ^ 24 * 256 + s.opMinutes % 60),
         (R.REC_WIN_w, 32, fun w => fieldAt (s.recordBytes (s.getF F.REC_CURSOR_CLASS) (s.getF F.REC_CURSOR_INDEX)) (4 * w) 4),
         (one R.DBG_CTRL, 1, fun _ => s.getF F.DBG_CTRL_HALT * 65536 + s.stepBits)] with
    | some v => v
    | none => (s.reg off).toNat &&& (0xFFFFFFFF ^^^ accMask off .wo)

/-! ### Gates -/

/-- Blocks that answer in STANDBY: SYS_, TB_, FAB_, PCI_, CMD_, SEC_, PWR_, REC_ (R422). -/
def islandReg (off : Nat) : Bool :=
  decide (0x1000000 ≤ off) && decide (off < 0x1020000) || decide (0x10A0000 ≤ off) && decide (off < 0x10F8000)
/-- A register that does not answer now: in STANDBY, without its session, or on no map. -/
def State.regAnswers (s : State) (off : Nat) : Bool :=
  (s.getF F.PWR_STATE_STATE != 2 || islandReg off) && (regRow? off).isSome &&
  !(decide (0x1100000 ≤ off) && s.debugLevel == 0) &&
  !(s.lc == 2 && s.debugLevel == 0 && ((regIdx R.VC_n_IDATA_LO 16 off).isSome || (regIdx R.VC_n_IDATA_HI 16 off).isSome || (regIdx R.TASK_WIN_w 64 off).isSome))
/-- What a read of the first word of a group latches (R35, R183, R454). -/
def State.latchGroup (s : State) (off : Nat) : State :=
  (pickWrite off
    [(oneReg R.TB_NOW_LO, 1, fun _ => s.latch R.TB_NOW_HI (s.now / 2 ^ 32)),
     (R.TB_Dn_ROUND_LO, 4, fun n =>
       ((s.latch (R.TB_Dn_ROUND_HI n) ((s.dom n).shown / 2 ^ 32 % 2 ^ 16)).latch (R.TB_Dn_POS n) (s.posNow n)).latch (R.TB_Dn_TICK n) (s.tickNow n)),
     (oneReg R.TT_ROUND_LO, 1, fun _ =>
       (((s.latch R.TT_ROUND_HI (s.tt.round / 2 ^ 32 % 2 ^ 16)).latch R.TT_POS s.ttPos).latch R.TT_CYCLE s.ttCycle).drawFree),
     (oneReg R.GRID_OCC_LO, 1, fun _ => s.latch R.GRID_OCC_HI (s.grid.occupancy / 2 ^ 32)),
     (R.VC_n_IDATA_LO, 16, fun n => s.latch (R.VC_n_IDATA_HI n) (s.instrWord n / 2 ^ 32)),
     (R.CRC_e_VAL_LO, 8, fun e => s.latch (R.CRC_e_VAL_HI e) (s.reg (R.CRC_e_VAL_HI e)).toNat)]).getD s
/-- RC fields are cleared by the read that returns them. -/
def State.clearRc (s : State) (off : Nat) : State :=
  let m := accMask off .rc
  if m = 0 then s else s.setReg off (BitVec.ofNat 32 ((s.reg off).toNat &&& (0xFFFFFFFF ^^^ m)))
/-! ### Accesses by the debug port and the accumulator's diagnostic window (R21, R109, R408) -/

/-- A read of a register by the debug port: what the read of RC fields and of first words does happens; the debug port does not start another
access of its own. -/
def State.coreRead (s : State) (off : Nat) : State × Nat :=
  if s.regAnswers off then ((s.latchGroup off).clearRc off, s.coreReg off) else (s, 0)
/-- The quarter that holds a physical accumulator word is present (R106). -/
def State.accPresent (s : State) (row col : Nat) : Bool :=
  decide (row < s.getF F.ACC_ROWS_ROWS) && decide (col < 512) &&
  (s.getF F.HUB_CAP0_Q_MASK).testBit ((if s.getF F.ACC_ROWS_ROWS / 2 ≤ row then 2 else 0) + (if 256 ≤ col then 1 else 0))
/-- A pass whose timeline has not ended reads or writes a physical word. -/
def State.passHolds (s : State) (i : Nat) : Bool :=
  (List.range 5).any (fun u => (s.gridUnit u).passes.any (fun p =>
    (List.range (gM p.words)).any (fun m =>
      let first := s.accIndex u (gAccRow p.words + m) 0
      decide (first ≤ i) && decide (i < first + p.columns))))
/-- Bytes of a word with some of them replaced. -/
def patchBytes (old : List Byte) (off : Nat) (bs : List Byte) : List Byte := old.take off ++ bs ++ old.drop (off + bs.length)
/-- The forms of an access of the diagnostic window: a whole word, or four bytes of it (R109). -/
def accForm (off len : Nat) : Bool := (off == 0 && len == 16) || (off % 4 == 0 && decide (off < 16) && len == 4)
/-- A diagnostic read: 16 bytes give the word as it is stored, its check byte with it, and the check is counted; four bytes give the corrected
word's, and none of an uncorrectable one (log 202). -/
def State.diagRead (s : State) (i off len : Nat) : State × Option (List Byte) :=
  let w := s.accWord i
  match s.readAcc i with
  | (s, c) => (s, if len = 16 then some (leBytes 16 w.toNat) else c.map (fun w => ((leBytes 16 w.toNat).drop off).take len))
/-- A diagnostic write: 16 bytes give the word but its check byte; four bytes are put into the corrected word, and are lost on an uncorrectable
one (log 202). -/
def State.diagWrite (s : State) (i off : Nat) (data : List Byte) : State :=
  if data.length = 16 then s.writeAcc i (AccParts.ofWord (BitVec.ofNat 128 (leNat data)))
  else match s.readAcc i with
    | (s, some w) => s.writeAcc i (AccParts.ofWord (BitVec.ofNat 128 (leNat (patchBytes (leBytes 16 w.toNat) off data))))
    | (s, none) => s
/-- The registers of both dies, and the accumulator window, among device addresses (R21). -/
def isRegAddr (a : Nat) : Bool := decide (0x1100000000 ≤ a) && decide (a < 0x1102000000)
def isAccAddr (a : Nat) : Bool := decide (0x1008000000 ≤ a) && decide (a < 0x1008800000)
def accIndexAt (a : Nat) : Nat := (a - 0x1008000000) / 16
def accRowAt (a : Nat) : Nat := accIndexAt a / 512
def accColAt (a : Nat) : Nat := accIndexAt a % 512
/-- Eight bytes of the accumulator window: two 4-byte accesses. -/
def State.accPair (s : State) (a : Nat) : State × Option Nat :=
  if s.accPresent (accRowAt a) (accColAt a) && s.sec.conf.isEmpty then
    match s.diagRead (accIndexAt a) (a % 16) 4 with
    | (s, lo) => match s.diagRead (accIndexAt a) (a % 16 + 4) 4 with
      | (s, hi) => (s, lo.bind (fun l => hi.map (fun h => leNat (l ++ h))))
  else (s, none)
/-- Eight bytes of a fabric window: this device's own is served locally; another device is asked for the block, and what it answers is a free
value (R344, log 203). -/
def State.windowPair (s : State) (a : Nat) : State × Option Nat :=
  match s.mapDevice a 8 false with
  | .dram l => match s.scanPiece l 8 with
    | (s, .ok bs) => (s, some (leNat bs))
    | (s, .error 3) => (s.drawFree, some (Config.freeValue s.freeIdx 0 % 2 ^ 64))
    | (s, .error _) => (s, none)
  | .fabric l => ((sendReads [l / 64 * 64] s).drawFree, some (Config.freeValue s.freeIdx 0 % 2 ^ 64))
  | _ => (s, none)
/-- A debug memory read of eight bytes: none where it is refused; an uncorrectable word reads as free values. -/
def State.debugRead (s : State) : State × Option Nat :=
  let a := s.debugAddr
  if !s.debugPerm 2 || !s.debugScope then (s, none)
  else if isHostWindow a then (s, if s.flag F.PCI_STATUS_BME then some (leNat (s.hostBytes (s.host.hwin + (a - 0x2000000000)) 8)) else none)
  else if isRegAddr a then
    match s.coreRead (a - 0x1100000000) with
    | (s, lo) => match s.coreRead (a - 0x1100000000 + 4) with
      | (s, hi) => (s, some (lo + hi * 2 ^ 32))
  else if isAccAddr a then s.accPair a
  else if 0x10000000000 ≤ a then s.windowPair a
  else match s.scanPiece a 8 with
    | (s, .ok bs) => (s, some (leNat bs))
    | (s, .error 3) => (s.drawFree, some (Config.freeValue s.freeIdx 0 % 2 ^ 64))
    | (s, .error _) => (s, none)
/-- The value of a register before the gates. -/
def State.liveReg (s : State) (off : Nat) : Nat := if off = R.DBG_MEM_DATA_LO then (s.debugRead.2.getD 0) % 2 ^ 32 else s.coreReg off

/-- What an ordinary BAR0 read of a register returns, with nothing cleared and nothing latched (R447). -/
def State.peek (s : State) (off : Nat) : Nat := if s.regAnswers off then s.liveReg off else 0
/-- The register a BAR0 offset reaches (R24). -/
def barReg (b : Nat) : Option Nat := if b < 0x1000000 then some (b + 0x1000000) else if b < 0x2000000 then some (b - 0x1000000) else none

end Sys2Proof.Machine
end

