-- ==== Sys2Proof/Machine/Records.lean ====
section
/-! DEFINITION. The Scorepad's recorder (R445 to R452), the ledger area of boot flash (R451) and the check-value engines
(R453 to R455). -/

namespace Sys2Proof.Machine

/-! ### Writing records (R445 to R449) -/

def eventGroup (e : Nat) : Nat := e / 256
def eventClass (e : Nat) : Nat := if isLedgerGroup (eventGroup e) then 0 else 1
/-- The trigger an event takes: the lowest-numbered enabled one that matches. -/
def State.triggerOf (s : State) (e : Nat) : Option Nat :=
  (List.range 32).find? (fun t =>
    s.flag (F.REC_TRIG_t_CFG_EN t) && s.getF (F.REC_TRIG_t_CFG_GROUP t) == eventGroup e &&
    decide (s.getF (F.REC_TRIG_t_CFG_ITEM_LO t) ≤ e % 256) && decide (e % 256 ≤ s.getF (F.REC_TRIG_t_CFG_ITEM_HI t)))
/-- The snapshot of a trigger: its registers as BAR0 reads of them would return. -/
def State.snapshot (s : State) (t : Nat) : List Nat :=
  (List.range (min 24 (s.getF (F.REC_TRIG_t_CFG_NREG t)))).map (fun i =>
    match barReg (s.getF (F.REC_TRIG_t_REGi_OFFSET t i) * 4) with
    | some off => s.peek off
    | none => 0)
/-- The record of an event. -/
def State.makeRecord (s : State) (ev : RecEvent) (t : Option Nat) : Record :=
  let regs := match t with | some t => s.snapshot t | none => []
  let ledger := eventClass ev.event == 0
  { seq := (s.reg R.REC_SEQ).toNat, cls := eventClass ev.event, trigger := t.getD 0xFF, nreg := regs.length,
    flags := if ledger && !s.flag F.REC_PCYC_VALID then 1 else 0, event := ev.event, detail := ev.detail % 65536,
    hours := if ledger then s.opMinutes / 60 % 2 ^ 32 else 0, minutes := if ledger then s.opMinutes % 60 else 0,
    pcycles := if ledger then s.getF F.REC_PCYC_COUNT else 0, payload := regs }
/-- An event is written to its class, suppressed, or counted as overflow. -/
def State.writeRecord (s : State) (ev : RecEvent) : State :=
  let t := s.triggerOf ev.event
  let c := eventClass ev.event
  let suppress := match t with | some t => c == 1 && s.flag (F.REC_TRIG_t_CFG_SUPPRESS t) | none => false
  if suppress then s.bumpF F.REC_SUPP_COUNT
  else if c = 0 ∧ 2048 ≤ s.scorepad.ledger.length then s.bumpF F.REC_OVF_LEDGER
  else if c = 1 ∧ 6144 ≤ s.scorepad.trace.length then s.bumpF F.REC_OVF_TRACE
  else
    let r := s.makeRecord ev t
    let s := s.setReg R.REC_SEQ (BitVec.ofNat 32 (r.seq + 1))
    if c = 0 then { s with scorepad := { s.scorepad with ledger := s.scorepad.ledger ++ [r] } }.raiseIrq 1
    else { s with scorepad := { s.scorepad with trace := s.scorepad.trace ++ [r] } }
/-- Take the first event that can be written: ledger events wait until the counts are taken (R451). -/
def takeEvent (counted : Bool) : List RecEvent → Option (RecEvent × List RecEvent)
  | [] => none
  | e :: r =>
    if counted || eventClass e.event == 1 then some (e, r)
    else match takeEvent counted r with
      | some (x, l) => some (x, e :: l)
      | none => none
/-- RECORD_WRITE: the oldest event that can be written. -/
def execRecordWrite (s : State) : Host.Outcome State Fault Refusal :=
  .next (match takeEvent s.scorepad.counted s.scorepad.waiting with
    | some (ev, r) => { s with scorepad := { s.scorepad with waiting := r } }.writeRecord ev
    | none => s)

/-! ### The ledger area (R451) -/

def State.ledgerKey (s : State) : List Byte :=
  hmac (s.otpBytes 0x100 32) ("NG5120-LEDGER".toList.map (fun c => BitVec.ofNat 8 c.toNat) ++ s.uid)
/-- Bytes 0x00 to 0x2F of an entry. -/
def State.entryBody (s : State) (gen : Nat) : List Byte :=
  leBytes 4 0x474C474E ++ leBytes 4 gen ++ leBytes 4 (s.opMinutes / 60) ++ leBytes 1 (s.opMinutes % 60) ++ leBytes 3 0 ++
  leBytes 4 (s.getF F.REC_PCYC_COUNT) ++ s.uid ++ List.replicate 12 0#8
/-- Append an entry, erasing a sector before its first one. -/
def State.appendLedger (s : State) : State :=
  let base := s.flashDir 2
  if base = 0 then s
  else
    let o := s.scorepad.nextEntry
    let b := s.entryBody (s.scorepad.gen + 1)
    let s := if o % 4096 = 0 then putFlash (List.replicate 4096 0xFF#8) (base + o) s else s
    let s := putFlash (b ++ (hmac s.ledgerKey b).take 16) (base + o) s
    { s with scorepad := { s.scorepad with gen := s.scorepad.gen + 1, nextEntry := (o + 64) % 65536 } }
/-- An entry of the area is good: magic, UID and MAC. -/
def State.entryGood (s : State) (e : List Byte) : Bool :=
  fieldAt e 0 4 == 0x474C474E && (e.drop 0x14).take 16 == s.uid && (hmac s.ledgerKey (e.take 48)).take 16 == e.drop 48
/-- The good entry with the highest GEN among the first n: its offset and bytes. -/
def State.newestEntry (s : State) (base : Nat) : Nat → Option (Nat × List Byte)
  | 0 => none
  | n + 1 =>
    let e := s.flashBytes (base + 64 * n) 64
    match State.newestEntry s base n with
    | none => if s.entryGood e then some (64 * n, e) else none
    | some (o, best) => if s.entryGood e && decide (fieldAt best 4 4 < fieldAt e 4 4) then some (64 * n, e) else some (o, best)
/-- The counts are taken in boot step 4, and a new entry is appended. -/
def State.takeCounts (s : State) : State :=
  let base := s.flashDir 2
  let s := { s with scorepad := { s.scorepad with counted := true } }
  match (if base = 0 then none else s.newestEntry base 1024) with
  | some (o, e) =>
    let s := { s with scorepad := { s.scorepad with minutes := fieldAt e 8 4 * 60 + fieldAt e 0xC 1, gen := fieldAt e 4 4, nextEntry := (o + 64) % 65536 } }
    ((s.setF F.REC_PCYC_VALID 1).setF F.REC_PCYC_COUNT (fieldAt e 0x10 4 + 1)).appendLedger
  | none => s.appendLedger
/-- LEDGER_ENTRY_TIMER: ten minutes of operating time have passed since the last entry of the timer. -/
def execLedgerEntryTimer (s : State) : Host.Outcome State Fault Refusal := .next s.appendLedger

/-! ### REC_READ and REC_CLEAR (R450, R452) -/

def recCapacity (c : Nat) : Nat := if c = 0 then 2048 else 6144
/-- REC_READ: `io` tells that writing to host memory failed. -/
def execRecRead (io : Bool) (s : State) : Host.Outcome State Fault Refusal :=
  .next (s.withCmd 0x11 (fun _ => true) (fun c s =>
    if 1 < c.arg 0 || decide (recCapacity (c.arg 0) < c.arg 1 + c.arg 2) then s.complete c ccFormat
    else
      let bs := ((List.range (c.arg 2)).map (fun i => s.recordBytes (c.arg 0) (c.arg 1 + i))).flatten
      match s.writeArg c io (argAddr c 3) bs with
      | (s, ok) => s.complete c (if ok then ccOk else ccIo)))
/-- REC_CLEAR empties a class and its overflow count; the clear of the ledger is its first record. -/
def execRecClear (s : State) : Host.Outcome State Fault Refusal :=
  .next (s.withCmd 0x12 (fun _ => true) (fun c s =>
    if 1 < c.arg 0 then s.complete c ccFormat
    else if c.arg 0 = 0 then
      if s.lc = 2 ∧ s.debugLevel < 2 then s.complete c ccDenied
      else
        let s := { s with scorepad := { s.scorepad with ledger := [] } }.setF F.REC_OVF_LEDGER 0
        (s.writeRecord ⟨0x180, 0⟩).complete c ccOk
    else
      let s := { s with scorepad := { s.scorepad with trace := [] } }.setF F.REC_OVF_TRACE 0
      (s.record 0x01 0x81).complete c ccOk))

/-! ### Check-value engines (R453 to R455) -/

def polyWidth (p : Nat) : Nat := match p with | 2 => 64 | 3 => 16 | _ => 32
def polyInit (p : Nat) : Nat := match p with | 2 => 0 | 3 => 0xFFFF | _ => 0xFFFFFFFF
def polyFinal (p : Nat) : Nat := match p with | 0 => 0xFFFFFFFF | 1 => 0xFFFFFFFF | _ => 0
/-- One bit of a CRC that is not reflected. -/
def shiftCrc (w poly : Nat) : Nat → Nat → Nat
  | 0, c => c
  | n + 1, c => shiftCrc w poly n (if c.testBit (w - 1) then (c * 2) % 2 ^ w ^^^ poly else (c * 2) % 2 ^ w)
/-- Take a byte into a running value. -/
def polyByte (p c b : Nat) : Nat :=
  match p with
  | 0 => crcByte 0x82F63B78 c b
  | 1 => crcByte 0xEDB88320 c b
  | 2 => shiftCrc 64 0x42F0E1EBA9EA3693 8 (c ^^^ b * 2 ^ 56)
  | _ => shiftCrc 16 0x1021 8 (c ^^^ b * 2 ^ 8)
/-- Continue a value in final form over bytes. -/
def polyRun (p v : Nat) (bs : List Byte) : Nat := (bs.foldl (fun c b => polyByte p c b.toNat) (v ^^^ polyFinal p)) ^^^ polyFinal p

def State.crcAddr (s : State) (e : Nat) : Nat := s.getF (F.CRC_e_ADDR_LO_ADDR e) + s.getF (F.CRC_e_ADDR_HI_ADDR e) * 2 ^ 32
def State.crcLen (s : State) (e : Nat) : Nat := s.getF (F.CRC_e_LEN_LO_LEN e) + s.getF (F.CRC_e_LEN_HI_LEN e) * 2 ^ 32
def State.crcVal (s : State) (e : Nat) : Nat := s.getF (F.CRC_e_VAL_LO_VAL e) + s.getF (F.CRC_e_VAL_HI_VAL e) * 2 ^ 32
def State.setCrcRange (s : State) (e a n : Nat) : State :=
  (((s.setF (F.CRC_e_ADDR_LO_ADDR e) a).setF (F.CRC_e_ADDR_HI_ADDR e) (a / 2 ^ 32)).setF (F.CRC_e_LEN_LO_LEN e) n).setF (F.CRC_e_LEN_HI_LEN e) (n / 2 ^ 32)
def State.setCrcVal (s : State) (e v : Nat) : State := (s.setF (F.CRC_e_VAL_LO_VAL e) v).setF (F.CRC_e_VAL_HI_VAL e) (v / 2 ^ 32)
/-- An error of a start: set, and recorded with the engine (R471). -/
def State.crcError (s : State) (e err : Nat) : State := (s.setF (F.CRC_e_CTRL_ERR e) err).record 0x07 (0x90 + err) e
/-- Scan `n` bytes in ascending order by pieces of up to 8: where it ended, the value, the error (0 none). -/
def scanRange (p : Nat) : Nat → Nat → Nat → Nat → State → State × Nat × Nat × Nat
  | 0, a, _, v, s => (s, a, v, 0)
  | k + 1, a, n, v, s =>
    if n = 0 then (s, a, v, 0)
    else
      let m := min n (8 - a % 8)
      match s.scanPiece a m with
      | (s, .error err) => (s, a, v, err)
      | (s, .ok bs) => scanRange p k (a + m) (n - m) (polyRun p v bs) s
/-- A scan begins: without CONT from the polynomial's initial value, or from one that is given. -/
def State.beginScan (s : State) (e : Nat) (owned cont : Bool) (init : Nat) : State :=
  let p := s.getF (F.CRC_e_CTRL_POLY e)
  let s := if cont then s else s.setCrcVal e ((init ^^^ polyFinal p) % 2 ^ polyWidth p)
  (((s.setF (F.CRC_e_CTRL_BUSY e) 1).setF (F.CRC_e_CTRL_OWNED e) owned.toNat).setF (F.CRC_e_CTRL_ERR e) 0).setF (F.CRC_e_CTRL_START e) 1
/-- CRC_START: a write of CRC_e_CTRL with START. -/
def execCrcStart (e : Nat) (v : Word32) (s : State) : Host.Outcome State Fault Refusal :=
  .next (if 8 ≤ e then s
    else if s.flag (F.CRC_e_CTRL_OWNED e) then s.crcError e 4
    else if s.flag (F.CRC_e_CTRL_BUSY e) then s.recordNoEffect (R.CRC_e_CTRL e)
    else
      let s := s.putRw (R.CRC_e_CTRL e) v.toNat
      s.beginScan e false (s.flag (F.CRC_e_CTRL_CONT e)) (polyInit (s.getF (F.CRC_e_CTRL_POLY e))))
/-- CRC_STOP: a write of CRC_e_CTRL with STOP; an engine that CRC_SCAN holds is not driven by its registers. -/
def execCrcStop (e : Nat) (s : State) : Host.Outcome State Fault Refusal :=
  .next (if 8 ≤ e then s
    else if s.flag (F.CRC_e_CTRL_BUSY e) && !s.flag (F.CRC_e_CTRL_OWNED e) then s.setF (F.CRC_e_CTRL_STOP e) 1
    else s.recordNoEffect (R.CRC_e_CTRL e))
/-- Codes of CRC_SCAN for an error (R455). -/
def scanCode (err : Nat) : Code := match err with | 0 => ccOk | 1 => ccFormat | 2 => ccDenied | _ => ccIo
/-- CRC_SCAN_END: a scan ends: at the end of its range, at its first failing read, or, once stopped, at the next 64-byte boundary
after the `passed` bytes it has read. -/
def execCrcScanEnd (e passed : Nat) (s : State) : Host.Outcome State Fault Refusal :=
  .next (if e < 8 && s.flag (F.CRC_e_CTRL_BUSY e) then
      let a := s.crcAddr e
      let n := s.crcLen e
      let upto := if s.flag (F.CRC_e_CTRL_STOP e) then min n (ceilDiv (a + passed) 64 * 64 - a) else n
      let owned := s.flag (F.CRC_e_CTRL_OWNED e)
      match scanRange (s.getF (F.CRC_e_CTRL_POLY e)) (upto / 8 + 2) a upto (s.crcVal e) s with
      | (s, stop, v, err) =>
        let s := (s.setCrcVal e v).setCrcRange e stop (a + n - stop)
        let s := ((((s.setF (F.CRC_e_CTRL_BUSY e) 0).setF (F.CRC_e_CTRL_OWNED e) 0).setF (F.CRC_e_CTRL_STOP e) 0).setF (F.CRC_e_CTRL_START e) 0)
        let s := if err = 0 then s else s.crcError e err
        if owned then s.endBackground 0x13 (scanCode err) (if err = 0 then v else 0) else s
    else s)
/-- CRC_SCAN begins a scan on an engine; it completes with CRC_SCAN_END. -/
def execCrcScan (s : State) : Host.Outcome State Fault Refusal :=
  .next (s.withCmd 0x13 (fun _ => true) (fun c s =>
    let e := c.arg 0 % 8
    if c.arg 0 &&& (0xFFFFFFFF ^^^ 0x1307) != 0 || decide (2 ^ 48 < argAddr c 1 + argAddr c 3) then s.complete c ccFormat
    else if s.bgRuns 0x13 || s.flag (F.CRC_e_CTRL_BUSY e) then s.complete c ccBusy
    else
      let p := bitsOf (c.arg 0) 9 8
      let s := (s.setF (F.CRC_e_CTRL_POLY e) p).setCrcRange e (argAddr c 1) (argAddr c 3)
      let init := if (c.arg 0).testBit 12 then argAddr c 5 % 2 ^ polyWidth p else polyInit p
      (s.beginScan e true false init).beginBackground c))
end Sys2Proof.Machine
end

