-- ==== Sys2Proof/Machine/Power.lean ====
section
/-! DEFINITION. Power states (R421 to R428): entry to HOLD and STANDBY, the wake, the restart, the transitions at round boundaries
(R424), thermal levels (R430), and the tensor-die reset (R431). -/

namespace Sys2Proof.Machine

def State.setPower (s : State) (p : Power) : State := { s with power := p }
def State.pstate (s : State) : Nat := s.getF F.PWR_STATE_STATE
/-- A state is in force: reported, and recorded when it changes (R446). -/
def State.enterState (s : State) (st : Nat) : State :=
  if s.pstate = st then s else ((s.setF F.PWR_STATE_STATE st).record 0x02 st)
/-- A transition toward a state is in progress, or none is. -/
def State.busyToward (s : State) (st : Nat) : State := (s.setF F.PWR_STATE_BUSY 1).setF F.PWR_STATE_TARGET st
def State.settled (s : State) : State := (s.setF F.PWR_STATE_BUSY 0).setF F.PWR_STATE_TARGET s.pstate
/-- Complete the command behind a transition, if one is. -/
def State.answerPower (s : State) (code : Code) : State :=
  match s.power.cmd with
  | some c => (s.setPower { s.power with cmd := none }).complete c code
  | none => s

/-! ### Entry (R425, R255) -/

def State.autoResume (s : State) (t : Nat) : State :=
  if s.tcc.autoResume.contains t then s else { s with tcc := { s.tcc with autoResume := s.tcc.autoResume ++ [t] } }
/-- One batch task at a power entry: paused and saved, or cancelled. A restore in progress is given up: the save area still holds it. -/
def State.entryTask (s : State) (cancel : Bool) (t : Nat) : State :=
  let st := s.taskState t
  if (st = 2 ∨ st = 3 ∨ st = 4) ∧ (cancel ∨ s.savePages t = 0) then
    let asked := findReq t s.tcc.pauseReq
    let s := { s with tcc := { s.tcc with pauseReq := dropReq t s.tcc.pauseReq } }
    (s.answer asked ccState).beginCancel t none
  else if st = 2 then (s.autoResume t).pauseSlot t
  else if st = 3 then s.autoResume t
  else if st = 4 then
    let s := s.autoResume t
    if s.saveFits t then s.beginSave t none else s.failTask t 6 0 (s.slotField t 0x80 4)
  else if st = 7 then
    let s := { s with tcc := { s.tcc with restored := s.tcc.restored.filter (fun x => x != t) } }
    ((s.setTaskState t 6).freeCore t).autoResume t
  else s
def entryTasks (cancel : Bool) : List Nat → State → State
  | [], s => s
  | t :: r, s => entryTasks cancel r (s.entryTask cancel t)
/-- Commands that wait for due rounds are voided (R423). -/
def voidDue : List DueCmd → State → State
  | [], s => s
  | d :: r, s => voidDue r (s.complete d.cmd ccVoided)
/-- What a STANDBY entry ends at once (R423, R427). -/
def State.standbyEnds (s : State) : State :=
  let l := s.host.due
  let s := (voidDue l (s.setDue [])).endDebug.closeAttest
  (s.setSec { s.sec with nonce := none }).refreshSec
/-- Entry to HOLD (1) or STANDBY (2) takes effect: line task cleared, batch tasks stopped, the adaptation step discarded. While an
entry to STANDBY goes on the part is in HOLD. -/
def State.enterPower (s : State) (target : Nat) (c : Option HostCmd) : State :=
  let s := s.clearLine
  let s := (entryTasks false s.placed s).discardPlaced 6
  let s := (s.enterState 1).busyToward target
  let s := s.setPower { s.power with step := .draining, cmd := c, due := none, thenRun := false }
  if target = 2 then s.standbyEnds else s
/-- The saves and every mover descriptor have completed. -/
def State.drained (s : State) : Bool :=
  s.placed.isEmpty && !anyBelow (fun m => !(s.mover m).queue.isEmpty || !(s.mover m).busy.isEmpty) 16
/-- Banks of a slice that are on go to retention (R125); the list of them. -/
def retainBanks (n : Nat) : Nat → State → State
  | 0, s => s
  | b + 1, s =>
    let s := retainBanks n b s
    let target := match s.spad.bankMoves.find? (fun m => m.slice == n && m.bank == b) with | some m => m.target | none => s.bankCode n b
    if target = 0 then (s.setPower { s.power with banks := s.power.banks ++ [n * 32 + b] }).moveBank n b 1 else s
def retainSlices : Nat → State → State
  | 0, s => s
  | n + 1, s => let s := retainSlices n s; if s.unitUsable n then retainBanks n 32 s else s
/-- The clocks of R421 stop. -/
def State.stopClocks (s : State) : State := retainSlices 16 (s.setPower { s.power with stopped := true, banks := [] })
/-- HOLD_CLOCKS_STOPPED: step 4 of R425. -/
def execHoldClocksStopped (s : State) : Host.Outcome State Fault Refusal :=
  .next (if s.power.step = .draining ∧ s.drained = true then
      let s := if s.power.stopped then s else s.stopClocks
      if s.getF F.PWR_STATE_TARGET = 2 then s.setPower { s.power with step := .entering }
      else (s.setPower { s.power with step := .idle }).settled.answerPower ccOk
    else s)

/-! ### STANDBY (R427, R417) -/

def isSlice (a : Nat) : Bool := decide (spadBase ≤ a) && decide (a < spadBase + 16 * sliceSize)
/-- Line-task scratchpad regions that are not confidential: device address, length. -/
def State.copyRegions (s : State) : List (Nat × Nat) :=
  if s.seq.bundle.isNone then []
  else ((List.range 4).map (fun r => let g := s.spadRegion 0 r; (sliceAddr g.slice g.base, g.bound - g.base))).filter
    (fun x => decide (0 < x.2) && !s.confMeets x.1 x.2)
/-- The tensor die loses its slices, accumulators and resident tiles; words of copied regions that were uncorrectable stay so. -/
def State.dropTensor (s : State) : State :=
  let kept := s.copyRegions
  let inCopy := fun (w : Nat) => kept.any (fun x => decide (x.1 ≤ w * 8) && decide (w * 8 < x.1 + x.2))
  { s with mem := s.mem.filter (fun c => !isSlice c.1), memErr := s.memErr.filter (fun c => !isSlice (c.1 * 8) || (c.2 == 2 && inCopy c.1)),
           grid := { occupancy := s.grid.occupancy }, spad := { s.spad with gather := [], writeBack := [], bankMoves := [], inflight := [], slots := [] },
           tt := { s.tt with last := none, marks := [], running := false, marked := false },
           raster := { s.raster with dl := {} } }
/-- Zeroise confidential DRAM regions in SECURED, unless the bundle keeps them (R417). -/
def State.standbyZero (s : State) : State :=
  match s.seq.bundle with
  | some b => if s.lc = 2 ∧ b.retain = false then zeroRegions (s.sec.conf.filter (fun r => !isSlice r.1)) s else s
  | none => s
/-- The part is in STANDBY, its tensor rails off. -/
def State.toStandby (s : State) : State :=
  let s := s.setPower { s.power with copy := s.copyRegions.map (fun x => (x.1, s.memBytes x.1 x.2)), modules := s.getF F.DL_STATUS_DL0_UP + 2 * s.getF F.DL_STATUS_DL1_UP }
  let s := (s.standbyZero).dropTensor
  let s := ((s.setModules 0).setF F.HUB_ACLK_LOCK 0).appendLedger
  let s := s.setPower { s.power with step := .idle, tpwrEn := false, tpwrOk := false, tensorOff := true, stopped := true }
  ((s.enterState 2).setF F.PWR_STATE_THERM_HOLD 0).settled
/-- STANDBY_ENTRY_COMPLETE. -/
def execStandbyEntryComplete (s : State) : Host.Outcome State Fault Refusal :=
  .next (if s.power.step = .entering then s.toStandby.answerPower ccOk else s)

/-! ### The wake (R428) -/

/-- The wake begins at the acceptance of its command. -/
def State.beginWake (s : State) (c : Option HostCmd) (run : Bool) (due : Option Nat) : State :=
  (s.setPower { s.power with step := .waking, cmd := c, due := due, thenRun := run, tpwrEn := true }).busyToward (if run then 0 else 1)
/-- A wake that does not come to HOLD: the part is back in STANDBY. -/
def State.endWake (s : State) (code : Code) : State :=
  let s := (s.setModules 0).setF F.HUB_ACLK_LOCK 0
  (s.setPower { s.power with step := .idle, tpwrEn := false, tpwrOk := false, due := none, thenRun := false }).settled.answerPower code
/-- TPWR_OK_RISE: the tensor rails are good; the ACLK PLL locks. -/
def execTpwrOkRise (s : State) : Host.Outcome State Fault Refusal :=
  .next (if s.power.tpwrEn then (s.setPower { s.power with tpwrOk := true }).setF F.HUB_ACLK_LOCK 1 else s)
/-- TPWR_OK_TIMEOUT during a wake: no die-link module returns, and the part stays in STANDBY. -/
def State.wakeTimeout (s : State) : State :=
  if s.power.step = .waking ∧ s.power.tpwrOk = false then (s.record 0x03 0).endWake ccState else s
/-- Banks that were on or in retention are filled with zeros and set on. -/
def wakeBanks (n : Nat) : Nat → State → State
  | 0, s => s
  | b + 1, s =>
    let s := wakeBanks n b s
    if s.bankCode n b = 2 then s else (s.setBankCode n b 0).setF ⟨R.SPAD_n_BANK n, b, b⟩ 1
def wakeSlices : Nat → State → State
  | 0, s => s
  | n + 1, s => let s := wakeSlices n s; if s.unitUsable n then wakeBanks n 32 s else s
def restoreCopy : List (Nat × List Byte) → State → State
  | [], s => s
  | (a, bs) :: r, s => restoreCopy r (s.putMem a bs)
/-- Sections that were zeroised or lost are decrypted again from their copies; false when a tag fails (R417). -/
def restoreSealed (slicesOnly : Bool) : List (Nat × List Byte × List Byte × Nat) → State → State × Bool
  | [], s => (s, true)
  | (key, aad, bs, a) :: r, s =>
    if slicesOnly && !isSlice a then restoreSealed slicesOnly r s
    else
      let n := bs.length - 28
      match gcmOpen (s.aesKey key) (bs.take 12) aad ((bs.drop 12).take n) (bs.drop (12 + n)) with
      | some p => restoreSealed slicesOnly r (s.writeDev a p)
      | none => (s, false)
def State.restoreBundle (s : State) : State :=
  match s.seq.bundle with
  | none => s
  | some b =>
    match restoreSealed (s.lc != 2 || b.retain) b.sealed s with
    | (s, true) => s
    | (s, false) => s.unload.record 0x01 0
/-- Channels named by a mask are out of service. -/
def loseChannels (m : Nat) : Nat → State → State
  | 0, s => s
  | c + 1, s => let s := loseChannels m c s; if m.testBit c then s.setF (F.MC_CHc_STAT_STATE c) 3 else s
/-- Steps 2 to 7 of the wake. Masks name the cores, quarters, die-link modules and channels that fail to return. -/
def State.wake (s : State) (cores quarters modules channels : Nat) : State :=
  let s := s.setModules (clearMask s.power.modules modules)
  let s := loseChannels channels 16 s
  let copy := s.power.copy
  let s := s.setPower { s.power with lostCores := s.power.lostCores ||| cores, lostQuarters := s.power.lostQuarters ||| quarters,
                                     tensorOff := false, copy := [] }
  ((restoreCopy copy (wakeSlices 16 s)).restoreBundle).zeroLineContexts
/-- HOLD after a wake. -/
def State.holdAfterWake (s : State) : State := (s.enterState 1).stopClocks
/-- The clocks restart, and the banks that HOLD retained return to on (R426). -/
def resumeBanks : List Nat → State → State
  | [], s => s
  | k :: r, s => resumeBanks r (s.moveBank (k / 32) (k % 32) 0)
def State.restartClocks (s : State) : State :=
  let l := s.power.banks
  (resumeBanks l (s.setPower { s.power with stopped := false, banks := [], step := .restarting })).busyToward 0
/-- RUN is in force. -/
def State.toRun (s : State) : State :=
  ((s.setPower { s.power with step := .idle, due := none, thenRun := false }).enterState 0 |>.setF F.PWR_STATE_THERM_HOLD 0).settled
/-- WAKE_COMPLETE: the wake's steps are done; HOLD follows at the next boundary, or at once with no lead domain enabled. -/
def execWakeComplete (cores quarters modules channels : Nat) (s : State) : Host.Outcome State Fault Refusal :=
  .next (if s.power.step = .waking ∧ s.power.tpwrOk = true then
      if clearMask s.power.modules modules % 4 = 0 then (s.record 0x03 0).endWake ccState
      else
        let s := s.wake cores quarters modules channels
        if (s.dom s.leadDom).on then s.setPower { s.power with step := .woken }
        else
          let s := s.holdAfterWake.publishLoss
          if s.power.thenRun then s.restartClocks.toRun.answerPower ccOk
          else (s.setPower { s.power with step := .idle }).settled.answerPower ccOk
    else s)

/-! ### Round boundaries of the lead domain (R424) -/

/-- A SET_POWER to RUN is due at a round. -/
def State.runDueAt (s : State) (r : Nat) : Bool :=
  (s.power.thenRun && (match s.power.due with | some d => decide (d ≤ r) | none => false)) ||
  s.host.due.any (fun d => d.cmd.opcode == 0x10 && d.cmd.arg 0 % 4 == 0 && !(d.cmd.arg 0).testBit 8 && decide (d.round ≤ r))
/-- What a boundary does for the transition in progress, before the commands due at it. -/
def State.powerBoundary (s : State) (r : Nat) : State :=
  let s := if s.power.step = .waking ∧ s.runDueAt (r + 1) = true then s.endWake ccLate else s
  let s := if s.power.step = .woken then
      let s := (s.setPower { s.power with step := .idle }).holdAfterWake
      if s.power.thenRun then s.setPower { s.power with due := some (s.power.due.getD (r + 2)) }
      else s.settled.answerPower ccOk
    else s
  let s := if s.power.critical && s.pstate == 0 then
      (({ s with power := { s.power with critical := false } }).enterPower 1 none).setF F.PWR_STATE_THERM_HOLD 1 else s
  if s.pstate = 1 ∧ s.power.step = .idle ∧ s.runDueAt (r + 1) = true then s.restartClocks
  else if s.power.step = .restarting ∧ s.power.thenRun = true ∧ s.runDueAt r = true then s.toRun.answerPower ccOk
  else s
/-- A SET_POWER takes effect at the boundary of its due round, or at its acceptance with no lead domain enabled. -/
def State.applyPower (s : State) (c : HostCmd) : State :=
  let t := c.arg 0 % 4
  if t = s.pstate ∧ s.power.step = .idle then s.complete c ccOk
  else if t = 0 then
    if s.power.step = .restarting then s.toRun.complete c ccOk
    else if s.pstate = 1 ∧ s.power.step = .idle ∧ (s.dom s.leadDom).on = false then s.restartClocks.toRun.complete c ccOk
    else s.complete c ccState
  else if s.power.step ≠ .idle ∨ s.pstate = 2 then s.complete c ccState
  else if t = 2 ∧ (s.bgRuns 0x14 = true ∨ s.bgRuns 0x17 = true) then s.complete c ccBusy
  else s.enterPower t (some c)
/-- Bank states of a slice (R124): refused where a bank of a line-task region of a started bundle would not stay on, and for the
reserved code. -/
def State.applyBanks (s : State) (c : HostCmd) : State :=
  let n := c.arg 1
  let code := fun (b : Nat) => if b < 16 then bitsOf (c.arg 2) (2 * b + 1) (2 * b) else bitsOf (c.arg 3) (2 * (b - 16) + 1) (2 * (b - 16))
  let held := fun (b : Nat) => s.seq.started && (List.range 4).any (fun r =>
    let g := s.spadRegion 0 r
    g.slice == n && decide (g.base < g.bound) && decide (g.base < (b + 1) * 0x20000) && decide (b * 0x20000 < g.bound))
  if badCodes (c.arg 2) || badCodes (c.arg 3) then s.complete c ccFormat
  else if (List.range 32).any (fun b => code b != 0 && held b) || s.power.stopped then s.complete c ccState
  else ((s.writePwr n false (c.arg 2) .rulebook).writePwr n true (c.arg 3) .rulebook).complete c ccOk

/-! ### Thermal levels (R430) -/

/-- A temperature as two's complement. -/
def State.temp (s : State) : Int := signedOf 8 (s.getF F.PWR_THERM_TEMP)
def State.warnLevel (s : State) : Nat := max 60 (min 105 (s.getF F.PWR_THERM_WARN))
/-- TEMP reports a new reading of the hottest sensor; MAX follows. -/
def State.setTemp (s : State) (t : Int) : State :=
  let old := signedOf 8 (s.getF F.PWR_THERM_MAX)
  let s := s.setF F.PWR_THERM_TEMP (wrapTo 8 t)
  s.setF F.PWR_THERM_MAX (wrapTo 8 (max old t))
/-- THERMAL_WARNING: TEMP rises to the reading `t`, at WARN or above. -/
def execThermalWarning (t : Int) (s : State) : Host.Outcome State Fault Refusal :=
  .next (let rises := decide (s.temp < Int.ofNat s.warnLevel) && decide (Int.ofNat s.warnLevel ≤ t)
    let s := s.setTemp t
    if rises then (s.record 0x02 0).raiseIrq 3 else s)
/-- THERMAL_CRITICAL: at 110 °C HOLD is entered at the next round boundary, or at once with no lead domain enabled. -/
def execThermalCritical (s : State) : Host.Outcome State Fault Refusal :=
  .next (let s := (s.setTemp (max s.temp 110)).record 0x02 1
    if s.pstate ≠ 0 then
      if s.power.step = .restarting then
        (s.setPower { s.power with step := .idle, due := none, thenRun := false }).stopClocks.settled.answerPower ccState
      else s
    else if (s.dom s.leadDom).on then { s with power := { s.power with critical := true } }
    else (s.enterPower 1 none).setF F.PWR_STATE_THERM_HOLD 1)

/-! ### The tensor-die reset (R431) -/

/-- A batch task is cancelled whole: nothing of it is left in flight. -/
def State.killTask (s : State) (t : Nat) : State :=
  let s := if s.taskState t = 10 then s else s.beginCancel t none
  let r := findReq t s.tcc.cancelReq
  let s := { s with tcc := { s.tcc with cancelReq := dropReq t s.tcc.cancelReq, pauseReq := dropReq t s.tcc.pauseReq, saveReq := dropReq t s.tcc.saveReq } }
  (((s.setTaskState t 11).freeCore t).answer r 0).taskRecord t 9
def killTasks : List Nat → State → State
  | [], s => s
  | t :: r, s => killTasks r (s.killTask t)
/-- The outcome of R431: a STANDBY entry in which batch tasks are cancelled, a wake into HOLD, and an UNLOAD, in one step. -/
def State.tensorReset (s : State) : State :=
  let s := (s.clearLine).discardPending 6
  let s := killTasks s.placed { s with movers := [], grid := { s.grid with units := [] }, tcc := { s.tcc with chains := [] } }
  let s := s.standbyEnds.answerPower ccVoided
  let s := s.setPower { s.power with step := .idle, due := none, thenRun := false, critical := false }
  let s := if s.pstate = 2 then s else (s.enterState 1).toStandby
  let s := ((s.setPower { s.power with tpwrEn := true, tpwrOk := true }).setF F.HUB_ACLK_LOCK 1).wake 0 0 0 0
  let s := (s.holdAfterWake.settled).unload
  (s.setF F.PWR_CAUSE_LAST 4).record 0x02 4
/-- TPWR_OK_FALL while TPWR_EN is high: a tensor-die reset (R465). -/
def execTpwrOkFall (s : State) : Host.Outcome State Fault Refusal := .next (if s.power.tpwrEn && s.power.tpwrOk then s.tensorReset else s)

end Sys2Proof.Machine
end

