-- ==== Sys2Proof/Machine/HostCmds.lean ====
section
/-! DEFINITION. The commands of the command reference (R383) but for those of the fabric: what each checks, applies at once, or
leaves waiting for its due round. `io` says that a read or write of host memory fails. -/

namespace Sys2Proof.Machine

/-! ### Session -/

/-- The agreed level: the lower of the host's and the part's, which is 1. -/
def agreeLevel (host : Nat) : Nat := min host 1
/-- HELLO: levels are agreed; one of a boot image leaves CMD_LEVEL unchanged (R375). -/
def execHello (s : State) : Host.Outcome State Fault Refusal :=
  .next (s.withCmd 0x01 (fun _ => true) (fun c s =>
    let set := agreeLevel (c.arg 0 % 256)
    let yuben := agreeLevel (c.arg 0 / 256 % 256)
    let s := if c.origin = .boot then s
      else ((s.setF F.CMD_LEVEL_CMDSET set).setF F.CMD_LEVEL_YUBEN yuben).setF F.CMD_LEVEL_AGREED 1
    s.complete c ccOk (set + yuben * 2 ^ 8 + 2 ^ 16 + 2 ^ 24)))
/-- The 64 bytes of CAPS. -/
def State.capsBlock (s : State) : List Byte :=
  ([R.SYS_ID, R.HUB_YUBEN, R.HUB_CAPGEN, R.HUB_CAP0, R.HUB_CAP1, R.HUB_CAP2, R.HUB_CAP3, R.ACC_ROWS, R.SPAD_SLICE_BYTES, R.HUB_ACLK,
    R.FAB_COORD, R.FAB_WALL].map (fun r => leBytes 4 (s.reg r).toNat)).flatten ++
  leBytes 4 s.lc ++ leBytes 4 ((s.reg R.CMD_LEVEL).toNat % 65536) ++ leBytes 8 0
def execCaps (io : Bool) (s : State) : Host.Outcome State Fault Refusal :=
  .next (s.withCmd 0x02 (fun _ => true) (fun c s =>
    match s.writeArg c io (argAddr c 0) s.capsBlock with
    | (s, ok) => s.complete c (if ok then ccOk else ccIo)))

/-! ### Bundle and start -/

def execLoadBundle (io : Bool) (s : State) : Host.Outcome State Fault Refusal :=
  .next (s.withCmd 0x03 (fun _ => true) (fun c s => s.loadBundle c io))
def execUnload (s : State) : Host.Outcome State Fault Refusal :=
  .next (s.withCmd 0x04 (fun _ => true) (fun c s =>
    if s.seq.bundle.isNone then s.complete c ccState else s.acceptDue c s.leadDom [] (fun s => s.applyUnload c)))
def execStartAt (s : State) : Host.Outcome State Fault Refusal :=
  .next (s.withCmd 0x05 (fun _ => true) (fun c s =>
    match s.startCheck with
    | .error k => s.complete c k
    | .ok _ => s.acceptDue c s.leadDom [] (fun s => s.applyStart c)))
def execStopAt (s : State) : Host.Outcome State Fault Refusal :=
  .next (s.withCmd 0x06 (fun _ => true) (fun c s =>
    if s.seq.started then s.acceptDue c s.leadDom [] (fun s => s.applyStop c) else s.complete c ccState))

/-! ### Streams -/

/-- The streams as settings that are staged leave them. -/
def State.withStaged (s : State) : State := s.raster.staged.foldl (fun s d => s.putBlock d.block) s
/-- The streams as the SET_STREAM commands that wait for a round up to `r` leave them (R293). -/
def State.putWaiting (s : State) (r : Nat) : State :=
  s.host.due.foldl (fun s d => if d.cmd.opcode = 7 ∧ d.round ≤ r then s.putBlock d.block else s) s.withStaged
/-- The code of a SET_STREAM on the configuration that it would change; `s` has the cubes in use when its own is written (R307). -/
def State.streamCode (s base : State) (b : List Byte) : Code :=
  if blockBad b then ccFormat
  else
    let s' := base.putBlock b
    let k := s'.streamsCode (blkStream b) s.startedList
    if k = ccOk then s.cubeCode s' (blkStream b) else k
/-- A SET_STREAM at the boundary of its due round: the checks once more, on the settings in force and staged; then its settings. -/
def State.stageSetStream (s : State) (d : DueCmd) : State :=
  let k := s.streamCode s.withStaged d.block
  if k = ccOk then (s.setOrStage d).complete d.cmd ccOk else s.complete d.cmd k
def execSetStream (io : Bool) (s : State) : Host.Outcome State Fault Refusal :=
  .next (s.withCmd 0x07 (fun _ => true) (fun c s =>
    if c.arg 2 ≠ 2048 then s.complete c ccFormat
    else match s.readArg c io (argAddr c 0) 2048 with
      | none => s.complete c ccIo
      | some b =>
        let t := s.putWaiting (s.dueRound c 2)
        let k := t.streamCode t b
        if k ≠ ccOk then s.complete c k
        else s.acceptDue c (s.blockDom b) b (fun s => s.stageSetStream ⟨c, s.dueRound c 2, 0, b⟩)))
/-- FLIP_SET: a block of as many entries as its header names. -/
def execFlipSet (io : Bool) (s : State) : Host.Outcome State Fault Refusal :=
  .next (s.withCmd 0x08 (fun _ => true) (fun c s =>
    if 64 ≤ c.arg 2 ∨ 2 ^ 48 ≤ argAddr c 4 then s.complete c ccFormat
    else match s.readArg c io (argAddr c 0) 32 with
      | none => s.complete c ccIo
      | some head =>
        match s.readArg c io (argAddr c 0) (32 + 32 * (if fieldAt head 0 1 ≤ 16 then fieldAt head 0 1 else 0)) with
        | none => s.complete c ccIo
        | some b => s.acceptFlip c b (c.arg 2) (c.arg 3) (argAddr c 4)))

/-! ### Tasks (R231 to R235) -/

/-- A reserved bit of a slot image is set, or a field is out of its range. -/
def imageBad (b : List Byte) : Bool :=
  let ctrl := fieldAt b 0 4
  let kind := bitsOf ctrl 15 12
  let tally := fieldAt b 0x8C 4
  let acc := fieldAt b 0x0C 4
  let g := fieldAt b 0xA8 4
  decide (2 ^ 16 ≤ ctrl) || decide (bitsOf ctrl 10 8 < 2) || decide (4 < bitsOf ctrl 10 8) || decide (2 < kind) || bitsOf (fieldAt b 8 4) 31 9 != 0 ||
  acc &&& 0xF800F800 != 0 ||
  (List.range 4).any (fun r => fieldAt b (0x10 + 8 * r) 4 &&& 0x70FE0000 != 0 || fieldAt b (0x14 + 8 * r) 4 &&& 0xFFFE0000 != 0 ||
    fieldAt b (0x30 + 16 * r) 8 &&& 0xFFFF000000000FFE != 0 || fieldAt b (0x38 + 16 * r) 8 &&& 0xFFFF000000000FFF != 0 ||
    !regionPlaced (bitsOf (fieldAt b (0x30 + 16 * r) 8) 47 12 * 4096) (fieldAt b (0x38 + 16 * r) 8)) ||
  bitsOf (fieldAt b 0x78 8) 59 48 != 0 || (fieldAt b 0x78 8).testBit 63 || (ctrl.testBit 11 && fieldAt b 0x88 4 == 0) ||
  bitsOf (fieldAt b 0x70 4) 31 14 != 0 || fieldAt b 0x80 8 % 4096 != 0 ||
  tally &&& 0xFFFFC0C0 != 0 || decide (64 < bitsOf tally 5 0 + bitsOf tally 13 8) ||
  fieldAt b 0x92 2 != 0 || fieldAt b 0x96 2 != 0 || decide (256 < fieldAt b 0x90 1 + fieldAt b 0x91 1) || decide (256 < fieldAt b 0x94 1 + fieldAt b 0x95 1) ||
  !zeroBytes (b.drop 0xB4) || (g % 65536 != 0 && (decide (16 < g / 2 ^ 24) || decide (g / 2 ^ 24 ≤ g / 65536 % 256)))
/-- Units of the grid mode in force, as a mask: the quarters that are present, or the whole grid. -/
def State.unitsInForce (s : State) : Nat := s.stepUnits
/-- The core is absent, or a grid unit does not exist in the mode in force. -/
def State.imageAbsent (s : State) (b : List Byte) : Bool :=
  let units := bitsOf (fieldAt b 8 4) 8 4
  !s.unitUsable (fieldAt b 8 4 % 16) || clearMask units s.unitsInForce != 0
/-- The rows go beyond a unit of the mask (R106). -/
def State.imageRows (s : State) (b : List Byte) : Bool :=
  let acc := fieldAt b 0x0C 4
  (List.range 5).any (fun u => (bitsOf (fieldAt b 8 4) 8 4).testBit u && decide (s.unitRows u < bitsOf acc 10 0 + bitsOf acc 26 16))
/-- A region of an image overlaps a confidential region (R401). -/
def State.imageDenied (s : State) (b : List Byte) : Bool :=
  (List.range 4).any (fun r =>
    let w0 := fieldAt b (0x10 + 8 * r) 4
    let lo := bitsOf w0 16 0 * 64
    let hi := bitsOf (fieldAt b (0x14 + 8 * r) 4) 16 0 * 64
    let d := bitsOf (fieldAt b (0x30 + 16 * r) 8) 47 12 * 4096
    let e := bitsOf (fieldAt b (0x38 + 16 * r) 8) 47 12 * 4096
    (decide (lo < hi) && s.confMeets (sliceAddr (bitsOf w0 27 24) lo) (hi - lo)) || (decide (d < e) && s.confMeets d (e - d)))
def imgGroup (b : List Byte) : Nat := fieldAt b 0xA8 2
/-- The members of a group in one command are all there, each rank once, and a tiled group names one operation and one set of tally
counters (R233). -/
def groupsBad (bs : List (List Byte)) : Bool :=
  bs.any (fun b =>
    let mine := bs.filter (fun x => imgGroup x == imgGroup b)
    let ranks := mine.map (fun x => fieldAt x 0xAA 1)
    imgGroup b != 0 && (mine.length != fieldAt b 0xAB 1 || decide (ranks.eraseDups.length < ranks.length) ||
      mine.any (fun x => fieldAt x 0xAB 1 != fieldAt b 0xAB 1 || bitsOf (fieldAt x 0 4) 15 12 != bitsOf (fieldAt b 0 4) 15 12 ||
        (bitsOf (fieldAt b 0 4) 15 12 == 1 && (fieldAt x 0x78 8 != fieldAt b 0x78 8 || fieldAt x 0x8C 4 != fieldAt b 0x8C 4)))))
/-- A slot image as the Rulebook writes it: READY, with its round, counters and fault fields zero. -/
def slotImage (b : List Byte) (round : Nat) : List Byte :=
  leBytes 1 (fieldAt b 0 1 / 16 * 16 + 1) ++ (b.drop 1).take 0x97 ++ leBytes 8 round ++ leBytes 8 0 ++ (b.drop 0xA8).take 4 ++ leBytes 8 0 ++ List.replicate 76 0#8
def fillSlots (c : HostCmd) : List (Nat × List Byte) → State → State
  | [], s => s
  | (t, b) :: r, s =>
    let s := s.putTable t 0 (slotImage b s.leadRound)
    let s := { s with tcc := { s.tcc with readyFrom := SMap.set (fun _ => 0) s.tcc.readyFrom t (c.accepted + 1) } }
    fillSlots c r { s with host := { s.host with submitters := s.host.submitters ++ [⟨t, if c.flags.testBit 2 then some c.vec else none, c.origin⟩] } }
/-- SUBMIT_TASKS: all or none. -/
def State.submit (s : State) (c : HostCmd) (io : Bool) (bs : List (List Byte)) : State :=
  let slots := s.freeSlots bs.length 16383 1
  let code := firstCode
    [(bs.any imageBad || groupsBad bs || bs.any s.imageRows, ccFormat), (bs.any s.imageAbsent, ccCapability), (bs.any s.imageDenied, ccDenied),
     (bs.any (fun b => imgGroup b != 0 && s.usedSlots.any (fun t => s.slotGroup t == imgGroup b)), ccDuplicate),
     (decide (slots.length < bs.length), ccNoSpace)]
  if code ≠ ccOk then s.complete c code
  else match s.writeArg c io (argAddr c 3) ((slots.map (leBytes 2)).flatten) with
    | (s, false) => s.complete c ccIo
    | (s, true) => (fillSlots c (slots.zip bs) s).complete c ccOk
def execSubmitTasks (io : Bool) (s : State) : Host.Outcome State Fault Refusal :=
  .next (s.withCmd 0x09 (fun _ => true) (fun c s =>
    if c.arg 2 = 0 ∨ 64 < c.arg 2 then s.complete c ccFormat
    else match s.readArg c io (argAddr c 0) (256 * c.arg 2) with
      | none => s.complete c ccIo
      | some bs => s.submit c io (entriesAt bs 0 256 (c.arg 2))))

/-- A command that names a slot: its state must be one of a list, and nothing like it may be asked for already. -/
def State.slotCmdOk (s : State) (t : Nat) (states : List Nat) (asked : List (Nat × Option HostCmd)) : Bool :=
  decide (0 < t) && decide (t < 16384) && states.contains (s.taskState t) && (findReq t asked).isNone
/-- PAUSE_TASK: the pause takes effect at a turn boundary. -/
def execPauseTask (s : State) : Host.Outcome State Fault Refusal :=
  .next (s.withCmd 0x0A (fun _ => true) (fun c s =>
    let t := c.arg 0
    if s.slotCmdOk t [2] s.tcc.pauseReq then { s with tcc := { s.tcc with pauseReq := s.tcc.pauseReq ++ [(t, some c)] } }
    else s.complete c ccState))
def execSaveTask (s : State) : Host.Outcome State Fault Refusal :=
  .next (s.withCmd 0x0B (fun _ => true) (fun c s =>
    let t := c.arg 0
    if s.slotCmdOk t [4] s.tcc.resumeReq && !s.power.stopped then s.beginSave t (some c) else s.complete c ccState))
def execResumeTask (s : State) : Host.Outcome State Fault Refusal :=
  .next (s.withCmd 0x0C (fun _ => true) (fun c s =>
    let t := c.arg 0
    if s.slotCmdOk t [4, 6] s.tcc.resumeReq then { s with tcc := { s.tcc with resumeReq := s.tcc.resumeReq ++ [(t, some c)] } }
    else s.complete c ccState))
/-- CANCEL of a task: at once, or after the save or restore in progress. -/
def execCancel (s : State) : Host.Outcome State Fault Refusal :=
  .next (s.withCmd 0x0D (fun c => c.arg 0 % 4 == 0) (fun c s =>
    let t := c.arg 1
    if s.slotCmdOk t [2, 4, 6] s.tcc.cancelReq then s.beginCancel t (some c)
    else if s.slotCmdOk t [5, 7] s.tcc.cancelReq then { s with tcc := { s.tcc with cancelReq := s.tcc.cancelReq ++ [(t, some c)] } }
    else s.complete c ccState))
/-- CANCEL of a command that waits for its due round. -/
def execCancelCommand (s : State) : Host.Outcome State Fault Refusal :=
  .next (s.withCmd 0x0D (fun c => c.arg 0 % 4 == 1) (fun c s =>
    let mine := fun (d : DueCmd) => d.cmd.seq == c.arg 1 && d.cmd.origin == .host
    match s.host.due.find? mine with
    | some d => ((s.setDue (s.host.due.erase d)).complete d.cmd ccVoided).complete c ccOk
    | none => s.complete c ccState))

/-! ### Adaptation (R272) -/

/-- A sub-command is accepted for its round; what its state forbids then shows at that round. -/
def State.adaptCmd (s : State) (sub : Nat) (block : List Byte) : State :=
  s.withCmd 0x0E (fun c => adSub c == sub) (fun c s => s.acceptDue c s.leadDom block (fun s => s.applyAdapt c block))
def execAdaptCtrlEnable (s : State) : Host.Outcome State Fault Refusal := .next (s.adaptCmd 1 [])
def execAdaptCtrlDisable (s : State) : Host.Outcome State Fault Refusal := .next (s.adaptCmd 2 [])
def execAdaptCtrlCommit (s : State) : Host.Outcome State Fault Refusal := .next (s.adaptCmd 3 [])
def execAdaptCtrlDiscard (s : State) : Host.Outcome State Fault Refusal := .next (s.adaptCmd 4 [])
def execAdaptCtrlReset (s : State) : Host.Outcome State Fault Refusal := .next (s.adaptCmd 5 [])
/-- EXPORT: the host's memory must be writable. -/
def execAdaptCtrlExport (io : Bool) (s : State) : Host.Outcome State Fault Refusal :=
  .next (s.withCmd 0x0E (fun c => adSub c == 6) (fun c s =>
    if io || !s.flag F.PCI_STATUS_BME then s.complete c ccIo else s.acceptDue c s.leadDom [] (fun s => s.applyAdapt c [])))
/-- IMPORT: the image is read at acceptance. -/
def execAdaptCtrlImport (io : Bool) (s : State) : Host.Outcome State Fault Refusal :=
  .next (s.withCmd 0x0E (fun c => adSub c == 7) (fun c s =>
    if s.seq.bundle.isNone then s.complete c ccState
    else if c.arg 5 ≠ setSize s.adaptTable + 4 then s.complete c ccFormat
    else match s.readArg c io (argAddr c 3) (c.arg 5) with
      | none => s.complete c ccIo
      | some b => s.acceptDue c s.leadDom b (fun s => s.applyAdapt c b)))

/-! ### Clock and power (R424, R429) -/

def execSetClock (s : State) : Host.Outcome State Fault Refusal :=
  .next (s.withCmd 0x0F (fun _ => true) (fun c s =>
    let mhz := c.arg 0
    if mhz < 300 ∨ 600 < mhz ∨ mhz % 25 ≠ 0 then s.complete c ccFormat
    else match s.clockCode mhz with
      | .error k => s.complete c k
      | .ok _ => s.acceptDue c s.leadDom [] (fun s => s.applyClock c)))
/-- The state a SET_POWER names is in force, and nothing is on its way to change it. -/
def State.powerSettled (s : State) (t : Nat) : Bool :=
  t == s.pstate && s.power.step == .idle && !s.host.due.any (fun d => d.cmd.opcode == 0x10 && !(d.cmd.arg 0).testBit 8)
/-- An entry waits for its due round, or for the next boundary (R424). -/
def State.acceptEntry (s : State) (c : HostCmd) : State :=
  let d := s.dom s.leadDom
  if c.isDue || !d.on then s.acceptDue c s.leadDom [] (fun s => s.applyPower c)
  else if 64 ≤ s.host.due.length then s.complete c ccNoSpace
  else s.setDue (s.host.due ++ [⟨c, if d.run then d.round + 1 else c.first, s.leadDom, []⟩])
/-- A wake begins at acceptance; one to RUN with a due round is late where R377 says so. -/
def State.acceptWake (s : State) (c : HostCmd) (run : Bool) : State :=
  let d := s.dom s.leadDom
  if c.isDue && !d.on then s.complete c ccState
  else if c.isDue && decide ((if d.run then d.round else d.nextRound) + 2 ^ 24 < c.due) then s.complete c ccFormat
  else if c.isDue && decide (c.due < c.first + 1) then s.complete c ccLate
  else s.beginWake (some c) run (if c.isDue && run then some c.due else none)
/-- The checks of every SET_POWER to a state, before what its state asks for. -/
def State.powerCmd (s : State) (t : Nat) (go : HostCmd → State → State) : State :=
  s.withCmd 0x10 (fun c => !(c.arg 0).testBit 8 && c.arg 0 % 4 == t) (fun c s =>
    if s.powerSettled t then s.complete c ccOk
    else if s.power.step ≠ .idle then s.complete c ccState
    else go c s)
def execSetPowerRun (s : State) : Host.Outcome State Fault Refusal :=
  .next (s.powerCmd 0 (fun c s =>
    if Int.ofNat s.warnLevel ≤ s.temp then s.complete c ccState
    else if s.pstate = 2 then s.acceptWake c true
    else
      let s := s.acceptDue c s.leadDom [] (fun s => s.applyPower c)
      let d := s.dom s.leadDom
      if s.pstate = 1 ∧ s.power.step = .idle ∧ d.run = true ∧ d.start = s.now ∧ s.runDueAt (d.round + 1) = true then s.restartClocks else s))
def execSetPowerHold (s : State) : Host.Outcome State Fault Refusal :=
  .next (s.powerCmd 1 (fun c s => if s.pstate = 2 then s.acceptWake c false else s.acceptEntry c))
def execSetPowerStandby (s : State) : Host.Outcome State Fault Refusal :=
  .next (s.powerCmd 2 (fun c s => if s.bgRuns 0x14 || s.bgRuns 0x17 then s.complete c ccBusy else s.acceptEntry c))
/-- A bank update names a slice that is there. -/
def execSetPowerBanks (s : State) : Host.Outcome State Fault Refusal :=
  .next (s.withCmd 0x10 (fun c => (c.arg 0).testBit 8) (fun c s =>
    if 16 ≤ c.arg 1 then s.complete c ccFormat
    else if !s.unitUsable (c.arg 1) || s.pstate == 2 then s.complete c ccState
    else s.acceptDue c s.leadDom [] (fun s => s.applyBanks c)))

/-! ### Security -/

/-- ATTEST (R405 to R407): `fails` bits of the leaf counter fail to blow. -/
def State.attest (s : State) (c : HostCmd) (io : Bool) (fails : Nat) : State :=
  if s.lc = 3 ∨ s.provisioned = false then s.complete c ccState
  else if c.arg 4 < 3156 then s.complete c ccNoSpace
  else match s.readArg c io (argAddr c 0) 48 with
    | none => s.complete c ccIo
    | some req =>
      if fieldAt req 36 4 ≠ 0 ∨ 64 ≤ fieldAt req 32 4 then s.complete c ccFormat
      else
        let finish := fun (s : State) (a : AttSession) =>
          match s.signReport req a with
          | (out, s) => (match s.writeArg c io (argAddr c 2) out with | (s, _) => s.complete c ccOk)
        match s.sec.att with
        | some a => finish s a
        | none =>
          let addr := fieldAt req 40 8
          let cache := if addr = 0 then (if s.flashDir 1 = 0 then some [] else some (s.flashBytes (s.flashDir 1) cacheMost))
            else s.readArg c io addr cacheMost
          match cache with
          | none => s.complete c ccIo
          | some cache =>
            if 32768 ≤ s.usedLeaves then s.complete c ccNoSpace
            else if !s.flag F.SEC_STATUS_FUSE_PWR || !s.flag F.SEC_STATUS_RNG_OK then s.complete c ccState
            else if !s.cacheOk cache then s.complete c ccFormat
            else match s.blowLeaf fails with
              | (s, none) => (s.refreshSec).complete c ccState
              | (s, some leaf) =>
                let s := s.openAttest leaf cache (addr != 0)
                (match s.sec.att with | some a => finish s a | none => s.complete c ccState)
def execAttest (io : Bool) (fails : Nat) (s : State) : Host.Outcome State Fault Refusal :=
  .next (s.withCmd 0x14 (fun _ => true) (fun c s => s.attest c io fails))
/-- Read the certificate a command carries: none for length 0, or the read fails. -/
def State.readCert (s : State) (c : HostCmd) (io : Bool) (a len : Nat) : Option (Option (List Byte)) :=
  if len = 0 then some none else (s.readArg c io a len).map some
def execDebugUnlock (io : Bool) (s : State) : Host.Outcome State Fault Refusal :=
  .next (s.withCmd 0x15 (fun c => !(c.arg 0).testBit 31) (fun c s =>
    match s.readCert c io (argAddr c 1) (c.arg 3) with
    | none => s.complete c ccIo
    | some cert => match s.unlock (c.arg 0 % 4) cert with
      | (s, k) => s.complete c k))
/-- A fresh nonce becomes the outstanding one (R399, R411). -/
def execDebugNonceRequest (s : State) : Host.Outcome State Fault Refusal :=
  .next (s.withCmd 0x15 (fun c => (c.arg 0).testBit 31) (fun c s =>
    if !s.flag F.SEC_STATUS_RNG_OK then s.complete c ccState
    else
      let n := s.drbg 32
      let s := s.drawFree
      (s.setSec { s.sec with nonce := some n }).refreshSec.complete c ccOk (leNat (n.take 8))))
def execDebugEnd (s : State) : Host.Outcome State Fault Refusal :=
  .next (s.withCmd 0x16 (fun _ => true) (fun c s => if s.sec.debug = none then s.complete c ccState else s.endDebug.complete c ccOk))
/-- PROVISION (R403, R404): the cache goes to host memory, and to boot flash when asked. -/
def State.provision (s : State) (c : HostCmd) (io : Bool) : State :=
  let dir := s.flashDir 1
  let cert := if dir = 0 then [] else cacheCert (s.flashBytes dir cacheMost)
  let out := s.leafCache (if dir ≠ 0 ∧ s.cacheOk (s.flashBytes dir cacheMost) then cert else [])
  if s.lc = 3 ∨ (s.lc ≠ 0 ∧ s.provisioned = false) then s.complete c ccState
  else if 2 ≤ c.arg 0 then s.complete c ccFormat
  else if c.arg 3 < out.length then s.complete c ccNoSpace
  else if (c.arg 0).testBit 0 && dir == 0 then s.complete c ccState
  else match s.writeArg c io (argAddr c 1) out with
    | (s, false) => s.complete c ccIo
    | (s, true) => (if (c.arg 0).testBit 0 then putFlash out dir s else s).complete c ccOk
def execProvision (io : Bool) (s : State) : Host.Outcome State Fault Refusal :=
  .next (s.withCmd 0x17 (fun _ => true) (fun c s => s.provision c io))
/-- The code of a RETIRE that carries a certificate, or none (R415). -/
def State.retireCode (s : State) (cert : Option (List Byte)) : Code :=
  match cert with
  | none => if s.lc = 2 then ccFormat else ccOk
  | some b => firstCode [(!certOk b || certKind b != 0x10, ccFormat), (!s.certAddressed b, ccDenied), (!s.certSigned b, ccSignature)]
def execRetire (io : Bool) (s : State) : Host.Outcome State Fault Refusal :=
  .next (s.withCmd 0x18 (fun _ => true) (fun c s =>
    if s.seq.bundle.isSome || s.lc == 3 then s.complete c ccState
    else if s.bgRuns 0x14 || s.bgRuns 0x17 then s.complete c ccBusy
    else match s.readCert c io (argAddr c 0) (c.arg 2) with
      | none => s.complete c ccIo
      | some cert =>
        let k := s.retireCode cert
        let s := if cert.isSome then (s.setSec { s.sec with nonce := none }).refreshSec else s
        if k = ccOk then s.retire.complete c ccOk else s.complete c k))

end Sys2Proof.Machine
end

