-- ==== Sys2Proof/Machine/Fabric.lean ====
section
/-! DEFINITION. The Pelex fabric: receiving flits (R331 to R336, R343), discovery (R337 to R340), the exported window and remote
accesses (R344), fabric time (R349 to R357), forwarded commands (R347), lost ports (R360). -/

namespace Sys2Proof.Machine

def State.setFab (s : State) (f : Fabric) : State := { s with raster := { s.raster with fab := f } }
def State.fab (s : State) : Fabric := s.raster.fab
/-- Some domain is enabled. -/
def State.anyDomain (s : State) : Bool := (List.range 4).any (fun n => (s.dom n).on)
/-- Ports that are up, and of those the ones that carry traffic. -/
def State.upPorts (s : State) : List Nat := (List.range 4).filter s.portUp
def State.openPorts (s : State) : List Nat := (List.range 4).filter s.portOpen
def opposite (p : Nat) : Nat := (p + 2) % 4
/-- Queue a flit on each of some ports. -/
def sendOn (f : FabFlit) : List Nat → State → State
  | [], s => s
  | p :: r, s => sendOn f r (s.queueFlit p f)
/-- A flit for the peer of a port. -/
def State.peerFlit (s : State) (cls typ arg : Nat) (payload : List Byte) : FabFlit :=
  s.ownFlit cls typ 0 0 arg (payload ++ List.replicate (64 - payload.length) 0#8)

/-! ### A lost port (R336, R360) -/

/-- Forwarded commands that have not been taken and whose route is a port complete with UNREACHABLE. -/
def dropForwards (gone : Forward → Bool) : List Forward → State → State
  | [], s => s
  | w :: r, s => dropForwards gone r (if gone w then s.complete w.cmd ccUnreachable else s)
def State.loseForwards (s : State) (gone : Forward → Bool) : State :=
  let l := s.host.forwards
  dropForwards gone l { s with host := { s.host with forwards := l.filter (fun w => !gone w) } }
/-- Remote transfers in progress that satisfy a test fail. -/
def failRemotes (p : MoverDesc → Bool) : Nat → State → State
  | 0, s => s
  | m + 1, s =>
    let s := failRemotes p m s
    let v := s.mover m
    s.setMover m { v with busy := v.busy.map (fun d => match d.remote with
      | some r => if d.outstanding && mKind d.words != 2 && p d then { d with remote := some { r with failed := true } } else d
      | none => d) }
def MoverDesc.peer (d : MoverDesc) : Nat := match d.remote with | some r => r.dev | none => 0
/-- The port toward a device numbered y * 64 + x. -/
def State.portTo (s : State) (dev : Nat) : Nat := s.routePort (dev % 64) (dev / 64)
/-- A port is lost for a cause of FAB_Pp_LOSS: its flits are dropped and counted, halo slots armed for it are filled, what depends on it
fails, and it is an edge from the next round boundary. -/
def State.losePort (s : State) (p cause : Nat) : State :=
  let x := s.fport p
  let gone := fun (w : Forward) => !w.taken && s.portTo w.dev == p
  let crosses := fun (d : MoverDesc) => s.portTo d.peer == p
  let parent := s.flag F.FAB_PARENT_VALID && s.getF F.FAB_PARENT_PORT == p
  let s := failRemotes crosses 16 (s.loseForwards gone)
  let s := ((s.setFport p {}).bumpF F.FAB_EVT_DROP (x.tx.length + x.replay.length))
  let s := ((s.setF (F.FAB_Pp_STATUS_UP p) 0).setF (F.FAB_Pp_STATUS_LANES p) 0).bumpF (F.FAB_Pp_LOSS_COUNT p)
  let s := (s.setF (F.FAB_Pp_LOSS_CAUSE p) cause).record 0x05 cause p
  let s := { s with rings := { s.rings with halo := s.rings.halo.map (fun (a : HaloArm) => if a.port = p then { a with filling := true } else a) } }
  let s := if parent then (s.setF F.FAB_PARENT_VALID 0).setFab { s.fab with orphan := true } else s
  let s := if (s.dom s.leadDom).run then s.setFab { s.fab with edgeNext := s.fab.edgeNext ++ [p] } else s.setF (F.FAB_Pp_STATUS_EDGE p) 1
  s.unitLost.raiseIrq 2
/-- PORT_LOST: an up port meets a loss condition. -/
def execPortLost (p cause : Nat) (s : State) : Host.Outcome State Fault Refusal :=
  .next (if p < 4 ∧ s.portUp p = true then s.losePort p cause else s)

/-! ### Links (R330, R334, R335) -/

/-- Replay from the first unacknowledged flit: the eighth time without acknowledgement loses the port. -/
def State.replayPort (s : State) (p : Nat) : State :=
  let x := s.fport p
  if x.replay.isEmpty || x.retrain then s
  else if 8 ≤ x.tries then s.losePort p 3
  else (s.setFport p { x with tries := x.tries + 1 }).bumpF (F.FAB_Pp_ERR_REPLAY p)
/-- REPLAY_TIMEOUT: no acknowledgement has come within 1,000 ticks. -/
def execReplayTimeout (p : Nat) (s : State) : Host.Outcome State Fault Refusal :=
  .next (if p < 4 ∧ s.portUp p = true then s.replayPort p else s)
/-- IDLE_SEND: a port that has sent nothing for 256 ticks sends an idle flit. -/
def execIdleSend (p : Nat) (s : State) : Host.Outcome State Fault Refusal :=
  .next (if p < 4 ∧ s.portUp p = true then s.queueFlit p (s.peerFlit 2 0x1F 0 []) else s)
/-- LINK_TRAINED: an enabled port is up at a lane count and the highest common version; with none it is not brought up. A port of a
device that is in a wall is an edge until a JOIN admits it. A device that waits for an image over the fabric asks on it. -/
def execLinkTrained (p lanes version : Nat) (s : State) : Host.Outcome State Fault Refusal :=
  .next (if 4 ≤ p ∨ (s.getF F.FAB_CTRL_PORT_EN).testBit p = false ∨ s.portUp p = true then s
    else if version = 0 then (s.setF (F.FAB_Pp_LOSS_CAUSE p) 5).record 0x05 5 p
    else if !([1, 2, 4].contains lanes) then s
    else
      let s := ((s.setFport p {}).setF (F.FAB_Pp_STATUS_UP p) 1).setF (F.FAB_Pp_STATUS_LANES p) lanes
      let s := (s.setF (F.FAB_Pp_STATUS_MISWIRED p) 0).setF (F.FAB_Pp_STATUS_EDGE p) (s.flag F.FAB_STATUS_JOINED).toNat
      let s := s.setFab { s.fab with edgeNext := s.fab.edgeNext.filter (fun q => q != p) }
      if s.getF F.PWR_BOOT_STEP = 7 ∧ s.power.bootImage = none ∧ 2 ≤ s.getF F.PWR_CAUSE_BOOTSEL then
        s.queueFlit p (s.peerFlit 2 0x0F 0 []) else s)
/-- LANE_RETRAIN: a link that loses lanes stops sending; when it is done it has fewer lanes and resends its replay buffer. -/
def execLaneRetrain (p lanes : Nat) (done : Bool) (s : State) : Host.Outcome State Fault Refusal :=
  .next (if 4 ≤ p ∨ s.portUp p = false then s
    else if !done then s.setFport p { s.fport p with retrain := true }
    else if (s.fport p).retrain && [1, 2].contains lanes && decide (lanes < s.getF (F.FAB_Pp_STATUS_LANES p)) then
      ((s.setFport p ({ s.fport p with retrain := false, samples := [] }).pump).setF (F.FAB_Pp_STATUS_LANES p) lanes).unitLost
    else s)

/-- Flits of a replay buffer that an ACK does not cover. -/
def ackReplay (ack : Nat) (l : List (Nat × FabFlit)) : List (Nat × FabFlit) :=
  match l.dropWhile (fun e => e.1 != ack) with
  | _ :: r => r
  | [] => l
/-- A flit with a good CRC acknowledges, and may ask for a replay. -/
def State.takeAck (s : State) (f : FlitIn) : State :=
  let x := s.fport f.port
  let l := ackReplay f.ack x.replay
  let s := s.setFport f.port ({ x with replay := l, tries := if l.length < x.replay.length then 0 else x.tries }).pump
  if f.nak then s.replayPort f.port else s
/-- A port takes a flit: its CRC is good and its SEQ the next in order. -/
def State.receiveFlit (s : State) (f : FlitIn) : State × Bool :=
  if 4 ≤ f.port ∨ s.portUp f.port = false then (s, false)
  else if !f.crcOk then ((s.setFport f.port { s.fport f.port with nak := true }).bumpF (F.FAB_Pp_ERR_CRC f.port), false)
  else
    let s := s.takeAck f
    let x := s.fport f.port
    let ahead := (f.seq + 4096 - x.rxSeq) % 4096
    if ahead = 1 then (s.setFport f.port { x with rxSeq := f.seq % 4096, nak := false }, true)
    else (s.setFport f.port { x with nak := x.nak || (decide (1 < ahead) && decide (ahead < 2048)) }, false)
/-- What happens to a flit of a type: dropped if its class does not match; local where the type concerns the peer or the destination is
this device; else forwarded with one hop less (R341, R343). -/
def State.arrive (s : State) (f : FlitIn) (cls typ : Nat) (routed : Bool) (deliver : State → State) : State :=
  match s.receiveFlit f with
  | (s, false) => s
  | (s, true) =>
    if f.cls ≠ cls then s.dropFlit
    else if !routed then deliver s
    else if !s.portOpen f.port then s.dropFlit
    else if f.dx % 64 = s.ownX ∧ f.dy % 64 = s.ownY then deliver s
    else
      let p := s.routePort (f.dx % 64) (f.dy % 64)
      if f.hops ≤ 1 || !s.portOpen p then s.dropFlit
      else s.queueFlit p ⟨cls, typ, f.dx % 64, f.dy % 64, f.sx, f.sy, f.hops - 1, f.arg, f.payload⟩
def flitDev (f : FlitIn) : Nat := f.sy % 64 * 64 + f.sx % 64
/-- IDLE. -/
def execIdle (f : FlitIn) (s : State) : Host.Outcome State Fault Refusal := .next (s.arrive f 2 0x1F false (fun s => s))

/-! ### Discovery (R337 to R340) -/

/-- A device key: class, then unique ID. -/
def State.ownKey (s : State) : Nat :=
  (if s.flag F.PWR_CAUSE_ORIGIN then 0 else if s.getF F.PCI_STATUS_WIDTH ≠ 0 then 1 else 2) * 2 ^ 128 + leNat s.uid
def keyBytes (k : Nat) : List Byte := leBytes 16 (k % 2 ^ 128) ++ leBytes 1 (k / 2 ^ 128)
def State.hello (s : State) : FabFlit := s.peerFlit 2 0x08 0 (keyBytes s.ownKey ++ keyBytes s.fab.best)
def State.offer (s : State) : FabFlit := s.peerFlit 2 0x09 0 (leBytes 1 s.ownX ++ leBytes 1 s.ownY ++ leBytes 1 (s.getF F.FAB_STATUS_DEPTH))
def State.acceptFlit (s : State) (kind count : Nat) : FabFlit := s.peerFlit 2 0x0A 0 (leBytes 4 kind ++ leBytes 2 count)
def clearPorts : Nat → State → State
  | 0, s => s
  | p + 1, s =>
    let s := clearPorts p s
    (((s.setF (F.FAB_Pp_STATUS_EDGE p) 0).setF (F.FAB_Pp_STATUS_MISWIRED p) 0).setF (F.FAB_Pp_STATUS_PEER_X p) 0).setF (F.FAB_Pp_STATUS_PEER_Y p) 0
/-- The device is in no wall: its place and its parent are gone. -/
def State.leaveWall (s : State) (keep : Fabric) : State :=
  let s := ((s.setReg R.FAB_STATUS 0#32).setReg R.FAB_COORD 0#32).setReg R.FAB_WALL 0#32
  ((s.setReg R.FAB_PARENT 0#32).setF F.FAB_TIME_LOCK 0).setFab { ports := keep.ports }
/-- A full discovery begins: the election. -/
def State.startDiscovery (s : State) : State :=
  let s := clearPorts 4 (s.leaveWall s.fab)
  let s := s.setFab { s.fab with disc := .electing, best := s.ownKey }
  sendOn s.hello s.upPorts s
/-- Discovery ends without a place in a wall. -/
def State.endUnjoined (s : State) (d : Disc) : State :=
  ((s.setFab { s.fab with disc := d, join := false }).record 0x05 0).endBackground 0x19 ccUnreachable
/-- The device is in the wall: discovery is complete. -/
def State.joinWall (s : State) (count : Nat) (wall : List Nat) : State :=
  let s := ((s.setF F.FAB_WALL_DEVICES count).setF F.FAB_STATUS_JOINED 1).setFab { s.fab with presence := wall }
  ((s.record 0x05 0).raiseIrq 2).endBackground 0x19 ccOk
/-- FABRIC_HELLO: the election goes on, or begins anew; a device with an enabled domain drops the link. -/
def execFabricHello (f : FlitIn) (s : State) : Host.Outcome State Fault Refusal :=
  .next (s.arrive f 2 0x08 false (fun s =>
    if s.anyDomain then s.losePort f.port 6
    else
      let s := if s.fab.disc = .electing then s else s.startDiscovery
      let k := fieldAt f.payload 33 1 * 2 ^ 128 + fieldAt f.payload 17 16
      if k < s.fab.best then
        let s := s.setFab { s.fab with best := k }
        sendOn s.hello (s.upPorts.filter (fun p => p != f.port)) s
      else s))
/-- The subtree counts so far. -/
def countSum (l : List (Nat × Nat)) : Nat := l.foldl (fun a c => a + c.2) 0
/-- Every open port but the parent has told where its device stands: a child with its count, or another device's child by its own offer. -/
def State.subtreeDone (s : State) : Bool :=
  s.openPorts.all (fun p => (s.flag F.FAB_PARENT_VALID && s.getF F.FAB_PARENT_PORT == p) || s.fab.counts.any (fun c => c.1 == p) ||
    (s.fab.offers.any (fun o => o.1 == p) && !s.fab.children.contains p))
/-- The subtree is complete: the parent is told, or the origin's discovery ends. -/
def State.reportSubtree (s : State) (wall : List Nat) : State :=
  if s.fab.disc = .joined ∧ s.fab.reported = false ∧ s.subtreeDone = true then
    let n := 1 + countSum s.fab.counts
    let s := s.setFab { s.fab with reported := true }
    if s.flag F.FAB_STATUS_ORIGIN then s.joinWall n wall else s.queueFlit (s.getF F.FAB_PARENT_PORT) (s.acceptFlit 2 n)
  else s
/-- DISCOVERY_SETTLE: the best key has stood for 2,000,000 ticks. -/
def execDiscoverySettle (s : State) : Host.Outcome State Fault Refusal :=
  .next (if s.fab.disc = .electing then
      if s.fab.best / 2 ^ 128 = 2 then s.endUnjoined .failed
      else if s.fab.best = s.ownKey then
        let s := (s.setF F.FAB_STATUS_ORIGIN 1).setFab { s.fab with disc := .joined }
        (sendOn s.offer s.upPorts s).reportSubtree [0]
      else s.setFab { s.fab with disc := .waiting }
    else s)
/-- Coordinates that an offer on a port implies. -/
def impliedAt (p x y : Nat) : Int × Int :=
  match p with
  | 0 => (coord x, coord y + 1)
  | 1 => (coord x - 1, coord y)
  | 2 => (coord x, coord y - 1)
  | _ => (coord x + 1, coord y)
def inRange (c : Int × Int) : Bool := decide (-32 ≤ c.1) && decide (c.1 ≤ 31) && decide (-32 ≤ c.2) && decide (c.2 ≤ 31)
def State.markEdge (s : State) (p : Nat) : State := (s.setF (F.FAB_Pp_STATUS_EDGE p) 1).record 0x05 0 p
/-- OFFER: `peerPort` is the port of the sender. The first one gives the coordinates; every other is checked. A joined device that a
JOIN lets admit ports notes the offer of its new neighbour. -/
def execOffer (f : FlitIn) (peerPort : Nat) (s : State) : Host.Outcome State Fault Refusal :=
  .next (s.arrive f 2 0x09 false (fun s =>
    let p := f.port
    let x := fieldAt f.payload 0 1 % 64
    let y := fieldAt f.payload 1 1 % 64
    let c := impliedAt p x y
    let own := (coord s.ownX, coord s.ownY)
    let note := fun (s : State) => ((s.setF (F.FAB_Pp_STATUS_PEER_X p) x).setF (F.FAB_Pp_STATUS_PEER_Y p) y).setFab
      { s.fab with offers := s.fab.offers ++ [(p, x, y, fieldAt f.payload 2 1)] }
    if peerPort ≠ opposite p then (s.setF (F.FAB_Pp_STATUS_MISWIRED p) 1).record 0x05 0 p
    else match s.fab.disc with
      | .waiting =>
        if inRange c then
          note (((s.setF F.FAB_COORD_X (wrapTo 6 c.1)).setF F.FAB_COORD_Y (wrapTo 6 c.2)).setFab { s.fab with disc := .offered })
        else s.markEdge p
      | .offered => if c = own then note s else s.markEdge p
      | .joined =>
        if s.portEdge p then
          (if s.fab.join && c == own then (note s).setFab { (note s).fab with joining := s.fab.joining ++ [(p, 0)] } else s)
        else if c = own then (note s).reportSubtree [0] else s.markEdge p
      | _ => s))
/-- The offer that gives the parent: lowest depth, lowest port among equals. -/
def bestOffer (l : List (Nat × Nat × Nat × Nat)) : Option (Nat × Nat) :=
  l.foldl (fun m o => match m with
    | none => some (o.2.2.2, o.1)
    | some b => if o.2.2.2 < b.1 ∨ (o.2.2.2 = b.1 ∧ o.1 < b.2) then some (o.2.2.2, o.1) else some b) none
/-- OFFER_WINDOW_END: parent and depth are fixed 100,000 ticks after the first offer. -/
def execOfferWindowEnd (s : State) : Host.Outcome State Fault Refusal :=
  .next (if s.fab.disc = .offered then
      match bestOffer (s.fab.offers.filter (fun o => s.portOpen o.1)) with
      | none => s
      | some (depth, p) =>
        let s := ((s.setF F.FAB_PARENT_PORT p).setF F.FAB_PARENT_VALID 1).setF F.FAB_STATUS_DEPTH (depth + 1)
        let s := s.setFab { s.fab with disc := .joined, stepNext := true }
        let s := s.queueFlit p (s.acceptFlit 1 0)
        (sendOn s.offer (s.openPorts.filter (fun q => q != p)) s).reportSubtree [0]
    else s)
/-- ACCEPT: a port's device takes this one as its parent, or its subtree is complete. `wall` is the presence map that the origin has
when its discovery ends: the spec gives no flit that carries it. After discovery, new counts go up to the origin. -/
def execAccept (f : FlitIn) (wall : List Nat) (s : State) : Host.Outcome State Fault Refusal :=
  .next (s.arrive f 2 0x0A false (fun s =>
    let p := f.port
    let n := fieldAt f.payload 4 2
    if fieldAt f.payload 0 1 = 1 then
      let s := s.setFab { s.fab with children := (s.fab.children.filter (fun q => q != p)) ++ [p] }
      if s.portEdge p && s.fab.join then s.setFab { s.fab with joining := s.fab.joining ++ [(p, 0)] } else s
    else if fieldAt f.payload 0 1 = 2 then
      let late := s.fab.reported
      let s := s.setFab { s.fab with counts := (s.fab.counts.filter (fun c => c.1 != p)) ++ [(p, n)] }
      if !late then s.reportSubtree wall
      else if s.flag F.FAB_STATUS_ORIGIN then s.joinWall (s.getF F.FAB_WALL_DEVICES + n) wall
      else s.queueFlit (s.getF F.FAB_PARENT_PORT) (s.acceptFlit 2 n)
    else s))
/-- NO_OFFER_TIMEOUT: no offer within 1 s of the election. -/
def execNoOfferTimeout (s : State) : Host.Outcome State Fault Refusal :=
  .next (if s.fab.disc = .waiting then s.endUnjoined .unjoined else s)
/-- FABRIC_DISCOVER FULL. -/
def execFabricDiscoverFull (s : State) : Host.Outcome State Fault Refusal :=
  .next (s.withCmd 0x19 (fun c => c.arg 0 == 0) (fun c s =>
    if s.anyDomain then s.complete c ccState
    else if s.bgRuns 0x19 then s.complete c ccBusy
    else (s.beginBackground c).startDiscovery))
/-- The ports that a JOIN has found become neighbours. -/
def admitPorts : List (Nat × Nat) → State → State
  | [], s => s
  | (p, _) :: r, s => admitPorts r (s.setF (F.FAB_Pp_STATUS_EDGE p) 0)
def State.applyJoin (s : State) (c : HostCmd) : State :=
  ((admitPorts s.fab.joining s).setFab { s.fab with joining := [], join := false }).complete c ccOk
/-- FABRIC_DISCOVER JOIN: a joined device makes offers on its edge ports; any other device waits for one. -/
def execFabricDiscoverJoin (s : State) : Host.Outcome State Fault Refusal :=
  .next (s.withCmd 0x19 (fun c => c.arg 0 == 1) (fun c s =>
    if s.flag F.FAB_STATUS_JOINED then
      let s := sendOn s.offer (s.upPorts.filter s.portEdge) (s.setFab { s.fab with join := true })
      s.acceptDue c s.leadDom [] (fun s => s.applyJoin c)
    else if s.anyDomain || c.isDue then s.complete c ccState
    else if s.bgRuns 0x19 then s.complete c ccBusy
    else
      let s := clearPorts 4 (s.leaveWall s.fab)
      (s.setFab { s.fab with disc := .waiting, join := true, best := s.ownKey }).beginBackground c))

/-! ### Routes and forwarded commands (R342, R347) -/

def putRoutes (b : List Byte) (first : Nat) : Nat → State → State
  | 0, s => s
  | n + 1, s =>
    let s := putRoutes b first n s
    (s.putRw (R.FAB_DETOUR_i_LO (first + n)) (fieldAt b (8 * n) 4)).putRw (R.FAB_DETOUR_i_HI (first + n)) (fieldAt b (8 * n + 4) 4)
def State.applyRoutes (s : State) (c : HostCmd) (b : List Byte) : State := (putRoutes b (c.arg 0) (c.arg 1) s).complete c ccOk
/-- A reserved bit of an entry is set. -/
def routesBad (b : List Byte) (n : Nat) : Bool :=
  (List.range n).any (fun i => imageReserved (R.FAB_DETOUR_i_LO i) 1 (b.drop (8 * i)) || imageReserved (R.FAB_DETOUR_i_HI i) 1 (b.drop (8 * i + 4)))
/-- ROUTE_SET. -/
def execRouteSet (io : Bool) (s : State) : Host.Outcome State Fault Refusal :=
  .next (s.withCmd 0x1A (fun _ => true) (fun c s =>
    if c.arg 1 = 0 ∨ 64 < c.arg 0 + c.arg 1 then s.complete c ccFormat
    else match s.readArg c io (argAddr c 2) (8 * c.arg 1) with
      | none => s.complete c ccIo
      | some b => if routesBad b (c.arg 1) then s.complete c ccFormat else s.acceptDue c s.leadDom b (fun s => s.applyRoutes c b)))
/-- FABRIC_FORWARD: the slot goes to its target as one command flit. -/
def execFabricForward (io : Bool) (s : State) : Host.Outcome State Fault Refusal :=
  .next (s.withCmd 0x1B (fun _ => true) (fun c s =>
    let x := bitsOf (c.arg 0) 5 0
    let y := bitsOf (c.arg 0) 13 8
    if c.arg 0 &&& 0xFFFFC0C0 ≠ 0 ∨ (x = s.ownX ∧ y = s.ownY) then s.complete c ccFormat
    else match s.readArg c io (argAddr c 1) 64 with
      | none => s.complete c ccIo
      | some b =>
        let i := slotCmd b c.origin
        let w : Forward := ⟨c, y * 64 + x, i.opcode, i.tag, if i.flags.testBit 2 then some i.vec else none, false⟩
        { s with host := { s.host with forwards := s.host.forwards ++ [w] } }.sendFlit (s.ownFlit 2 0x0B x y 0 b)))
/-- FABRIC_COMMAND: a slot waits for the next poll point. -/
def execFabricCommand (f : FlitIn) (s : State) : Host.Outcome State Fault Refusal :=
  .next (s.arrive f 2 0x0B true (fun s =>
    { s with host := { s.host with flitSlots := s.host.flitSlots ++ [slotCmd f.payload (.fabric (f.sx % 64) (f.sy % 64) (fieldAt f.payload 0x10 4))] } }))
/-- A record that came in a completion flit. -/
def cplOf (b : List Byte) (seq flags : Nat) (vec : Option Nat) : Cpl :=
  ⟨seq, fieldAt b 4 1, fieldAt b 5 1, flags, fieldAt b 8 4, fieldAt b 0xC 2, fieldAt b 0x10 8, fieldAt b 0x18 8, vec, .host⟩
/-- FABRIC_COMPLETION: the target has taken a forwarded slot, or has completed its command, or sends a task record (R376). -/
def execFabricCompletion (f : FlitIn) (s : State) : Host.Outcome State Fault Refusal :=
  .next (s.arrive f 2 0x0C true (fun s =>
    let b := f.payload
    let tag := fieldAt b 8 4
    let put := fun (s : State) (l : List Forward) => { s with host := { s.host with forwards := l } }
    if (fieldAt b 6 1).testBit 1 then s.pushCpl (cplOf b 0 (fieldAt b 6 1) none)
    else if fieldAt b 4 1 = 0x1B then
      match s.host.forwards.find? (fun w => w.dev == flitDev f && w.tag == tag && !w.taken) with
      | some w => (put s (s.host.forwards.map (fun x => if x = w then { x with taken := true } else x))).complete w.cmd ccOk
      | none => s
    else match s.host.forwards.find? (fun w => w.dev == flitDev f && w.tag == tag && w.opcode == fieldAt b 4 1 && w.taken) with
      | some w => (put s (s.host.forwards.erase w)).pushCpl (cplOf b w.cmd.seq 1 w.vec)
      | none => s))
/-- FORWARD_TIMEOUT: a forwarded slot has not been taken within 1 ms. -/
def execForwardTimeout (seq : Nat) (s : State) : Host.Outcome State Fault Refusal :=
  .next (s.loseForwards (fun w => w.cmd.seq == seq && !w.taken))
/-- FENCE_WRITE: another device writes a fence counter (R347). -/
def execFenceWrite (f : FlitIn) (s : State) : Host.Outcome State Fault Refusal :=
  .next (s.arrive f 2 0x0D true (fun s => s.writeFence (f.arg % 64) (fieldAt f.payload 0 4)))
/-- READY_FLAG: the time source notes a device's flags for a round (R266, R359). -/
def execReadyFlag (f : FlitIn) (s : State) : Host.Outcome State Fault Refusal :=
  .next (s.arrive f 2 0x0E true (fun s =>
    if s.flag F.FAB_STATUS_ORIGIN then s.noteReady (flitDev f) (fieldAt f.payload 0 6) (fieldAt f.payload 6 1 % 4) else s))

/-! ### Data (R344, R345, R348) -/

/-- HALO_WRITE: written into a slice under the windows of its port; never forwarded. -/
def execHaloWrite (f : FlitIn) (s : State) : Host.Outcome State Fault Refusal :=
  .next (s.arrive f 1 0x04 false (fun s =>
    let p := f.port
    if !s.portOpen p || f.dx % 64 != s.ownX || f.dy % 64 != s.ownY || f.sx % 64 != s.getF (F.FAB_Pp_STATUS_PEER_X p) ||
       f.sy % 64 != s.getF (F.FAB_Pp_STATUS_PEER_Y p) || s.power.tensorOff then s.dropFlit
    else s.landHalo p (bitsOf f.arg 24 21) (bitsOf f.arg 20 5 * 64) f.payload))
/-- PIXEL_DATA. -/
def execPixelData (f : FlitIn) (s : State) : Host.Outcome State Fault Refusal :=
  .next (s.arrive f 3 0x14 true (fun s => s.pixelFlit ⟨3, 0x14, f.dx, f.dy, f.sx % 64, f.sy % 64, f.hops, f.arg, f.payload⟩))
/-- Device address of a block of the exported window. -/
def State.exportAddr (s : State) (arg : Nat) : Nat := s.getF F.FAB_EXPORT_BASE * 2 ^ 20 + bitsOf arg 21 0 * 64
/-- An access through the exported window is refused. -/
def State.exportRefuses (s : State) (arg : Nat) (write : Bool) : Bool :=
  let a := s.exportAddr arg
  !s.flag F.FAB_EXPORT_EN || (write && !s.flag F.FAB_EXPORT_WEN) || decide (s.dramEnd < a + 64) || s.confMeets a 64 || s.pstate == 2 ||
  s.stripesLost a 64
def errBit (e : Bool) : Nat := if e then 2 ^ 22 else 0
/-- BULK_WRITE: one block; an acknowledgement when it is asked for. -/
def execBulkWrite (f : FlitIn) (s : State) : Host.Outcome State Fault Refusal :=
  .next (s.arrive f 4 0x18 true (fun s =>
    let no := s.exportRefuses f.arg true
    let s := if no then s.bumpF F.FAB_EVT_REFUSED else (s.writeDram (s.exportAddr f.arg) f.payload).1
    if f.arg.testBit 22 then s.sendFlit (s.ownFlit 4 0x1B f.sx f.sy (errBit no) (List.replicate 64 0#8)) else s))
/-- One response for each block of a read request. -/
def answerReads (f : FlitIn) : Nat → State → State
  | 0, s => s
  | k + 1, s =>
    let s := answerReads f k s
    let arg := bitsOf (f.arg + k) 21 0
    if s.exportRefuses arg false then
      (s.bumpF F.FAB_EVT_REFUSED).sendFlit (s.ownFlit 4 0x1A f.sx f.sy (arg + errBit true) (List.replicate 64 0#8))
    else match s.readDram (s.exportAddr arg) 64 with
      | (s, bs, bad) => (s.traffic (s.exportAddr arg) 64).sendFlit (s.ownFlit 4 0x1A f.sx f.sy (arg + errBit bad) bs)
/-- READ_REQUEST: 1 or 2 blocks. -/
def execReadRequest (f : FlitIn) (s : State) : Host.Outcome State Fault Refusal :=
  .next (s.arrive f 4 0x19 true (fun s => answerReads f (if fieldAt f.payload 0 1 = 2 then 2 else 1) s))
/-- Change the remote transfer of the first descriptor in progress, by mover, that satisfies a test. -/
def updateRemote (p : MoverDesc → Remote → Bool) (g : Remote → Remote) : List Nat → State → State
  | [], s => s
  | m :: r, s =>
    let v := s.mover m
    let hit := fun (d : MoverDesc) => match d.remote with | some x => p d x && mKind d.words != 2 | none => false
    match v.busy.find? hit with
    | some d => s.setMover m { v with busy := v.busy.map (fun x => if x = d then { x with remote := x.remote.map g } else x) }
    | none => updateRemote p g r s
/-- Fabric window address of a block of a device. -/
def windowAddr (dev off : Nat) : Nat :=
  0x10000000000 + ((dev / 64 + 32) % 64 * 64 + (dev % 64 + 32) % 64) * 0x10000000 + off * 64
/-- Every mover that may send a read that waits for room sends it (R127). -/
def sendAllLater : Nat → State → State
  | 0, s => s
  | m + 1, s => let s := sendAllLater m s; sendLater m [] (s.mover m).busy s
/-- READ_RESPONSE. -/
def execReadResponse (f : FlitIn) (s : State) : Host.Outcome State Fault Refusal :=
  .next (s.arrive f 4 0x1A true (fun s =>
    let a := windowAddr (flitDev f) (bitsOf f.arg 21 0)
    sendAllLater 16 <| updateRemote (fun _ r => r.dev == flitDev f && r.need.contains a && !r.failed)
      (fun r => { r with need := r.need.erase a, got := if f.arg.testBit 22 then r.got else mergeBytes r.got a f.payload,
                         failed := r.failed || f.arg.testBit 22 }) (List.range 16) s))
/-- WRITE_ACKNOWLEDGEMENT. -/
def execWriteAcknowledgement (f : FlitIn) (s : State) : Host.Outcome State Fault Refusal :=
  .next (s.arrive f 4 0x1B true (fun s =>
    updateRemote (fun _ r => r.dev == flitDev f && r.ack && !r.failed) (fun r => { r with ack := false, failed := f.arg.testBit 22 }) (List.range 16) s))
/-- FABRIC_RESPONSE_TIMEOUT: the oldest remote access of a mover has had no answer within 1 ms. -/
def execFabricResponseTimeout (m : Nat) (s : State) : Host.Outcome State Fault Refusal :=
  .next (updateRemote (fun d _ => d.outstanding) (fun r => { r with failed := true }) [m] s)

/-! ### Time (R349 to R357) -/

/-- The port on which beacons are accepted: a newly adopted parent, or the parent. -/
def State.beaconPort (s : State) : Option Nat :=
  match s.fab.parentNext with
  | some p => some p
  | none => if s.flag F.FAB_PARENT_VALID then some (s.getF F.FAB_PARENT_PORT) else none
/-- The announcement that a beacon carries. -/
def announceOf (b : List Byte) : Option Announce :=
  let fl := fieldAt b 46 1
  if fl.testBit 0 then some ⟨fieldAt b 40 6, fieldAt b 48 8, fl.testBit 1, fl.testBit 3, fl.testBit 2⟩ else none
def announceBytes (a : Option Announce) : List Byte :=
  match a with
  | some a => leBytes 6 a.round ++ leBytes 1 (1 + a.isRepeat.toNat * 2 + a.commit.toNat * 4 + a.go.toNat * 8) ++ leBytes 1 0 ++ leBytes 8 a.start
  | none => leBytes 16 0
/-- The bytes of a beacon from its TSRC and CORR. -/
def Beacon.bytes (b : Beacon) (tsrc corr : Nat) : List Byte :=
  leBytes 8 b.bseq ++ leBytes 8 tsrc ++ leBytes 4 corr ++ leBytes 1 b.hops ++ leBytes 1 b.ann ++ leBytes 2 0 ++ leBytes 8 b.e ++ leBytes 4 b.l ++
  leBytes 4 b.vt ++ announceBytes b.announce ++ leBytes 8 0
/-- BEACON_SEND: every 1,024 ticks of its counter the time source sends a beacon on each open port. -/
def execBeaconSend (tick : Nat) (s : State) : Host.Outcome State Fault Refusal :=
  .next (if s.flag F.FAB_STATUS_ORIGIN && s.flag F.FAB_STATUS_JOINED && tick % 1024 == 0 then
      let s := { s with now := max s.now tick }
      let n := s.leadDom
      let d := s.dom n
      let vt := if d.run then d.set.vtMin + d.set.vtMax * 65536 else s.vtMin n + s.getF (F.TB_Dn_VTOT_VT_MAX n) * 65536
      let b : Beacon := { bseq := s.fab.bseq + 1, hops := 0, ann := if d.run then d.set.ann else s.getF (F.TB_Dn_CFG_ANNOUNCE n),
                          e := d.next, l := s.turnLen n, vt := vt, announce := s.fab.announce }
      let s := s.setFab { s.fab with bseq := b.bseq, last := some b }
      sendOn (s.peerFlit 0 0x00 0 (b.bytes tick 0)) s.openPorts s
    else s)
/-- The announcement of an accepted beacon is applied if it comes in time and is new (R355). -/
def State.takeAnnounce (s : State) (a : Option Announce) : State :=
  let n := s.leadDom
  let d := s.dom n
  match a with
  | none => s
  | some a =>
    if d.on && d.set.src == 8 && !d.announced.any (fun x => x.start == a.start) && decide (s.now + 2 * s.turnLen n ≤ a.start) then
      s.setDom n { d with announced := d.announced ++ [a] }
    else s
/-- A beacon is accepted: the clock is steered toward it, or the counter steps once; announcements are taken; it is relayed with the link's
delay and this device's residence time, which is free within 100 ticks. `frac` is the time of arrival within its tick, in sixteenths; `wall`
is the presence map, which the spec says beacons announce without giving its place. -/
def State.acceptBeacon (s : State) (p : Nat) (b : List Byte) (frac : Nat) (wall : List Nat) : State :=
  let delay := s.getF (F.FAB_Pp_DELAY_DELAY p)
  let source := fieldAt b 8 8 * 16 + fieldAt b 16 4 + delay
  let steps := s.fab.stepNext && !s.anyDomain
  let diff : Int := if steps then 0 else Int.ofNat (s.now * 16 + frac % 16) - Int.ofNat source
  let s := if steps then { s with now := source / 16 } else s
  let good := if diff.natAbs ≤ 2 then s.fab.good + 1 else 0
  let steer := Config.freeValue s.freeIdx 0 % 51201
  let resides := Config.freeValue s.freeIdx 1 % 1601
  let s := ((s.drawFree.setF F.FAB_TIME_OFS_OFFSET (wrapTo 32 diff)).setF F.FAB_TIME_STEER (wrapTo 16 (Int.ofNat steer - 25600))).setF F.TB_STATUS_FAB_TIME 1
  let s := if 16 ≤ good then s.setF F.FAB_TIME_LOCK 1 else if 1024 < diff.natAbs then s.setF F.FAB_TIME_LOCK 0 else s
  let bseq := fieldAt b 0 8
  let s := if s.fab.last.isSome then s.bumpF F.FAB_TIME_CNT_MISS (bseq - s.fab.bseq - 1) else s
  let m : Beacon := ⟨bseq, s.getF F.FAB_STATUS_DEPTH, fieldAt b 21 1 % 64, fieldAt b 24 8, fieldAt b 32 4, fieldAt b 36 4, announceOf b⟩
  let s := s.setFab { s.fab with bseq := bseq, last := some m, good := good, stepNext := s.fab.stepNext && !steps }
  let s := if s.flag F.FAB_STATUS_JOINED || wall.isEmpty then
      (if wall.isEmpty then s else (s.setF F.FAB_WALL_DEVICES wall.length).setFab { s.fab with presence := wall })
    else s.joinWall wall.length wall
  let s := s.takeAnnounce m.announce
  sendOn (s.peerFlit 0 0x00 0 (m.bytes (fieldAt b 8 8) (fieldAt b 16 4 + delay + resides))) (s.openPorts.filter (fun q => q != p)) s
/-- BEACON: from the parent, or, without one, the first with a newer BSEQ than the last, whose port becomes the parent (R356). -/
def execBeacon (f : FlitIn) (tick frac : Nat) (wall : List Nat) (s : State) : Host.Outcome State Fault Refusal :=
  .next ({ s with now := max s.now tick }.arrive f 0 0x00 false (fun s =>
    let p := f.port
    if s.fab.disc ≠ Disc.joined ∨ s.flag F.FAB_STATUS_ORIGIN = true ∨ s.portOpen p = false then s
    else if s.beaconPort = some p then s.acceptBeacon p f.payload frac wall
    else if s.fab.orphan && decide (s.fab.bseq < fieldAt f.payload 0 8) then
      let s := (s.setF F.FAB_STATUS_DEPTH (fieldAt f.payload 20 1 + 1)).bumpF F.FAB_TIME_CNT_SWITCH
      let s := (s.setFab { s.fab with orphan := false, parentNext := some p }).record 0x05 0 p
      let s := if (s.dom s.leadDom).run then s
        else ((s.setF F.FAB_PARENT_PORT p).setF F.FAB_PARENT_VALID 1).setFab { s.fab with parentNext := none }
      s.acceptBeacon p f.payload frac wall
    else s))
/-- DELAY_REQUEST: answered with the times of receipt and of sending, in 1/16 ticks. -/
def execDelayRequest (f : FlitIn) (rx tx : Nat) (s : State) : Host.Outcome State Fault Refusal :=
  .next (s.arrive f 0 0x01 false (fun s =>
    s.queueFlit f.port (s.peerFlit 0 0x02 0 (f.payload.take 8 ++ leBytes 8 rx ++ leBytes 8 (max rx tx)))))
/-- Sixteen samples give the delay: a free value between the least and the greatest of them (R350). -/
def State.noteDelay (s : State) (p sample : Nat) : State :=
  let x := s.fport p
  let l := x.samples ++ [sample]
  if l.length < 16 then s.setFport p { x with samples := l }
  else
    let lo := l.foldl min sample
    let hi := l.foldl max sample
    ((s.setFport p { x with samples := [] }).setF (F.FAB_Pp_DELAY_DELAY p) (lo + Config.freeValue s.freeIdx 0 % (hi - lo + 1))).drawFree
/-- DELAY_RESPONSE: one exchange, received at `rx`; half of what the round trip took beyond the responder's own time. -/
def execDelayResponse (f : FlitIn) (rx : Nat) (s : State) : Host.Outcome State Fault Refusal :=
  .next (s.arrive f 0 0x02 false (fun s =>
    let b := f.payload
    s.noteDelay f.port (((rx - fieldAt b 0 8) - (fieldAt b 16 8 - fieldAt b 8 8)) / 2)))
/-- PARENT_ABANDON: no beacon from the parent for more than 3,072 ticks. -/
def execParentAbandon (s : State) : Host.Outcome State Fault Refusal :=
  .next (if s.fab.disc = .joined ∧ s.flag F.FAB_STATUS_ORIGIN = false ∧ s.beaconPort ≠ none then
      (s.setF F.FAB_PARENT_VALID 0).setFab { s.fab with orphan := true, parentNext := none }
    else s)
def losePorts (cause : Nat) : List Nat → State → State
  | [], s => s
  | p :: r, s => losePorts cause r (s.losePort p cause)
/-- DETACH: the device drops every link and is in no wall (R357). -/
def execDetach (s : State) : Host.Outcome State Fault Refusal :=
  .next (if s.flag F.FAB_STATUS_JOINED && !s.flag F.FAB_STATUS_ORIGIN then
      let s := losePorts 6 s.upPorts s
      let s := ((s.setF F.FAB_STATUS_DETACHED 1).setF F.FAB_STATUS_JOINED 0).setF F.FAB_TIME_LOCK 0
      ((s.setF F.FAB_PARENT_VALID 0).setFab { s.fab with disc := .unjoined, presence := [], parentNext := none, orphan := false }).record 0x05 6 |>.raiseIrq 2
    else s)

end Sys2Proof.Machine
end

