-- ==== Sys2Proof/Machine/Rounds.lean ====
section
/-! DEFINITION. Rounds: the frame-start decision (R43, R354, R355), the round boundary (R50) and its actions, the tensor-side
timebase (R17, R39, R53), line fetches (R283) and flip decisions (R289). -/

namespace Sys2Proof.Machine

/-! ### Decisions -/

/-- The earliest pending trigger stamped at or before a tick. -/
def earliest (t : Nat) : List Nat → Option Nat
  | [] => none
  | x :: r => if x ≤ t then some (match earliest t r with | some y => min x y | none => x) else earliest t r
/-- The number that the round after this one carries (R41). -/
def Dom.following (d : Dom) : Nat := if d.run then (d.round + 1) % 2 ^ 48 else d.nextRound
/-- The tick at which the boundary `cand` is decided: D of R43, or the last tick at which an announcement counts (R355). -/
def State.decisionTick (s : State) (n : Nat) : Nat :=
  let d := s.dom n
  d.cand - (if d.set.src = 8 then 2 else d.set.ann) * s.turnLen n
/-- What is decided about the boundary `cand`: a round begins there, or none does. -/
def State.decideAt (s : State) (n : Nat) : Option Decision :=
  let d := s.dom n
  let last := d.run && decide (d.start + (d.set.vtMax + 1) * s.turnLen n ≤ d.cand)
  if d.set.src = 8 then
    match d.announced.find? (fun a => a.start == d.cand) with
    | some a => some ⟨d.cand, a.isRepeat, none⟩
    | none => if last then some ⟨d.cand, true, none⟩ else none
  else if d.set.src = 0 then some ⟨d.cand, false, none⟩
  else match earliest (s.decisionTick n) d.trigs with
    | some t => some ⟨d.cand, false, some t⟩
    | none => if last then some ⟨d.cand, true, none⟩ else none
/-- Every device of the wall has sent a bit of its ready flag for a round (R266, R359). -/
def State.allReady (s : State) (round bit : Nat) : Bool :=
  s.raster.fab.presence.all (fun dev => s.raster.fab.ready.any (fun r => r.1 == dev && r.2.1 == round && r.2.2.testBit bit))
/-- The time source announces the round start that it has decided (R355). -/
def State.announceStart (s : State) (n : Nat) (x : Decision) : State :=
  if s.flag F.FAB_STATUS_ORIGIN && n == s.leadDom then
    let r := (s.dom n).following
    s.setFab { s.fab with announce := some ⟨r, x.at_, x.isRepeat, s.allReady r 1, s.allReady r 0⟩ }
  else s
/-- DECISION_TICK: the next undecided boundary of a domain is decided; where no round begins, the next one is looked at. -/
def execDecisionTick (n : Nat) (s : State) : Host.Outcome State Fault Refusal :=
  let d := s.dom n
  .next (if d.on && d.decided.isNone && decide (n < 4) then
      let s := { s with now := max s.now (s.decisionTick n) }
      match s.decideAt n with
      | some x => (s.setDom n { d with decided := some x }).announceStart n x
      | none => s.setDom n { d with cand := d.cand + s.turnLen n }
    else s)

/-! ### The end and the start of a round -/

/-- The round in progress is complete (R47). -/
def State.roundDone (s : State) (n : Nat) : State :=
  let d := s.dom n
  if d.run then
    let s := (s.setF (F.TB_Dn_LAST_REPEAT n) d.isRepeat.toNat).setF (F.TB_Dn_LAST_TURNS n) d.turn
    if d.isRepeat then s.bumpF (F.TB_Dn_COUNT_REPEAT n) else s
  else s
/-- The number of a domain's next round after a stop, until the round registers are written (R41): the last round begun, plus one. A
domain that has begun none since reset keeps what its registers hold (log 194). -/
def Dom.afterStop (d : Dom) : Nat := if d.run || d.ran then (d.round + 1) % 2 ^ 48 else d.nextRound
/-- A domain stops (R472): no grid, no triggers; its counter goes on from the last round unless it is written (R41). -/
def State.stopDom (s : State) (n : Nat) : State :=
  let d := s.dom n
  let s := s.setDom n { round := d.round, isRepeat := d.isRepeat, turn := d.turn, start := d.start, ran := d.ran || d.run,
                        nextRound := d.afterStop, written := d.written && !(d.run || d.ran) }
  if n = s.leadDom then { s with tt := { s.tt with running := false, marked := false, last := none, marks := [] } } else s
/-- TB_Dn_PSPHASE (R300): with fixed cadence a trigger is pending at every tick, and which one decided is open. -/
def State.notePhase (s : State) (n : Nat) (x : Decision) : State :=
  let put := fun (s : State) (v : Nat) => (s.setF (F.TB_Dn_PSPHASE_VALID n) 1).setF (F.TB_Dn_PSPHASE_PHASE n) v
  if x.isRepeat || (s.dom n).set.src == 8 then s
  else match x.stamp with
    | some t => put s (min (x.at_ - t) 0x7FFFFFFF)
    | none => put s.drawFree (Config.freeValue s.freeIdx 0 % 2 ^ 31)
/-- The next round of a domain begins at a decided boundary, with the settings that its registers now give. -/
def State.newRound (s : State) (n : Nat) (x : Decision) : State :=
  let d := s.dom n
  let len := s.turnLen n
  let set := s.domSet n
  let round := match d.announced.find? (fun a => a.start == x.at_) with | some a => (if d.set.src = 8 then a.round else d.following) | none => d.following
  let trigs := if set.src = d.set.src ∧ set.edge = d.set.edge then d.trigs.filter (fun t => decide (x.at_ - d.set.ann * len < t))
    else (d.nextTrigs.filter (fun t => t.1 == set.src && t.2.1 == set.edge && decide (x.at_ ≤ t.2.2))).map (fun t => t.2.2)
  let bmin := x.at_ + (set.vtMin + 1) * len
  (s.notePhase n x).setDom n { d with
    run := true, fresh := true, inTurn := false, round := round, isRepeat := x.isRepeat, start := x.at_, turn := 0, turnStart := x.at_
    set := set, bmin0 := if d.run then d.bmin else x.at_, bmin := bmin, cand := bmin, decided := none, trigs := trigs, nextTrigs := [], written := false, ran := true
    flipsDecided := false, announced := d.announced.filter (fun a => decide (x.at_ < a.start)) }

/-! ### Due commands (R51, R359, R377) -/

/-- Apply one command at the boundary of round `r`; `go` is the wall's decision. -/
def State.applyDue (s : State) (r : Nat) (go : Bool) (d : DueCmd) : State :=
  let c := d.cmd
  if (c.isDue && decide (d.round < r)) || (c.isWall && !go) then s.complete c ccLate
  else match c.opcode with
    | 0x04 => s.applyUnload c
    | 0x05 => s.applyStart c
    | 0x06 => s.applyStop c
    | 0x07 => s.stageSetStream d
    | 0x0E => s.applyAdapt c d.block
    | 0x0F => s.applyClock c
    | 0x10 => if (c.arg 0).testBit 8 then s.applyBanks c else s.applyPower c
    | 0x19 => s.applyJoin c
    | 0x1A => s.applyRoutes c d.block
    | _ => s.complete c ccFormat
/-- Apply the waiting commands of a kind that are due by a round, in order of acceptance; each sees what those before it did. -/
def runDue (r : Nat) (go : Bool) (pick : State → DueCmd → Bool) : Nat → State → State
  | 0, s => s
  | k + 1, s =>
    match s.host.due.find? (fun d => decide (d.round ≤ r) && pick s d) with
    | none => s
    | some d => runDue r go pick k ((s.setDue (s.host.due.erase d)).applyDue r go d)
/-- Step 2 of R50. -/
def isClock (_ : State) (d : DueCmd) : Bool := d.cmd.opcode == 0x0F
/-- An EXPORT is taken after the commit of its boundary (R272). -/
def isExport (_ : State) (d : DueCmd) : Bool := d.cmd.opcode == 0x0E && adSub d.cmd == 6
/-- Step 3 at the lead domain's boundary. -/
def isLeadDue (s : State) (d : DueCmd) : Bool := !isExport s d
/-- Stream settings due at a lead-domain boundary that another domain's boundary meets in its tick. -/
def isDomDue (n : Nat) (s : State) (d : DueCmd) : Bool := d.cmd.opcode == 7 && s.blockDom d.block == n
/-- The staged stream settings that a test picks take effect, in order of acceptance; their cubes and hold buffers are written already. -/
def State.applyStaged (s : State) (pick : DueCmd → Bool) : State :=
  let l := s.raster.staged
  (l.filter pick).foldl (fun s d => s.applyStream d.block)
    { s with raster := { s.raster with staged := l.filter (fun d => !pick d) } }
/-- Step 3 at another domain's boundary: stream settings whose due round has begun, accepted before the flip decision tick (R383). -/
def State.domActions (s : State) (n start before : Nat) : State :=
  let r := s.leadRound + 1
  let meets := match (s.dom s.leadDom).decided with | some x => (s.getF F.TB_CTRL_DOM_EN).testBit s.leadDom && x.at_ == start | none => false
  let s := if meets then runDue r true (isDomDue n) 64 s else s
  s.applyStaged (fun d => d.dom == n && decide (d.cmd.accepted < before))

/-! ### What the lead domain's boundary does besides R50 -/

/-- The imbalance monitor (R151); with no bytes the ratio is open. LAST has 8 bits: a ratio above 255/16 saturates there, the compare with
THRESH takes the ratio itself (log 141). -/
def State.imbalance (s : State) : State :=
  let t := s.mc.traffic
  let busiest := t.foldl (fun m c => max m c.2) 0
  let sum := t.foldl (fun m c => m + c.2) 0
  let ratio := if sum = 0 then Config.freeValue s.freeIdx 0 % 256 else busiest * 16 * s.mc.mapping.length / sum
  let s := ({ (if sum = 0 then s.drawFree else s) with mc := { s.mc with traffic := [] } }).setF F.MC_IMB_LAST (min 255 ratio)
  if s.getF F.MC_IMB_THRESH < ratio then (s.bumpF F.MC_IMB_COUNT).record 0x03 0 else s
/-- The traffic of the round that ends is judged; what passed before a first round belongs to no round. -/
def State.roundTraffic (s : State) (ran : Bool) : State := if ran then s.imbalance else { s with mc := { s.mc with traffic := [] } }
/-- The newest frame of a capture stream whose capture began before a tick (R223, R291). -/
def State.frameBefore (s : State) (n tick : Nat) : Option Nat :=
  ((s.strm n).frames.filter (fun f => decide (f.start < tick))).getLast?.map (fun f => f.id)
/-- The frame of a capture stream that a round binds; of one that is shed, the last bound (R223, R275, R291). -/
def State.bindFrame (s : State) (n tick : Nat) (last : Option Nat) : Option Nat := if s.isShed n then last else s.frameBefore n tick
/-- The tensor side binds the round to the captured frames. -/
def State.bindFrames (s : State) (tick : Nat) : State :=
  let last := fun n => (s.seq.binds.find? (fun b => b.stream == n)).map (fun b => b.frame)
  s.setSeq { s.seq with binds := s.captures.filterMap (fun n => (s.bindFrame n tick (last n)).map (fun id => ⟨n, id⟩)), heldThisRound := [] }
/-- Ports lost in the round are edges; a switched parent is the route to the origin (R356, R360). -/
def edgePorts : List Nat → State → State
  | [], s => s
  | p :: r, s => edgePorts r (s.setF (F.FAB_Pp_STATUS_EDGE p) 1)
def State.fabBoundary (s : State) (r : Nat) : State :=
  let s := match s.fab.parentNext with
    | some p => (s.setF F.FAB_PARENT_PORT p).setF F.FAB_PARENT_VALID 1
    | none => s
  (edgePorts s.fab.edgeNext s).setFab { s.fab with edgeNext := [], parentNext := none, ready := s.fab.ready.filter (fun x => decide (r < x.2.1)) }
/-- What the wall has announced for the round that begins: go, and commit. On a single device every flag is its own. -/
def State.wallWord (s : State) (round at_ : Nat) : Bool × Option Bool :=
  if s.inWall then
    let a := if s.flag F.FAB_STATUS_ORIGIN then s.fab.announce.filter (fun a => a.round == round)
      else (s.dom s.leadDom).announced.find? (fun a => a.start == at_)
    match a with
    | some a => (a.go, some a.commit)
    | none => (false, some false)
  else (true, none)
/-- R50 at the lead domain's boundary: losses and reselection, ACLK, commands, flip sets, adaptation. -/
def State.leadActions (s : State) (n r : Nat) (word : Bool × Option Bool) (isRepeat : Bool) : State :=
  let s := s.moveTraffic.publishLoss.reselect
  let s := runDue r word.1 isClock 64 s
  let s := runDue r word.1 isLeadDue 64 (s.powerBoundary r)
  let s := s.applyStaged (fun d => d.dom == s.leadDom || !(s.dom d.dom).on)
  let s := s.applyFlips n r
  let asked := s.adapt.commits ≠ []
  let s := s.decideStep s.runRoundNow word.2
  let s := runDue r word.1 isExport 64 s
  let s := ((s.advanceWindow s.runRoundNow).repairLive).takeSamples s.runRoundNow isRepeat
  if asked || s.adapt.pend.isNone then s.setAdapt { s.adapt with told := false } else s

/-! ### Line fetches (R283) -/

/-- Registers of an offset range as another state has them. -/
def copyRegs (from_ : State) (off : Nat) : Nat → State → State
  | 0, s => s
  | k + 1, s => copyRegs from_ off k (s.setReg (off + 4 * k) (from_.reg (off + 4 * k)))
/-- The stream and finish registers of a stream as another state has them. -/
def State.copyStream (s from_ : State) (n : Nat) : State := copyRegs from_ (R.FIN_n_CFG n) 32 (copyRegs from_ (R.STR_n_CFG n) 256 s)
/-- A waiting command will be applied by the next boundary of a stream's domain: for a domain that does not lead, one that was accepted
before the flip decision tick and whose round begins by then (R383). -/
def State.dueNext (s : State) (n : Nat) (d : DueCmd) : Bool :=
  let lead := s.dom s.leadDom
  let m := s.dom n
  let r := if n = s.leadDom || decide ((match lead.decided with | some x => x.at_ | none => lead.cand) ≤ m.bmin) then s.leadRound + 1 else s.leadRound
  decide (d.round ≤ r) && (n == s.leadDom || decide (d.cmd.accepted < m.bmin - 18 * s.turnLen n))
/-- What a waiting command sets of a stream: SET_STREAM its block, START_AT the stream setups of the bundle. -/
def State.putDue (s : State) (n : Nat) (d : DueCmd) : State :=
  if d.cmd.opcode = 5 ∧ d.block ≠ [] then (if blkStream d.block = n then s.putBlock d.block else s)
  else if d.cmd.opcode = 7 ∧ blkStream d.block = n then
    if s.dueNext (s.blockDom d.block) d then s.putBlock d.block else s
  else if d.cmd.opcode = 5 ∧ s.dueNext s.leadDom d then
    match s.seq.bundle with
    | some b => (b.setups.filter (fun x => blkStream x == n)).foldl State.putBlock s
    | none => s
  else s
/-- The settings of a stream for the round after this one: commands that wait for it, and flip sets decided for it. -/
def State.nextSettings (s : State) (n : Nat) : State :=
  let flips := s.raster.flips.filter (fun f => f.decided && f.names n)
  let due := s.raster.staged ++ s.host.due
  if due.isEmpty && flips.isEmpty then s
  else s.copyStream (flips.foldl (fun s f => s.putFlips f.entries) (due.foldl (fun s d => s.putDue n d) s)) n
/-- The settings that a stream's fetches follow. -/
def State.fetchRegs (s : State) (n : Nat) : List Nat :=
  ([R.STR_n_CFG n, R.STR_n_SIZE n, R.STR_n_ORDER n, R.FIN_n_CFG n, R.FIN_n_GBASE n, R.FIN_n_GCFG n] ++
    ((List.range 8).map (fun l => (List.range 6).map (fun k => R.STR_n_Ll_CFG n l + 4 * k))).flatten).map (fun a => (s.reg a).toNat)
/-- The tick at or after which line y of a layer may be fetched, for a round whose earliest start is `bmin`. -/
def State.fetchTick (s : State) (n l line bmin : Nat) : Nat :=
  let d := s.strDom n
  bmin + (s.compTurn d + s.fetchTop n l + line) * s.turnLen d - 18 * s.turnLen d
/-- Issue the next fetch of a layer of a stream (8 for the gain map): of the round in progress while it has lines to fetch, else of the
next one under the settings that it will have. A line of a captured frame waits for its notice, any line for a channel that retrains
(R152, R291). -/
def State.fetchLine (s : State) (n l : Nat) : State :=
  let ahead := s.nextSettings n
  let d := s.dom (if s.isOutput n then s.strDom n else ahead.strDom n)
  let x := s.strm n
  let at0 := SMap.get (fun _ => (0, 0)) x.fetchAt l
  let at1 := if !x.fetchAt.any (fun c => c.1 == l) || at0.1 < d.round then (d.round, 0) else at0
  let ended := !s.isOutput n || !s.fetches n l || decide (s.fetchLines n l ≤ at1.2)
  let next := ended && at1.1 == d.round || decide (d.round < at1.1)
  let line := if next && at1.1 == d.round then 0 else at1.2
  let t := if next then ahead else s
  let round := if next then d.following else d.round
  let bmin := if next then d.bmin else d.bmin0
  let cap := t.getF (F.STR_n_Ll_CFG_CAP n l)
  let frame := if l < 8 ∧ t.layerSrc n l = 1 then
      (if next then (t.frameBefore cap (bmin + 1)) else (x.binds.find? (fun b => b.1 == l)).map (fun b => b.2))
    else none
  let waits := l < 8 && t.layerSrc n l == 1 && (match frame with
    | some id => (match (s.strm cap).frame? id with | some f => !f.lines.contains line && (f.isOpen || (s.strm cap).writes.any (fun w => w.frame == id && w.line == line)) | none => false)
    | none => false)
  if !t.isOutput n || !t.fetches n l || decide (s.now < t.fetchTick n l line bmin) || decide (t.fetchLines n l ≤ line) ||
     decide (19 ≤ s.bufferedLines n l) || waits || s.stripesWait (t.lineSpan n l line frame).1 (t.lineSpan n l line frame).2 || (next && (!d.flipsDecided || (s.isOutput n && s.strDom n != t.strDom n))) then s
  else
    let done := fun (s : State) => s.setStrm n { s.strm n with
      fetchAt := SMap.set (fun _ => (0, 0)) (s.strm n).fetchAt l (round, line + 1),
      fetchSet := if next then some (ahead.fetchRegs n) else (s.strm n).fetchSet }
    match t.readLayerLine n l line frame with
    | none => done s
    | some (t, bs, bad) =>
      let t := if next then t.copyStream s n else t
      done (t.toRaster (.layerLine round n l line frame bs bad) bs.length)
/-- LAYER_FETCH_ISSUE. -/
def execLayerFetchIssue (stream layer : Nat) (s : State) : Host.Outcome State Fault Refusal :=
  let dom := if s.isOutput stream then s.strDom stream else (s.nextSettings stream).strDom stream
  .next (if decide (stream < 64) && decide (layer < 9) && (s.dom dom).run && !s.isShed stream && s.pstate != 2 then
      s.fetchLine stream layer
    else s)
def fetchMany (n l : Nat) : Nat → State → State
  | 0, s => s
  | k + 1, s => fetchMany n l k (s.fetchLine n l)
def fetchLayers (n : Nat) : Nat → State → State
  | 0, s => s
  | l + 1, s => fetchMany n l 19 (fetchLayers n l s)
/-- A round begins with other settings of a stream than those that its lines were fetched with ahead of it: the fetches are those of the
settings in force (R283), so the lines whose time has come are read again under them, across the die link; a shed stream reads none. -/
def State.refetch (s : State) (n : Nat) : State :=
  let x := s.strm n
  let s' := s.setStrm n { x with fetchSet := none, changed := false }
  if (match x.fetchSet with | some v => v != s.fetchRegs n | none => x.changed) then
    let drop := fun (m : DlMsg) => match m.body with
      | .layerLine _ k _ _ _ _ _ => if k = n then { m with lost := true } else m
      | _ => m
    let dl := { s'.raster.dl with toRaster := s'.raster.dl.toRaster.map drop }
    let s' := { s' with raster := { s'.raster with dl := dl } }
    let s' := s'.setStrm n { s'.strm n with fetched := [], fetchAt := [] }
    if s.isShed n then s' else fetchLayers n 9 s'
  else s'

/-! ### What every domain's boundary does for its streams -/

/-- A round begins for an output stream; lines fetched for it from a frame that it has not bound are fetched again. -/
def State.streamRound (s : State) (n round tick : Nat) : State :=
  let x : StreamRt := s.strm n
  let last := fun i => (x.binds.find? (fun b => b.1 == i)).map (fun b => b.2)
  let binds := ((s.layersOf n).filter (fun l => l.src == 1)).filterMap (fun l => (s.bindFrame l.cap tick (last l.idx)).map (fun id => (l.idx, id)))
  let stale := fun (f : FetchedLine) => f.round == round && f.frame.isSome && !binds.any (fun b => b.1 == f.layer && f.frame == some b.2)
  let x := { x with
    tensor := [], hold := none, composed := [], heldLines := [], scan := [], sent := none, wbLines := 0, binds := binds
    fetched := x.fetched.filter (fun f => decide (round ≤ f.round) && !stale f)
    fetchAt := x.fetchAt.filter (fun c => !(x.fetched.filter stale).any (fun f => f.layer == c.1)) }
  ((s.setStrm n x).setF (F.STR_n_STATUS_HOLD n) 0).refetch n
def streamRounds (round tick : Nat) : List Nat → State → State
  | [], s => s
  | n :: r, s => streamRounds round tick r (s.streamRound n round tick)
/-- Streams, rectangles, ports and sync pulses of a domain at its round boundary (R220, R291, R313, R321, R327). -/
def State.pictureRound (s : State) (n : Nat) : State :=
  let d := s.dom n
  let s := streamRounds d.round d.start (s.outputsOf n) s
  let s := (s.dcrBoundary n).portBoundary n 4
  let v := (s.reg R.TB_SYNC_OUT).toNat
  if bitsOf v 25 24 = n ∨ bitsOf s.raster.syncOut 25 24 = n then { s with raster := { s.raster with syncOut := v } } else s
/-- A round of a domain begins with its pending actions. -/
def State.beginRound (s : State) (n : Nat) (x : Decision) : State :=
  let before := (s.dom n).bmin - 18 * s.turnLen n
  let ran := (s.dom n).run
  let s := s.newRound n x
  let r := (s.dom n).round
  let s := if n = s.leadDom then
      let s := s.leadActions n r (s.wallWord r x.at_) x.isRepeat
      let s := ((s.bindFrames x.at_).fabBoundary r).roundTraffic ran
      if s.pstate = 2 then s else s.shed
    else (s.domActions n x.at_ (if ran then before else x.at_ + 1)).applyFlips n r
  if s.pstate = 2 then s else s.pictureRound n
/-- A domain stops at its round boundary (R472); for the lead domain that is the boundary at which losses of its last round are
published (R28, R32). -/
def State.stopAtBoundary (s : State) (n : Nat) : State :=
  if n = s.leadDom then (s.moveTraffic.publishLoss.reselect.imbalance).stopDom n else s.stopDom n
/-- ROUND_BOUNDARY: the decided start of a domain's next round, or its stop (R50, R472). -/
def execRoundBoundary (n : Nat) (s : State) : Host.Outcome State Fault Refusal :=
  let d := s.dom n
  .next (match d.decided with
    | none => s
    | some x =>
      if d.on && x.at_ == d.next && !d.fresh then
        let s := (({ s with now := max s.now x.at_ }).endTurn n []).roundDone n
        if (s.getF F.TB_CTRL_DOM_EN).testBit n then s.beginRound n x else s.stopAtBoundary n
      else s)

/-! ### The tensor-side timebase (R17, R39, R53) -/

/-- Cycle counts are taken from the start of the new turn: those of ACLK edges less the edges of the turn that ends, the cycles that waits
name less its C (R39, R163). -/
def YCtx.nextTurn (c : YCtx) (len edges : Nat) (line : Bool) : YCtx :=
  { c with
    nextIssue := c.nextIssue - edges, divFree := c.divFree - edges
    readyAt := (c.readyAt.map (fun x => (x.1, x.2 - edges))).filter (fun x => x.2 != 0)
    wait := match c.wait with
      | some (.cycle t) => some (.cycle (t - len))
      | some (.edge t) => some (.edge (t - edges))
      | some (.ready p r d) => some (.ready p r (if line then d - len else d))
      | some (.handles p q d) => some (.handles p q (if line then d - len else d))
      | w => w }
/-- R221 before turn 0 of a round: the line task is cleared, and line contexts that faulted begin anew (R181). -/
def resetLine (n : Nat) (s : State) : State :=
  let v := s.vcore n
  let s := s.setVcore n { v with lineStop := false, lateSeen := false }
  if v.lineStop then
    let line := fun (k : Nat) => k / 32 == n * 2
    { s with yu := { s.yu with
        sreg := s.yu.sreg.filter (fun c => !line c.1), vreg := s.yu.vreg.filter (fun c => !line c.1), preg := s.yu.preg.filter (fun c => !line c.1)
        ctxs := s.yu.ctxs.filter (fun c => c.1 != n * 2) } }
  else s
def resetLines : Nat → State → State
  | 0, s => s
  | n + 1, s => resetLine n (resetLines n s)
/-- Before turn 0 of a round (R53, R181, R221, R227). -/
def State.freshRound (s : State) : State :=
  let s := if s.seq.started then s.clearLine else s
  resetLines 16 (s.setSeq { s.seq with stopRound := false, linkLine := [], badMoves := [] })
/-- The turn that starts holds the extra ACLK edge: open at a phase that C does not settle (R39). -/
def State.extraEdge (s : State) : Bool :=
  s.turnLen s.leadDom * s.getF F.HUB_ACLK_MHZ % 1000 != 0 && Config.freeValue s.freeIdx 0 % 2 == 1
/-- The tensor side starts a turn: its position, the cycle count, the TCC's boundary (R236), halted cores that go on (R408). -/
def State.startTurn (s : State) (m : Mark) (marked : Bool) : State :=
  let len := s.turnLen s.leadDom
  let cycles := s.budget
  let edges := cycles + s.tt.extra.toNat
  let same := s.tt.running && s.tt.round == m.round && m.turn != 0
  let s := s.setF F.TT_SEQ_BUDGET_ISSUED s.seq.issuedThisTurn
  let s := { s with
    tcc := { s.tcc with slot0Bad := false }
    seq := { s.seq with issuedThisTurn := 0, early := [] }, spad := { s.spad with slots := [], gather := s.spad.gather.map (fun (e : GatherEntry) => { e with due := e.due - edges }) }
    yu := { s.yu with ctxs := s.yu.ctxs.map (fun (c : Nat × YCtx) => (c.1, c.2.nextTurn cycles edges (c.1 % 2 == 0))) }
    tt := { s.tt with round := m.round, turn := m.turn, isRepeat := m.isRepeat, marked := marked, start := m.next - len, running := true
                      extra := s.extraEdge
                      vtMin := if same then s.tt.vtMin else (s.dom s.leadDom).set.vtMin, vtMax := if same then s.tt.vtMax else (s.dom s.leadDom).set.vtMax
                      ordinal := s.tt.ordinal + 1, runRound := (m.round + 2 ^ 48 - s.seq.startRound) % 2 ^ 48 } }
  let s := (if m.turn = 0 then s.freshRound else s).drawFree
  let s := resumeHalted 16 s
  if s.pstate = 0 ∨ s.power.step = .restarting then s.tccBoundary else s
/-- The turn that follows the one the tensor side is in, where no mark says so (R53). -/
def State.assumedTurn (s : State) (next : Nat) : Mark :=
  if s.tt.vtMax < s.tt.turn + 1 then ⟨(s.tt.round + 1) % 2 ^ 48, 0, true, next⟩
  else ⟨s.tt.round, s.tt.turn + 1, s.tt.isRepeat, next⟩
/-- A delivered mark names a turn that may follow the position assumed. -/
def State.markMatches (s : State) (m : Mark) : Bool :=
  (m.round == s.tt.round && m.turn == s.tt.turn + 1) ||
  (m.round == (s.tt.round + 1) % 2 ^ 48 && m.turn == 0 && decide (s.tt.vtMin ≤ s.tt.turn))
/-- Streams of the bundle are held from a line on, with cause 4; no move issues for the rest of the round. -/
def State.holdRound (s : State) (turn : Nat) : State :=
  let s := s.setSeq { s.seq with stopRound := true }
  if s.seq.started && !s.fedStreams.isEmpty then (s.holdStreams s.fedStreams).latchHold 4 (minList s.fedStreams) 0 turn else s
/-- Streams of the bundle show a round from line 0 of their hold buffers. -/
def holdWhole : List Nat → State → State
  | [], s => s
  | n :: r, s => holdWhole r (s.startHold n 0)
/-- A module did not deliver a mark; twice in a row puts it out of service. -/
def noteModules (lost : List Nat) : Nat → State → State
  | 0, s => s
  | k + 1, s =>
    let s := noteModules lost k s
    let n := if s.moduleUp k && lost.contains k then s.tt.missRun.getD k 0 + 1 else 0
    let s := { s with tt := { s.tt with missRun := s.tt.missRun.set k n } }
    if 2 ≤ n then { s.moduleOut k with tt := { (s.moduleOut k).tt with missRun := s.tt.missRun.set k 0 } } else s
/-- A delivered mark starts its turn. `assumed`: the marks before it were not delivered. -/
def State.takeMark (s : State) (m : Mark) (assumed : Bool) : State :=
  let wrong := assumed && !s.markMatches m
  let late := assumed && !wrong && s.tt.isRepeat && !m.isRepeat && m.round == s.tt.round
  let s := { s.startTurn m true with tt := { (s.startTurn m true).tt with last := some m } }
  if wrong then (s.holdRound m.turn |>.bumpF F.TT_MARK_RESYNC).record 0x06 4
  else if late then
    let s := s.setSeq { s.seq with stopRound := true }
    if s.seq.started && !s.fedStreams.isEmpty then (holdWhole s.fedStreams s).latchHold 4 (minList s.fedStreams) 0 0 else s
  else s
/-- A mark that no module delivered: the turn starts at the tick that the mark before it announced, if there is one. -/
def State.missMark (s : State) (m : Mark) : State :=
  let s := (s.bumpF F.TT_MARK_MISS).record 0x06 0x80
  match s.tt.last with
  | some l => s.startTurn (s.assumedTurn (l.next + s.turnLen s.leadDom)) false |> fun s => { s with tt := { s.tt with last := some { l with next := m.next } } }
  | none => s
/-- The decision round of the placed step, as a lead-domain round: fixed in AUTO mode, that of the waiting COMMIT else (R266). -/
def State.decisionRound (s : State) : Option Nat :=
  match s.adapt.pend with
  | none => none
  | some p =>
    if s.commanded then (s.host.due.find? (fun d => d.cmd.opcode == 0x0E && adSub d.cmd == 3)).map (fun d => d.round)
    else some ((s.seq.startRound + s.adapt.w0 + (p.step + 1) * s.getF F.TT_ADP_STATUS_P + s.getF F.TT_ADP_STATUS_G) % 2 ^ 48)
/-- The action at 80 ticks after the start of the lead domain's turn: the mark, delivered by a module or not, then the notice of the wall.
`lost` names the modules whose copy has not arrived. -/
def State.markAction (s : State) (m : Mark) (r : List Mark) (lost : List Nat) : State :=
  let s := { s with now := max s.now (m.next - s.turnLen s.leadDom + 80), tt := { s.tt with marks := r } }
  let arrives := (s.moduleUp 0 && !lost.contains 0) || (s.moduleUp 1 && !lost.contains 1)
  let assumed := s.tt.running && !s.tt.marked
  let s := noteModules lost 2 s
  let s := if arrives then s.takeMark m assumed else s.missMark m
  match s.decisionRound with
  | some r => if s.inWall && s.stepReady && !s.adapt.told then (s.sendReady r).setAdapt { s.adapt with told := true } else s
  | none => s

/-! ### Flip decisions (R289) -/

/-- FLIP_DECISION: at Bmin − 18 × L the pending flip sets of a domain are decided for its next boundary. -/
def execFlipDecision (n : Nat) (s : State) : Host.Outcome State Fault Refusal :=
  let d := s.dom n
  let tick := d.bmin - 18 * s.turnLen n
  .next (if decide (n < 4) && d.run && !d.flipsDecided then
      let s := { s with now := max s.now tick }
      (s.decideFlips n tick).setDom n { d with flipsDecided := true }
    else s)

end Sys2Proof.Machine
end

