-- ==== Sys2Proof/Machine/Boot.lean ====
section
/-! DEFINITION. Resets (R369, R431), boot (R433), the boot image over flash and fabric (R362, R434), the thermal trip (R430), the
PCI Express link, configuration and BAR2 (R364 to R371). -/

namespace Sys2Proof.Machine

/-! ### The host interface is reset (R369) -/

/-- An accepted command of a host that has reset the interface: it runs on, and its completion record is discarded. -/
def HostCmd.orphan (c : HostCmd) : HostCmd := if c.origin = .host then { c with origin := .gone } else c
def orphanReq (l : List (Nat × Option HostCmd)) : List (Nat × Option HostCmd) := l.map (fun x => (x.1, x.2.map HostCmd.orphan))
/-- Every command in progress is an orphan. -/
def State.orphanAll (s : State) : State :=
  let h := s.host
  let t := s.tcc
  let due := fun (d : DueCmd) => { d with cmd := d.cmd.orphan }
  { s with
    host := { h with taken := h.taken.map HostCmd.orphan, background := h.background.map HostCmd.orphan, due := h.due.map due,
                     forwards := h.forwards.map (fun (f : Forward) => { f with cmd := f.cmd.orphan }) }
    tcc := { t with pauseReq := orphanReq t.pauseReq, saveReq := orphanReq t.saveReq, resumeReq := orphanReq t.resumeReq,
                    cancelReq := orphanReq t.cancelReq }
    raster := { s.raster with flips := s.raster.flips.map (fun (f : FlipSet) => { f with cmd := f.cmd.orphan }) }
    adapt := { s.adapt with commits := s.adapt.commits.map HostCmd.orphan }
    power := { s.power with cmd := s.power.cmd.map HostCmd.orphan } }
/-- A record goes to the host, not to a device of the fabric. -/
def Cpl.toHost (c : Cpl) : Bool := match c.origin with | .fabric _ _ _ => false | _ => true
/-- Discarded task records free their slots (R235). -/
def dropRecords : List Cpl → State → State
  | [], s => s
  | c :: r, s => dropRecords r (if c.toHost && c.flags.testBit 1 && [8, 9, 11].contains (s.taskState c.detail) then s.clearSlot c.detail else s)
/-- Slots that were not taken, records that were not written and the completion settings are gone. -/
def State.resetPage (s : State) : State :=
  let s := dropRecords s.host.cpl s
  let s := { s with host := { s.host with page := [], cpl := s.host.cpl.filter (fun c => !c.toHost), cplNext := 1 } }
  let s := ((s.setReg R.CMD_NEXT 1#32).setReg R.CMD_LEVEL 0#32).setReg R.CMD_CPL_WR 0#32
  (((s.setReg R.CMD_CPL_LO 0#32).setReg R.CMD_CPL_HI 0#32).setReg R.CMD_CNT_LO 0#32).setReg R.CMD_CNT_HI 0#32 |>.setReg R.CMD_CPL_ACK 0#32
/-- BAR and MSI-X state. -/
def State.resetBars (s : State) : State :=
  { s with host := { s.host with msixTable := [], msixPend := [], msixEn := false, msixMask := false, bar2 := 0 } }
/-- A Function Level Reset, or the assertion of PERST_N. -/
def State.hostReset (s : State) : State :=
  let s := s.orphanAll.resetPage.resetBars
  ((s.setF F.PWR_CAUSE_LAST 6).bumpF F.PCI_EVT_FLR).record 0x0B 0
def execFunctionLevelReset (s : State) : Host.Outcome State Fault Refusal := .next (if s.power.tripped then s else s.hostReset)
/-- PERST_N: the link retrains beside; its new width and generation come with PCIE_RETRAIN. -/
def execPerstN (s : State) : Host.Outcome State Fault Refusal := .next (if s.power.tripped then s else s.hostReset)

/-! ### Cold and warm resets, the trip (R430 to R432, R465) -/

/-- Everything is reset but OTP, boot flash and, while the always-on island has power, the cause of the last reset and the list of
confidential regions. DRAM waits for its initialisation; the queue and host memory are outside the part. -/
def State.coldState (s : State) (aon : Bool) : State :=
  { pending := s.pending, freeIdx := s.freeIdx, hostMem := s.hostMem, mem := s.mem, memErr := s.memErr, flash := s.flash
    sec := { otp := s.sec.otp, weak := s.sec.weak, conf := if aon then s.sec.conf else [] }
    power := { stopped := true, tensorOff := true } }
/-- Straps: BOOTSEL in bits 1:0, ORIGIN in bit 2, TESTMODE in bit 3; `fuse` says that VDD_FUSE is present. Boot is in step 1. -/
def State.latchStraps (s : State) (cause straps : Nat) (fuse : Bool) : State :=
  let s := ((s.setF F.PWR_CAUSE_LAST cause).setF F.PWR_CAUSE_BOOTSEL straps).setF F.PWR_CAUSE_ORIGIN (straps / 4)
  let s := (s.setF F.PWR_CAUSE_TESTMODE (straps / 8)).setF F.SEC_STATUS_FUSE_PWR fuse.toNat
  (s.setF F.TB_STATUS_LOCK 1).setF F.PWR_BOOT_STEP 1
/-- COLD_RESET: PORST_N. A trip stays the last cause. -/
def execColdReset (straps : Nat) (fuse : Bool) (s : State) : Host.Outcome State Fault Refusal :=
  .next ((s.coldState true).latchStraps (if s.power.tripped && s.getF F.PWR_CAUSE_LAST == 5 then 5 else 1) straps fuse)
/-- VDD_AON_LOSS: a cold reset at power-on. -/
def execVddAonLoss (straps : Nat) (fuse : Bool) (s : State) : Host.Outcome State Fault Refusal :=
  .next ((s.coldState false).latchStraps 0 straps fuse)
/-- THERMAL_TRIP: both dies stop, every pin is in its in-reset state, and nothing but PORST_N ends it. -/
def execThermalTrip (s : State) : Host.Outcome State Fault Refusal :=
  .next (let t := (s.coldState true).setF F.PWR_CAUSE_LAST 5
    { t with power := { t.power with tripped := true } })
/-- Registers that a warm reset keeps: those of the island. -/
def State.islandRegs (s : State) : SMap Word32 := s.regs.filter (fun c => islandReg c.1)
/-- Port registers of links that have dropped. -/
def dropPorts : Nat → State → State
  | 0, s => s
  | p + 1, s => let s := dropPorts p s; (s.setReg (R.FAB_Pp_STATUS p) 0#32).setReg (R.FAB_Pp_DELAY p) 0#32
/-- A warm reset: sessions end, links drop, the command interface is reset, everything outside the island is as at reset, and boot goes on
from step 3 with the straps that are latched. -/
def State.warmReset (s : State) (cause : Nat) : State :=
  let s := (s.endDebug.closeAttest)
  let s := (s.setSec { s.sec with nonce := none, otpCmd := none }).refreshSec
  let t : State :=
    { pending := s.pending, freeIdx := s.freeIdx, now := s.now, hostMem := s.hostMem, mem := s.mem, memErr := s.memErr, flash := s.flash
      sec := s.sec, scorepad := s.scorepad, regs := s.islandRegs
      host := { mirror := s.host.mirror, msixTable := s.host.msixTable, msixPend := s.host.msixPend, msixEn := s.host.msixEn
                msixMask := s.host.msixMask, bar2 := s.host.bar2, hwin := s.host.hwin, reply := s.host.reply }
      power := { stopped := true, tensorOff := true } }
  let t := (dropPorts 4 (t.leaveWall {})).resetPage
  let t := (((t.setF F.CMD_CTRL_EN 0).setReg R.CMD_PEND 0#32).setF F.TB_CTRL_DOM_EN 0).setReg R.PWR_STATE 0#32
  let t := ((t.setReg R.PWR_BOOT 0#32).setF F.PWR_BOOT_STEP 3).setF F.SEC_OTP_CMD_BUSY 0
  (t.setF F.PWR_CAUSE_LAST cause).record 0x02 cause
/-- WATCHDOG_EXPIRY: the Rulebook has had no service for 100 ms. -/
def execWatchdogExpiry (s : State) : Host.Outcome State Fault Refusal := .next (if s.power.tripped then s else s.warmReset 3)
/-- A write of PWR_RESET: only with its key; WARM takes precedence. -/
def State.writeReset (s : State) (v : Nat) : State :=
  if bitsOf v 31 16 ≠ 0xC0DE then s.recordNoEffect R.PWR_RESET
  else if v.testBit 0 then s.warmReset 2
  else if v.testBit 1 then s.tensorReset
  else s
def execPwrResetWarm (v : Word32) (s : State) : Host.Outcome State Fault Refusal := .next (s.writeReset v.toNat)
def execPwrResetTensor (v : Word32) (s : State) : Host.Outcome State Fault Refusal := .next (s.writeReset v.toNat)

/-! ### The boot image (R362, R434) -/

/-- A boot image's header and slots are well formed. -/
def bootFormat (img : List Byte) : Bool :=
  let total := fieldAt img 8 8
  fieldAt img 0 4 == 0x4942474E && fieldAt img 4 2 == 1 && decide (fieldAt img 6 1 < 4) && decide (fieldAt img 7 1 < 4) &&
  decide (64 ≤ total) && decide (total ≤ img.length) && decide (fieldAt img 0x20 4 ≤ 256) && fieldAt img 0x24 4 % 64 == 0 &&
  decide (fieldAt img 0x24 4 + 64 * fieldAt img 0x20 4 ≤ total) && ((img.drop 0x28).take 24).all (fun b => b == 0#8) &&
  (!(fieldAt img 6 1).testBit 0 || decide (fieldAt img 0x10 8 ≤ total))
def bootSigned (img : List Byte) : Bool := (fieldAt img 6 1).testBit 0
/-- PWR_BOOT.ERR of an image, 0 when it is accepted. -/
def State.bootCheck (s : State) (img : List Byte) : Nat :=
  if !bootFormat img || decide (s.dramEnd < fieldAt img 8 8) then 3
  else if !s.policyOk (bootSigned img) false || (bootSigned img && !s.blockSigned img (fieldAt img 0x10 8) (fieldAt img 8 8)) then 4
  else 0
/-- A boot error: reported and recorded. -/
def State.bootError (s : State) (err : Nat) : State := (s.setF F.PWR_BOOT_ERR err).record 0x02 err
/-- A verified image is copied to DRAM, and its command slots wait. -/
def State.installBoot (s : State) (img : List Byte) (src : Nat) : State :=
  let total := fieldAt img 8 8
  let base := (s.dramEnd - total) / 2 ^ 20 * 2 ^ 20
  let slots := (List.range (fieldAt img 0x20 4)).map (fun i =>
    { slotCmd ((img.drop (fieldAt img 0x24 4 + 64 * i)).take 64) .boot with seq := 0 })
  let s := if bootSigned img then s else s.record 0x01 0x82
  let s := ((s.overwriteErrs base total).putMem base (img.take total)).setF F.PWR_BOOT_SRC src
  { s with power := { s.power with bootImage := some (base, total), bootSlots := slots, bootBlocks := [], bootBytes := []
                                   bootPorts := [], bootKept := if src = 2 then img.take total else [] } }
/-- The image in boot flash. -/
def State.flashImage (s : State) : List Byte :=
  let base := s.flashDir 0
  if base = 0 then [] else s.flashBytes base (max 64 (fieldAt (s.flashBytes base 16) 8 8))
def State.bootFlash (s : State) : State :=
  let img := s.flashImage
  if s.bootCheck img = 0 then s.installBoot img 1 else s.bootError (s.bootCheck img)
/-- The device boots, or after a failed flash boot goes on, over the fabric. -/
def State.fabricBoots (s : State) : Bool := decide (2 ≤ s.getF F.PWR_CAUSE_BOOTSEL) && s.power.bootImage.isNone && s.getF F.PWR_BOOT_STEP == 7
/-- The blocks of a port's image that have arrived make it whole, or show a header that is not an image's. -/
def State.portImage (s : State) (p : Nat) : Option (List Byte) :=
  let key := p * 2 ^ 32
  let bytes := fun (n : Nat) => (List.range n).map (fun i => SMap.get zeroByte s.power.bootBytes (key + i))
  if !s.power.bootBlocks.contains key then none
  else
    let h := bytes 64
    let total := fieldAt h 8 8
    if fieldAt h 0 4 ≠ 0x4942474E ∨ 2 ^ 28 < total ∨ total < 64 then some h
    else if (List.range (ceilDiv total 64)).all (fun i => s.power.bootBlocks.contains (key + 64 * i)) then some (bytes total)
    else none
/-- Verify the image of the first port that answered; on failure, that of the next. -/
def tryPorts : Nat → State → State
  | 0, s => s
  | n + 1, s =>
    match s.power.bootPorts with
    | [] => s
    | x :: r =>
      match s.portImage (x % 4) with
      | none => s
      | some img =>
        if s.bootCheck img = 0 then s.installBoot img 2
        else
          let s := s.bootError (s.bootCheck img)
          tryPorts n { s with power := { s.power with bootPorts := r, bootFailed := s.power.bootFailed ++ [x % 4] } }
/-- A number into a rising list. -/
def insertNat (x : Nat) : List Nat → List Nat
  | [] => [x]
  | y :: r => if x < y then x :: y :: r else y :: insertNat x r
/-- BOOT_IMAGE: a block of an image arrives at tick `tick`. -/
def execBootImage (f : FlitIn) (tick : Nat) (s : State) : Host.Outcome State Fault Refusal :=
  .next (s.arrive f 4 0x1C false (fun s =>
    if !s.fabricBoots || s.power.bootFailed.contains f.port then s
    else
      let key := f.port * 2 ^ 32 + f.arg % 2 ^ 22 * 64
      let w := s.power
      tryPorts 4 { s with power := { w with
        bootPorts := if w.bootPorts.any (fun x => x % 4 == f.port) then w.bootPorts else insertNat (tick * 4 + f.port) w.bootPorts
        bootBlocks := if w.bootBlocks.contains key then w.bootBlocks else w.bootBlocks ++ [key]
        bootBytes := putBytes w.bootBytes key (f.payload.take 64) } }))
/-- Queue the blocks of an image for a port. -/
def sendImage (p : Nat) (img : List Byte) : Nat → State → State
  | 0, s => s
  | n + 1, s =>
    let s := sendImage p img n s
    s.queueFlit p (s.peerFlit 4 0x1C n (((img.drop (64 * n)).take 64 ++ List.replicate 64 0#8).take 64))
/-- BOOT_REQUEST: a device that has booted and may serve sends the image it booted with. -/
def execBootRequest (f : FlitIn) (s : State) : Host.Outcome State Fault Refusal :=
  .next (s.arrive f 2 0x0F false (fun s =>
    let img := if s.getF F.PWR_BOOT_SRC = 1 then (let b := s.flashImage; b.take (fieldAt b 8 8)) else s.power.bootKept
    if s.flag F.FAB_CTRL_BOOT_SERVE && s.flag F.PWR_BOOT_DONE && s.getF F.PWR_BOOT_SRC != 0 then sendImage f.port img (ceilDiv img.length 64) s else s))

/-! ### Boot (R433) -/

/-- Step 2: weak bits are programmed again and an erasure is completed, the lifecycle is read, the DRBG seeded. With TESTMODE outside
VENDOR_TEST boot stops. -/
def State.bootOtp (s : State) (f : BootFind) : State :=
  let repaired := fun (b : Nat) => (decide (0x300 ≤ b / 8) && decide (b / 8 < 0x303)) || decide (0x1000 ≤ b / 8) ||
    (s.lcOfOtp == 3 && ((decide (0x100 ≤ b / 8) && decide (b / 8 < 0x120)) || (decide (0x200 ≤ b / 8) && decide (b / 8 < 0x300))))
  let s := s.setSec { s.sec with weak := s.sec.weak.filter (fun b => !repaired b) }
  let s := if s.lcOfOtp = 3 then s.eraseKeys else s
  let s := (s.setF F.SEC_STATUS_LC s.lcOfOtp).refreshSec
  let s := if f.rngOk then s.setF F.SEC_STATUS_RNG_OK 1 else (s.setF F.SEC_STATUS_RNG_OK 0).record 0x01 0
  if s.flag F.PWR_CAUSE_TESTMODE ∧ s.lc ≠ 0 then
    let s := s.bootError 7
    { s with power := { s.power with tripped := true } }
  else s
/-- No die-link module is in service: boot ends, the endpoint signals the internal error (AER bit 22), and a few commands are accepted. -/
def State.bootNoModule (s : State) : State := ((s.takeCounts.bootError 1).record 0x0B 22).setF F.CMD_CTRL_EN 1
/-- A die-link module that failed its training is recorded. -/
def noteModule (up m : Nat) (s : State) : State := if up.testBit m then s else s.record 0x03 m
/-- Step 4: the die link, the ledger counts, and the seed of a boot image. -/
def State.bootDieLink (s : State) (f : BootFind) : State :=
  let n := f.modules % 4
  let s := noteModule n 1 (noteModule n 0 (s.setModules n))
  if n = 0 then s.bootNoModule
  else
    let s := s.takeCounts
    let s := { s with power := { s.power with tensorOff := false, stopped := false } }
    let b := if s.getF F.PWR_CAUSE_BOOTSEL % 2 = 1 ∧ s.flashDir 0 ≠ 0 then s.flashBytes (s.flashDir 0) 32 else []
    if fieldAt b 0 4 = 0x4942474E ∧ (fieldAt b 6 1).testBit 1 then
      (s.setReg R.PWR_MSEED_LO (BitVec.ofNat 32 (fieldAt b 0x18 4))).setReg R.PWR_MSEED_HI (BitVec.ofNat 32 (fieldAt b 0x1C 4))
    else s
/-- The channel registers after training. -/
def putChannels (mask rate : Nat) : Nat → State → State
  | 0, s => s
  | c + 1, s =>
    let s := putChannels mask rate c s
    if mask.testBit c then (s.setF (F.MC_CHc_STAT_STATE c) 1).setF (F.MC_CHc_STAT_RATE c) rate else s
/-- The channel key of a run seed (R148). -/
def channelKey (seed : Nat) : Nat :=
  leNat ((sha256 ("NG5120-MCH".toList.map (fun c => BitVec.ofNat 8 c.toNat) ++ le64 seed)).take 8)
/-- A channel's capacity in GiB: 1, 2 or 4 (R145). -/
def channelGib (g : Nat) : Nat := if g < 2 then 1 else if g < 4 then 2 else 4
/-- What is found of the units that the part has (R4, R5, R27): on an NG5120-C cores 12 to 15 and channels 14 and 15 are absent, one
quarter is, and the grid has quarter mode only. A report of all four quarters of such a part is not well formed; the model then takes
Q3 as the absent one. -/
def partFound (f : BootFind) : BootFind :=
  let f := { f with channels := f.channels % 2 ^ 16, cores := f.cores % 2 ^ 16, quarters := f.quarters % 16, gib := channelGib f.gib }
  if f.variantC then
    { f with channels := f.channels % 2 ^ 14, cores := f.cores % 2 ^ 12, quarters := if f.quarters = 15 then 7 else f.quarters, whole := false }
  else f
/-- Step 5: DRAM is trained and initialised; confidential regions, and with their list lost all of DRAM, are zero (R418). -/
def State.bootDram (s : State) (f : BootFind) : State :=
  let f := partFound f
  let mask := f.channels
  let l := (List.range 16).filter (fun c => mask.testBit c)
  let key := channelKey ((s.reg R.PWR_MSEED_LO).toNat + (s.reg R.PWR_MSEED_HI).toNat * 2 ^ 32)
  let s := (s.setSec { s.sec with conf := [] }).refreshSec
  let s := { s with mem := [], memErr := [] }
  if l.isEmpty ∨ f.rate = 0 then s.bootError 2
  else
    let s := { s with mc := { key := key, mapping := l, installed := f.gib * 2 ^ 30 * l.length } }
    let s := ((s.setF F.MC_CFG_RATE f.rate).setF F.MC_CFG_MAP_N l.length).setF F.MC_CFG_IECC f.iecc.toNat
    let s := ((s.setF F.MC_CFG_ODECC f.odecc.toNat).setF F.MC_CFG_LECC f.lecc.toNat).setF F.MC_HASH_KEYSUM (crc32c (le64 key) % 65536)
    putChannels mask f.rate 16 s
/-- Step 6: the capability words are published, and quarter mode is set where the whole grid is not available (R90). -/
def State.bootCaps (s : State) (f : BootFind) : State :=
  let f := partFound f
  let lane := fun (l : List Nat) (i : Nat) => l.getD i 0
  let whole := f.whole && f.quarters == 15
  let s := ((s.setF F.HUB_CAP0_VC_MASK f.cores).setF F.HUB_CAP0_Q_MASK f.quarters).setF F.HUB_CAP0_WHOLE whole.toNat
  let mask := s.mc.mapping.foldl (fun m c => m + 2 ^ c) 0
  let s := ((s.setF F.HUB_CAP1_CH_MASK mask).setF F.HUB_CAP1_DRAM_GIB (s.dramEnd / 2 ^ 30)).setF F.HUB_CAP1_IECC (s.getF F.MC_CFG_IECC)
  let s := (s.setF F.HUB_CAP1_LECC (s.getF F.MC_CFG_LECC)).setF F.HUB_CAP2_DL_MOD (s.getF F.DL_STATUS_DL0_UP + 2 * s.getF F.DL_STATUS_DL1_UP)
  let s := ((s.setF F.HUB_CAP2_FAB_N (lane f.fab 0)).setF F.HUB_CAP2_FAB_E (lane f.fab 1)).setF F.HUB_CAP2_FAB_S (lane f.fab 2)
  let s := ((s.setF F.HUB_CAP2_FAB_W (lane f.fab 3)).setF F.HUB_CAP2_PCIE_W (s.getF F.PCI_STATUS_WIDTH)).setF F.HUB_CAP2_PCIE_GEN (s.getF F.PCI_STATUS_GEN)
  let s := ((s.setF F.HUB_CAP3_DPTX3 (lane f.dptx 3)).setF F.HUB_CAP3_DPTX2 (lane f.dptx 2)).setF F.HUB_CAP3_DPTX1 (lane f.dptx 1)
  let s := ((s.setF F.HUB_CAP3_DPTX0 (lane f.dptx 0)).setF F.HUB_CAP3_DPRX1 (lane f.dprx 1)).setF F.HUB_CAP3_DPRX0 (lane f.dprx 0)
  let s := ((s.setF F.HUB_CAP3_VARIANT (if f.variantC then 0xC else 0xA)).setF F.HUB_CAP3_DONE 1).setF F.HUB_CAPGEN_GEN 1
  let s := (s.record 0x03 0).raiseIrq 4
  if whole then s else s.setGridMode true
/-- Step 7 begins: the image of boot flash, and requests on the ports that are up. -/
def State.bootImages (s : State) : State :=
  let s := if s.getF F.PWR_CAUSE_BOOTSEL % 2 = 1 then s.bootFlash else s
  if s.fabricBoots then sendOn (s.peerFlit 2 0x0F 0 []) s.upPorts s else s
def State.atStep (s : State) (n : Nat) : State := s.setF F.PWR_BOOT_STEP n
/-- Step 9: the slots of the image run one after another, until one completes with a code other than OK. -/
def State.bootSlot (s : State) : State :=
  if s.power.bootFail then
    let s := s.bootError 6
    (s.setPower { s.power with bootSlots := [], bootFail := false }).setTaken (s.host.taken.filter (fun c => c.origin != .boot))
  else match s.power.bootSlots with
    | [] => s
    | c :: r =>
      if s.host.taken.isEmpty then ((s.setPower { s.power with bootSlots := r }).bumpF F.PWR_BOOT_CMD).accept c |>.settle else s
/-- Step 10: the Rulebook polls the page, the TCC places tasks, and the image's copy is free. -/
def State.bootDone (s : State) : State :=
  let s := ((s.setF F.CMD_CTRL_EN 1).setF F.PWR_BOOT_DONE 1).setF F.TASK_CTRL_SCHED_EN 1
  (s.setPower { s.power with bootImage := none }).atStep 10
/-- BOOT_STEP: the step in progress ends with what `f` says was found, and the next one begins. -/
def execBootStep (f : BootFind) (s : State) : Host.Outcome State Fault Refusal :=
  .next (if s.power.tripped || s.flag F.PWR_BOOT_DONE || (s.getF F.PWR_BOOT_STEP == 4 && s.getF F.PWR_BOOT_ERR == 1) then s
    else match s.getF F.PWR_BOOT_STEP with
      | 0 => s.atStep 1
      | 1 => s.atStep 2
      | 2 => let t := s.bootOtp f; if t.power.tripped then t else t.atStep 3
      | 3 =>
        let s := ((s.setF F.PCI_STATUS_WIDTH f.pcieWidth).setF F.PCI_STATUS_GEN f.pcieGen).atStep 4
        s.setPower { s.power with tpwrEn := true }
      | 4 => if s.power.tpwrOk then (let t := s.bootDieLink f; if f.modules % 4 = 0 then t else t.atStep 5) else s
      | 5 => (s.bootDram f).atStep 6
      | 6 => ((s.bootCaps f).atStep 7).bootImages
      | 7 => ((if s.fabricBoots then s.bootError 5 else s).atStep 8).startDiscovery
      | 8 => s.atStep 9
      | 9 => if s.power.bootFail || !s.power.bootSlots.isEmpty then s.bootSlot else if s.host.taken.any (fun c => c.origin == .boot) then s else s.bootDone
      | _ => s)
/-- TPWR_OK_TIMEOUT: TPWR_OK has not risen within 5 ms of TPWR_EN: a die-link failure of a wake, or of boot step 4 (R435). -/
def execTpwrOkTimeout (s : State) : Host.Outcome State Fault Refusal :=
  .next (if s.getF F.PWR_BOOT_STEP = 4 ∧ s.power.tpwrEn = true ∧ s.power.tpwrOk = false ∧ s.getF F.PWR_BOOT_ERR = 0 then
      (s.setPower { s.power with tpwrEn := false }).bootNoModule
    else s.wakeTimeout)

/-! ### PCI Express (R364, R366, R367, R370, R371) -/

/-- PCIE_RETRAIN: the link runs at another width or generation; a narrower or slower one is a loss of capability (R28). -/
def execPcieRetrain (width gen : Nat) (s : State) : Host.Outcome State Fault Refusal :=
  .next (if [0, 1, 2, 4, 8].contains width && decide (gen ≤ 4) && (width == 0) == (gen == 0) then
      ((s.setF F.PCI_STATUS_WIDTH width).setF F.PCI_STATUS_GEN gen).unitLost
    else s)
/-- Send the messages that wait, once the function may. -/
def sendPending : List Nat → State → State
  | [], s => s
  | v :: r, s => sendPending r (s.msix v)
def State.flushMsix (s : State) : State :=
  let l := s.host.msixPend
  sendPending l { s with host := { s.host with msixPend := [] } }
/-- D_STATE_CHANGE: the function enters or leaves D3hot. -/
def execDStateChange (d3 : Bool) (s : State) : Host.Outcome State Fault Refusal :=
  .next (let s := s.setF F.PCI_STATUS_D3 d3.toNat
    if d3 then s else s.flushMsix)
/-- PCIE_CONFIGURATION_WRITE: Bus Master Enable, the size of BAR2, MSI-X. -/
def execPcieConfigurationWrite (w : ConfigWrite) (s : State) : Host.Outcome State Fault Refusal :=
  .next (match w with
    | .busMaster on => let s := s.setF F.PCI_STATUS_BME on.toNat; if on then s.flushMsix else s
    | .bar2Size k => if k ≤ 6 then { s with host := { s.host with bar2 := k } } else s
    | .msix en mask =>
      let s := { s with host := { s.host with msixEn := en, msixMask := mask } }
      if en then s.flushMsix else s)
/-- A BAR access that is refused. -/
def State.refuseBar (s : State) (bar : Nat) : State :=
  let s := (s.bumpF F.PCI_EVT_REFUSED).record 0x0B 0x80 bar
  { s with host := { s.host with reply := none } }
def State.answerHost (s : State) (v : Option Nat) : State := { s with host := { s.host with reply := v } }
/-- BAR2_ACCESS: a read of `len` bytes at offset `o`, or a write of `data`. A poisoned write is discarded whole and reported (AER bit 12);
an access to a channel that retrains waits: nothing changes until it is made again (R152). -/
def execBar2Access (o len : Nat) (write : Bool) (data : List Byte) (poisoned : Bool) (s : State) : Host.Outcome State Fault Refusal :=
  let n := if write then data.length else len
  let a := s.getF F.PCI_BAR2_WIN_BASE * 2 ^ 30 + o
  .next (if n = 0 then s
    else if s.flag F.PCI_STATUS_D3 then s.answerHost none
    else if write && poisoned then s.record 0x0B 12
    else if 2 ^ (30 + s.host.bar2) < o + n ∨ s.dramEnd < a + n ∨ s.confMeets a n = true ∨ s.getF F.DL_STATUS_DL0_UP + s.getF F.DL_STATUS_DL1_UP = 0 then s.refuseBar 2
    else if s.stripesWait a n then s
    else if write then (s.writeDram a data).1
    else match s.countedRead a n with
      | (s, bs, bad) => s.answerHost (if bad then none else some (leNat bs)))

end Sys2Proof.Machine
end

