-- ==== Sys2Proof/Machine/VectorMem.lean ====
section
/-! DEFINITION. Vector memory instructions: wide and narrow rows, strided and transposed reads, slots, gather and scatter
(R115, R193 to R196). -/

namespace Sys2Proof.Machine

/-- The 4 bytes of lane `l` among row bytes. -/
def laneOf (bs : List Byte) (l : Nat) : Nat := leNat ((bs.drop (4 * l)).take 4)
/-- The vector register a row's bytes stand for (R184). -/
def Vec.ofBytes (bs : List Byte) : Vec := BitVec.ofNat 4096 (leNat bs)

/-- A load of `len` bytes at a task address; `f` makes lane `l` from the bytes. -/
def rowLoad (sp : YSpec) (len align : Nat) (f : List Byte → Nat → Nat) (k : Issue) (w : YWord) (s : State) :
    Host.Outcome State Fault Refusal :=
  yubenOut k w { sp with useD := true, useA := true, useC := true, useImm := true, whole := false,
                         reads := [rS w.a, rV w.d], writes := [rV w.d], lat := loadLat s k w.c.toNat } (fun t s =>
    if !regionOk w then .fault s 1 0
    else
      let o := taskOffset s k w
      match s.checkTask k.core (s.ctxTask k.core k.ctx) w.c.toNat o len align false with
      | .ok n off =>
        lineSlot k t n off (fun s => match s.readSlice n off len with
          | (s', bs, bad) => if bad then .fault s' 3 o else .done (s'.vputLanes k w (f bs))) s
      | .refused => accessFault s false o
      | .window => accessFault s true o) s

/-- Element size of the narrow row forms: types 0x0 to 0x3 have 1 or 2 bytes. -/
def narrowSize (w : YWord) : Nat := w.elem.bits / 8
def execVldn (k : Issue) (w : YWord) (s : State) :=
  rowLoad { tys := [0, 1, 2, 3] } (128 * narrowSize w) (128 * narrowSize w) (fun bs l =>
    let v := leNat ((bs.drop (narrowSize w * l)).take (narrowSize w))
    if w.elem.isSigned then wrapTo 32 (signedOf w.elem.bits v) else v) k w s
def execVld (k : Issue) (w : YWord) (s : State) := rowLoad {} 512 512 laneOf k w s

/-- A store of `n` bytes a lane at a task address; a full row is one wide write. -/
def rowStore (tys : List Nat) (n : Nat) (k : Issue) (w : YWord) (s : State) : Host.Outcome State Fault Refusal :=
  yubenOut k w { useA := true, useB := true, useC := true, useImm := true, tys := tys, whole := false,
                 reads := [rS w.a, rV w.b] } (fun t s =>
    if !regionOk w then .fault s 1 0
    else
      let o := taskOffset s k w
      match s.checkTask k.core (s.ctxTask k.core k.ctx) w.c.toNat o (128 * n) (128 * n) true with
      | .ok sl off => lineSlot k t sl off (fun s => .done (s.writeLanes sl off n (s.laneOn k w) (s.vget k w.b).lane)) s
      | .refused => accessFault s false o
      | .window => accessFault s true o) s
def execVstn (k : Issue) (w : YWord) (s : State) := rowStore [0, 1, 2, 3] (narrowSize w) k w s
def execVst (k : Issue) (w : YWord) (s : State) := rowStore [0] 4 k w s

/-! ### Strided and transposed reads (R115, R194) -/

/-- The offsets of the 32 segments. -/
def segOffsets (o : Int) (stride : Int) : List Int := (List.range 32).map (fun (i : Nat) => o + stride * Int.ofNat i)
/-- The largest number of segments in one column of one bank: the port cycles k of R115. -/
def portCycles (offs : List Nat) : Nat :=
  offs.foldl (fun m x => max m (offs.filter (fun y => y / 0x20000 == x / 0x20000 && y / 16 % 32 == x / 16 % 32)).length) 0
/-- Every segment lies in the region. -/
def segsInRegion (g : SpadRegion) (offs : List Int) : Bool :=
  offs.all (fun o => decide (0 ≤ o) && g.admits o.toNat 16 false)
/-- The bytes of all segments with the state after their checks, and whether one was uncorrectable. -/
def readSegs (s : State) (n : Nat) : List Nat → State × List Byte × Bool
  | [] => (s, [], false)
  | o :: r =>
    match s.readSlice n o 16 with
    | (s1, bs, bad) => match readSegs s1 n r with
      | (s2, rest, bad') => (s2, bs ++ rest, bad || bad')
/-- Element-major order of a transposed read: delivered element j is element j / 32 of segment j mod 32 (R115). -/
def transposeBytes (e : Nat) (bs : List Byte) : List Byte :=
  (List.range (512 / e)).flatMap (fun j => (bs.drop (j % 32 * 16 + j / 32 * e)).take e)
/-- Element size of VLDT from imm24 bits 7:6; VLDS takes 0b00 only. -/
def strideElem (w : YWord) : Option Nat :=
  match bitsOf w.uimm 7 6 with | 0 => some 1 | 1 => some 2 | 2 => some 4 | _ => none

/-- The bank accesses of a strided read from cycle t on: it occupies its port for KD cycles, in each of them the banks of its segments (R115, R194,
log 19). -/
def stridedAccs (t kd n : Nat) (offs : List Nat) : List (Nat × Nat × Nat) :=
  (List.range kd).flatMap (fun i => (offs.map bankOf).eraseDups.map (fun b => (t + i, n, b)))
/-- VLDS and VLDT: k above the declared KD is a data fault; KD = 0 means as found and is for the batch context only. -/
def stridedLoad (transposed : Bool) (k : Issue) (w : YWord) (s : State) : Host.Outcome State Fault Refusal :=
  let kd := bitsOf w.uimm 5 0
  let base := loadLat s k w.c.toNat - 1
  yubenOut k w { useD := true, useA := true, useB := true, useC := true, useImm := true, whole := false,
                 lineOk := kd != 0, reads := [rS w.a, rS w.b, rV w.d], writes := [rV w.d], lat := base + kd, gap := kd } (fun t s =>
    match strideElem w with
    | none => .fault s 1 0
    | some e =>
      if !regionOk w || decide (32 < kd) || (!transposed && bitsOf w.uimm 7 6 != 0) then .fault s 1 0
      else
        let task := s.ctxTask k.core k.ctx
        let g := s.spadRegion task w.c.toNat
        let o := (s.sget k w.a + BitVec.ofInt 64 (signedOf 16 (bitsOf w.uimm 23 8) * 16)).toNat
        let stride := (s.sget k w.b).toInt
        let offs := segOffsets (o : Int) stride
        if stride % 16 ≠ 0 ∨ o % 16 ≠ 0 ∨ s.slotReads task = false ∨ segsInRegion g offs = false then accessFault s false o
        else
          let so := offs.map (fun x => g.base + x.toNat)
          if so.any (fun x => s.checkSlice k.core g.slice x 16 false != .ok g.slice x) then accessFault s false o
          else
            let kk := portCycles so
            if kd ≠ 0 ∧ kd < kk then .fault s 6 0
            else lineSlots k (stridedAccs t kd g.slice so) (fun s => match readSegs s g.slice so with
              | (s', bs, bad) =>
                if bad then .fault s' 3 o
                else
                  let bs := if transposed then transposeBytes e bs else bs
                  let s'' := s'.vputLanes k w (laneOf bs)
                  if kd = 0 then .late s'' (base + kk) kk else .done s'') s) s
def execVlds (k : Issue) (w : YWord) (s : State) := stridedLoad false k w s
def execVldt (k : Issue) (w : YWord) (s : State) := stridedLoad true k w s

/-! ### Slots (R196) -/

/-- A row of a slot is an access to the ring's slice without a region check. -/
def slotCheck (s : State) (k : Issue) (r slot row : Nat) (write : Bool) : AccessCheck :=
  s.checkSlice k.core (s.ringSlice r) (s.slotOffset r slot + row * 512) 512 write
/-- Latency of a slot access. -/
def slotLat (s : State) (k : Issue) (r : Nat) : Nat := if s.ringSlice r = k.core then 6 else 8
/-- Load wide row `row` of a slot. -/
def slotLoadEff (k : Issue) (w : YWord) (t : Nat) (s : State) (r slot row : Nat) : YEffect :=
  if s.ringRows r ≤ row then accessFault s false (row * 512)
  else match slotCheck s k r slot row false with
    | .ok n off =>
      lineSlot k t n off (fun s => match s.readSlice n off 512 with
        | (s', bs, bad) => if bad then .fault s' 3 (row * 512) else .done (s'.vputLanes k w (laneOf bs))) s
    | .refused => accessFault s false (row * 512)
    | .window => accessFault s true (row * 512)
def execVldh (k : Issue) (w : YWord) (s : State) :=
  let h := (s.sget k w.a).toNat % 2 ^ 32
  yubenOut k w { useD := true, useA := true, useImm := true, whole := false, reads := [rS w.a, rV w.d], writes := [rV w.d],
                 lat := slotLat s k (handleRing h) } (fun t s =>
    if w.uimm / 256 ≠ 0 then .fault s 1 0
    else if !s.ownsRing (s.ctxTask k.core k.ctx) (handleRing h) then .fault s 5 h
    else if !s.handleValid h then .fault s.badHandle 5 h
    else slotLoadEff k w t s (handleRing h) (handleSlot h) (w.uimm % 256)) s
def execVldr (k : Issue) (w : YWord) (s : State) :=
  let r := bitsOf w.uimm 23 16
  yubenOut k w { useD := true, useImm := true, whole := false, reads := [rV w.d], writes := [rV w.d], lat := slotLat s k r } (fun t s =>
    if bitsOf w.uimm 15 8 ≠ 0 then .fault s 1 0
    else if !s.ownsRing (s.ctxTask k.core k.ctx) r then .fault s 5 r
    else if s.ringUsed r = 0 ∨ s.headReady r = false then .fault s 5 r
    else slotLoadEff k w t s r (s.ringHead r) (w.uimm % 256)) s
/-- A producer write: written while the handle is current; a stale write is counted, and written only to a slot that
has not been reserved again (R135). -/
def execVsth (k : Issue) (w : YWord) (s : State) :=
  yubenOut k w { useA := true, useB := true, useImm := true, whole := false, reads := [rS w.a, rV w.b] } (fun t s =>
    let h := (s.sget k w.a).toNat % 2 ^ 32
    let r := handleRing h
    let row := w.uimm
    if 256 ≤ row then .fault s 1 0
    else if !s.ownsRing (s.ctxTask k.core k.ctx) r || handleSlice h != s.ringSlice r then .fault s 5 h
    else if s.ringRows r ≤ row then accessFault s false (row * 512)
    else match slotCheck s k r (handleSlot h) row true with
      | .ok n off =>
        let s' := if s.handleCurrent h then s else s.noteStale h
        if s.reservedAgain r (handleSlot h) (handleGen h) then .done s'
        else lineSlot k t n off (fun s => .done (s.writeLanes n off 4 (s.laneOn k w) (s.vget k w.b).lane)) s'
      | .refused => accessFault s false (row * 512)
      | .window => accessFault s true (row * 512)) s

/-! ### Gather and scatter (R195) -/

/-- The task offset of lane `l`. -/
def laneOffset (s : State) (k : Issue) (w : YWord) (l : Nat) : Nat :=
  (s.sget k w.a + BitVec.ofNat 64 ((s.vget k w.b).lane l)).toNat
/-- The first enabled lane whose access check fails, lanes in ascending order: its check and offset. -/
def firstBadLane (s : State) (k : Issue) (w : YWord) (write : Bool) : List Nat → Option (AccessCheck × Nat)
  | [] => none
  | l :: r =>
    if s.laneOn k w l then
      match s.checkTask k.core (s.ctxTask k.core k.ctx) w.c.toNat (laneOffset s k w l) 4 4 write with
      | .ok _ _ => firstBadLane s k w write r
      | a => some (a, laneOffset s k w l)
    else firstBadLane s k w write r
/-- Read the words of enabled lanes: the state after the checks, and the first lane offset that was uncorrectable. -/
def gatherLanes (k : Issue) (w : YWord) (n base : Nat) : List Nat → State → State × Option Nat
  | [], s => (s, none)
  | l :: r, s =>
    if s.laneOn k w l then
      match s.readSlice n (base + laneOffset s k w l) 4 with
      | (s', _, true) => (s', some (laneOffset s k w l))
      | (s', _, false) => gatherLanes k w n base r s'
    else gatherLanes k w n base r s
/-- The bank accesses of the enabled lanes, in the cycles given for each (R195). -/
def laneAccs (s : State) (k : Issue) (w : YWord) (n base : Nat) (cycles : Nat → List Nat) : List (Nat × Nat × Nat) :=
  ((List.range 128).filter (s.laneOn k w)).flatMap (fun l => (cycles l).map (fun c => (c, n, bankOf (base + laneOffset s k w l))))
def execVgth (k : Issue) (w : YWord) (s : State) :=
  yubenOut k w { useD := true, useA := true, useB := true, useC := true, whole := false,
                 reads := [rS w.a, rV w.b, rV w.d], writes := [rV w.d], lat := 128 + loadLat s k w.c.toNat, gap := 129 } (fun t s =>
    if !regionOk w then .fault s 1 0
    else match firstBadLane s k w false (List.range 128) with
      | some (.window, o) => accessFault s true o
      | some (_, o) => accessFault s false o
      | none =>
        let g := s.spadRegion (s.ctxTask k.core k.ctx) w.c.toNat
        lineSlots k (laneAccs s k w g.slice g.base (fun l => [t + 1 + l])) (fun s =>
          match gatherLanes k w g.slice g.base (List.range 128) s with
          | (s', some o) => .fault s' 3 o
          | (s', none) =>
            .done (s'.vputLanes k w (fun l => s.sliceNat g.slice (g.base + laneOffset s k w l) 4))) s) s
/-- Scatter the lanes in ascending order, each a read and a write of its 64-bit word, so the highest-numbered lane prevails; a lane whose word
is uncorrectable ends it (R122, R195). The core's own slice only. -/
def scatterLanes (s0 : State) (k : Issue) (w : YWord) (n base : Nat) : List Nat → State → State × Option Nat
  | [], s => (s, none)
  | l :: r, s =>
    if s0.laneOn k w l then
      match s.readSlice n (base + laneOffset s0 k w l) 4 with
      | (s', _, true) => (s', some (laneOffset s0 k w l))
      | (s', _, false) => scatterLanes s0 k w n base r (s'.writeMerged n (base + laneOffset s0 k w l) (leBytes 4 ((s0.vget k w.d).lane l)))
    else scatterLanes s0 k w n base r s
def execVsct (k : Issue) (w : YWord) (s : State) :=
  yubenOut k w { useD := true, useA := true, useB := true, useC := true, whole := false,
                 reads := [rS w.a, rV w.b, rV w.d], gap := 257 } (fun t s =>
    let g := s.spadRegion (s.ctxTask k.core k.ctx) w.c.toNat
    if !regionOk w then .fault s 1 0
    else if g.slice ≠ k.core then accessFault s false (s.sget k w.a).toNat
    else match firstBadLane s k w true (List.range 128) with
      | some (.window, o) => accessFault s true o
      | some (_, o) => accessFault s false o
      | none =>
        lineSlots k (laneAccs s k w g.slice g.base (fun l => [t + 1 + 2 * l, t + 2 + 2 * l])) (fun s =>
          match scatterLanes s k w g.slice g.base (List.range 128) s with
          | (s', some o) => .fault s' 3 o
          | (s', none) => .done s') s) s

end Sys2Proof.Machine
end

