-- ==== Sys2Proof/Machine/Quant.lean ====
section
/-! DEFINITION. Conversion, quantisation, block scales and the Hadamard mix (R197 to R203). -/

namespace Sys2Proof.Machine

/-- Part `q` of a lane: element `q` of a type with `b` bits. -/
def lanePart (v b q : Nat) : Nat := (v >>> (b * q)) % 2 ^ b
/-- A lane with part `q` replaced. -/
def putPart (v b q x : Nat) : Nat := withBits v (b * q + b - 1) (b * q) x

/-- The lane of VCVT (R197): narrowing gathers Ed elements of part q, widening fills part q. -/
def cvtLane (src dst : ElemType) (q : Nat) (a old : Nat) : Nat :=
  if dst.perLane ≤ src.perLane then
    (List.range dst.perLane).foldl (fun v j => putPart v dst.bits j (convertElem src dst (lanePart a src.bits (q * dst.perLane + j)))) 0
  else
    (List.range src.perLane).foldl (fun v j => putPart v dst.bits (q * src.perLane + j) (convertElem src dst (lanePart a src.bits j))) old
/-- Parts of a conversion. -/
def cvtParts (src dst : ElemType) : Nat := max (src.perLane / dst.perLane) (dst.perLane / src.perLane)
def execVcvt (k : Issue) (w : YWord) (s : State) :=
  yubenOut k w { useD := true, useA := true, useC := true, useImm := true, whole := false,
                 tys := [0, 1, 2, 3, 4, 5, 6, 7, 8, 9, 10, 11, 12],
                 reads := [rV w.a, rV w.d], writes := [rV w.d], lat := 2 } (fun _ s =>
    match ElemType.ofCode w.c.toNat with
    | none => .fault s 1 0
    | some src =>
      if src == w.elem || 8 ≤ w.uimm || cvtParts src w.elem ≤ w.uimm then .fault s 1 0
      else
        let old := s.vget k w.d
        .done (s.vputLanes k w (fun l => cvtLane src w.elem w.uimm ((s.vget k w.a).lane l) (old.lane l)))) s

/-! ### Token quantisation (R198 to R201) -/

/-- The quantisation targets: INT8, INT4, FP8 E4M3 and E5M2. -/
def quantTys : List Nat := [0x0, 0x6, 0x7, 0x8]
def ncBit (w : YWord) : Bool := w.imm.toNat.testBit 8
def quantRegion (w : YWord) : Nat := bitsOf w.uimm 5 4
/-- The record's slice offset: it lies in the own slice, aligned to 32 bytes, inside its region, which a counting instruction must be allowed to
write (R118, R198, R200). -/
def recordCheck (s : State) (k : Issue) (w : YWord) : AccessCheck :=
  let o := (s.sget k w.c).toNat
  match s.checkTask k.core (s.ctxTask k.core k.ctx) (quantRegion w) o 32 32 (!ncBit w) with
  | .ok n off => if n = k.core then .ok n off else .refused
  | a => a
/-- Enabled lanes that satisfy a test. -/
def countLanes (s : State) (k : Issue) (w : YWord) (p : Nat → Bool) : Nat :=
  ((List.range 128).filter (fun l => s.laneOn k w l && p l)).length
/-- Apply or hold the additions of a counting instruction (R200). -/
def countInto (k : Issue) (s : State) (n off elems sats specials : Nat) : YEffect :=
  match k.ctx with
  | .batch => .done (s.addCounts (sliceAddr n off) elems sats specials)
  | .line => match s.commit k.core (.count (sliceAddr n off) elems sats specials) with
    | some s' => .done s'
    | none => .fault s 1 0

/-- VQTOK: one scale entry a lane from the token's minimum and maximum. -/
def execVqtok (k : Issue) (w : YWord) (s : State) :=
  yubenOut k w { useD := true, useA := true, useB := true, useC := true, useImm := true, whole := false, tys := quantTys,
                 reads := [rV w.a, rV w.b, rS w.c, rV w.d], writes := [rV w.d], lat := 6 } (fun t s =>
    if w.uimm - quantRegion w * 16 - (ncBit w).toNat * 256 ≠ 0 then .fault s 1 0
    else match recordCheck s k w with
      | .refused => accessFault s false (s.sget k w.c).toNat
      | .window => accessFault s true (s.sget k w.c).toNat
      | .ok n off =>
        lineSlot k t n off (fun s => match s.readSlice n off 2 with
          | (s', _, true) => .fault s' 3 (s.sget k w.c).toNat
          | (s', bs, false) =>
            match positiveScale? (leNat bs) with
            | none => .fault s' 6 0
            | some alpha =>
              if ExactQ.lt ⟨1, 1⟩ alpha then .fault s' 6 0
              else
                let entry := fun l => tokenEntry w.elem alpha (decodeFloat fmtFP32 ((s.vget k w.a).lane l))
                  (decodeFloat fmtFP32 ((s.vget k w.b).lane l))
                let s'' := s'.vputLanes k w (fun l => (entry l).toWord)
                if ncBit w then .done s''
                else
                  let n' := countLanes s k w (fun l => (entry l).special)
                  if n' = 0 then .done s'' else countInto k s'' n off 0 0 n') s) s

/-- The first enabled lane whose entry fails R77. -/
def badEntryLane (s : State) (k : Issue) (w : YWord) (r : BitVec 5) : Option Nat :=
  (List.range 128).find? (fun l => s.laneOn k w l && !(ScaleEntry.ofWord ((s.vget k r).lane l)).valid w.elem)
/-- The code of one element under its entry, and whether it saturated (R75, R199). -/
def quantLane (t : ElemType) (e : ScaleEntry) (x : Nat) : Nat × Bool :=
  if e.special then (0, false)
  else match decodeFloat fmtFP32 x with
    | .fin _ q => quantElem t (fp16Q e.scale) e.zp q
    | _ => (convertElem .fp32 t x, true)
def execVqnt (k : Issue) (w : YWord) (s : State) :=
  let part := w.uimm % 8
  yubenOut k w { useD := true, useA := true, useB := true, useC := !ncBit w, useImm := true, whole := false, tys := quantTys,
                 reads := [rV w.a, rV w.b, rS w.c, rV w.d], writes := [rV w.d], lat := 2 } (fun _ s =>
    if w.uimm - part - quantRegion w * 16 - (ncBit w).toNat * 256 ≠ 0 ∨ w.elem.perLane ≤ part ∨ (ncBit w = true ∧ quantRegion w ≠ 0) then
      .fault s 1 0
    else match badEntryLane s k w w.b with
      | some l => .fault s 6 l
      | none =>
        let code := fun l => quantLane w.elem (ScaleEntry.ofWord ((s.vget k w.b).lane l)) ((s.vget k w.a).lane l)
        let old := s.vget k w.d
        let s' := s.vputLanes k w (fun l => putPart (old.lane l) w.elem.bits part (code l).1)
        if ncBit w then .done s'
        else match recordCheck s k w with
          | .refused => accessFault s false (s.sget k w.c).toNat
          | .window => accessFault s true (s.sget k w.c).toNat
          | .ok n off => countInto k s' n off (countLanes s k w (fun _ => true)) (countLanes s k w (fun l => (code l).2)) 0) s

/-- s x (q - z) as FP32, which is exact; a special entry gives NaN. A zero result is +0, for the FP8 code of -0 too: the model's choice (log
215). -/
def dequantLane (t : ElemType) (e : ScaleEntry) (code : Nat) : Nat :=
  if e.special then fmtFP32.nan
  else match decodeElem t code with
    | .fin _ q => roundSat fmtFP32 false ((fp16Q e.scale).mul (q.sub (ExactQ.ofInt e.zp)))
    | _ => convertElem t .fp32 code
def execVdq (k : Issue) (w : YWord) (s : State) :=
  yubenOut k w { useD := true, useA := true, useB := true, useImm := true, whole := false, tys := quantTys,
                 reads := [rV w.a, rV w.b, rV w.d], writes := [rV w.d], lat := 2 } (fun _ s =>
    if 8 ≤ w.uimm ∨ w.elem.perLane ≤ w.uimm then .fault s 1 0
    else match badEntryLane s k w w.b with
      | some l => .fault s 6 l
      | none => .done (s.vputLanes k w (fun l =>
          dequantLane w.elem (ScaleEntry.ofWord ((s.vget k w.b).lane l)) (lanePart ((s.vget k w.a).lane l) w.elem.bits w.uimm)))) s

/-! ### Block scales (R202) -/

/-- The scale of the block that holds a lane: bits 15:0 for lanes 0 to 63, 31:16 for the rest. -/
def blockScaleOf (x : Word64) (l : Nat) : Nat := if l < 64 then x.toNat % 65536 else x.toNat / 65536 % 65536
def blockVals (s : State) (k : Issue) (w : YWord) (lo : Nat) : List FVal :=
  (List.range 64).map (fun i => if s.laneOn k w (lo + i) then decodeFloat fmtFP32 ((s.vget k w.a).lane (lo + i)) else .fin false ⟨0, 1⟩)
def execVbscl (k : Issue) (w : YWord) (s : State) :=
  yubenOut k w { useD := true, useA := true, whole := false, tys := [0, 1], reads := [rV w.a], writes := wS w.d, lat := 6 } (fun _ s =>
    .done (s.sset k w.d (BitVec.ofNat 64 (blockScale w.elem (blockVals s k w 0) + blockScale w.elem (blockVals s k w 64) * 65536)))) s
/-- round_rna_sat(x / s); codes 0 under a NaN scale. A scale that R86 never produces (zero, negative or infinite) has no
stated result: a free value. A NaN or infinite element under any other scale is converted as by R73: the model's choice (log 214). -/
def blockQuant (t : ElemType) (scale x free : Nat) : Nat :=
  match decodeFloat fmtFP16 scale with
  | .nan => 0
  | .inf _ => free % 256
  | .fin _ q =>
    if q.num = 0 then free % 256
    else match decodeFloat fmtFP32 x with
      | .fin _ v => encodeSat t false (v.div q)
      | _ => convertElem .fp32 t x
def blockSpec (w : YWord) : YSpec :=
  { useD := true, useA := true, useB := true, useImm := true, whole := false, tys := [0, 1],
    reads := [rV w.a, rS w.b, rV w.d], writes := [rV w.d], lat := 2 }
def execVqblk (k : Issue) (w : YWord) (s : State) :=
  yubenOut k w (blockSpec w) (fun _ s =>
    if 4 ≤ w.uimm then .fault s 1 0
    else
      let old := s.vget k w.d
      .done (s.drawFree.vputLanes k w (fun l => putPart (old.lane l) 8 w.uimm
        (blockQuant w.elem (blockScaleOf (s.sget k w.b) l) ((s.vget k w.a).lane l) (Config.freeValue s.freeIdx l)))) ) s
/-- s x q as FP32, exact; NaN under a NaN scale; an infinite scale has no stated product with 0: IEEE gives NaN, else the infinity. -/
def blockDequant (t : ElemType) (scale code : Nat) : Nat :=
  match decodeFloat fmtFP16 scale, decodeElem t code with
  | .fin n q, .fin _ c => roundSat fmtFP32 (n && c.num == 0) (q.mul c)
  | .inf n, .fin _ c => if c.num = 0 then fmtFP32.nan else signCode fmtFP32 (n != decide (c.num < 0)) 0x7F800000
  | _, _ => fmtFP32.nan
def execVdqblk (k : Issue) (w : YWord) (s : State) :=
  yubenOut k w (blockSpec w) (fun _ s =>
    if 4 ≤ w.uimm then .fault s 1 0
    else .done (s.vputLanes k w (fun l =>
      blockDequant w.elem (blockScaleOf (s.sget k w.b) l) (lanePart ((s.vget k w.a).lane l) 8 w.uimm)))) s

/-! ### The Hadamard mix (R203) -/

/-- Lane `l` of `n` consecutive rows of a slice. -/
def laneColumn (s : State) (sl off n l : Nat) : List Nat := (List.range n).map (fun j => s.sliceNat sl (off + 512 * j + 4 * l) 4)
/-- Write rows 0 to i - 1 of the destination: enabled lanes only. -/
def writeMix (s0 : State) (k : Issue) (w : YWord) (sl so d n h : Nat) : Nat → State → State
  | 0, s => s
  | i + 1, s => (writeMix s0 k w sl so d n h i s).writeLanes sl (d + 512 * i) 4 (s0.laneOn k w) (fun l => hadamardOut h i (laneColumn s0 sl so n l))
/-- The row accesses of a mix issued in cycle t (R203). -/
def mixAccs (t n sl so d : Nat) : List (Nat × Nat × Nat) :=
  (List.range n).map (fun i => (t + 1 + i, sl, bankOf (so + 512 * i))) ++ (List.range n).map (fun i => (t + n + 7 + i, sl, bankOf (d + 512 * i)))
/-- Both sides lie in the own slice, at multiples of 512; every read precedes every write. -/
def hadamard (n h : Nat) (k : Issue) (w : YWord) (s : State) : Host.Outcome State Fault Refusal :=
  yubenOut k w { useA := true, useB := true, useC := true, useImm := true, tys := [0xB], whole := false,
                 reads := [rS w.a, rS w.b], gap := 2 * n + 8 } (fun t s =>
    let task := s.ctxTask k.core k.ctx
    let so := (s.sget k w.a).toNat
    let d := (s.sget k w.b).toNat
    if !regionOk w || decide (4 ≤ w.uimm) then .fault s 1 0
    else match s.checkTask k.core task w.c.toNat so (512 * n) 512 false, s.checkTask k.core task w.uimm d (512 * n) 512 true with
      | .ok a so', .ok b d' =>
        if a ≠ k.core then accessFault s false so
        else if b ≠ k.core then accessFault s false d
        else lineSlots k (mixAccs t n a so' d') (fun s => match s.readSlice a so' (512 * n) with
          | (s', _, true) => .fault s' 3 so
          | (s', _, false) => .done (writeMix s k w a so' d' n h n s')) s
      | .ok _ _, .window => accessFault s true d
      | .ok _ _, .refused => accessFault s false d
      | .window, _ => accessFault s true so
      | .refused, _ => accessFault s false so) s
def execVhad64 (k : Issue) (w : YWord) (s : State) := hadamard 64 8 k w s
def execVhad256 (k : Issue) (w : YWord) (s : State) := hadamard 256 16 k w s

end Sys2Proof.Machine
end

