-- ==== Sys2Proof/Machine/Registers.lean ====
section
/-! DEFINITION. Register reads and writes: the access types (R8 to R10), the latches of R35, the registers with a behaviour of their own,
who may write which block, the regions of BAR0 (R365), and the rows of the table that are one register access. -/

namespace Sys2Proof.Machine

/-- A write without a behaviour of its own: RW fields take the value, 1s clear W1C bits and set W1S bits. -/
def State.plainWrite (s : State) (off v : Nat) : State :=
  let old := (s.putRw off v).reg off
  s.setReg off (BitVec.ofNat 32 ((old.toNat &&& (0xFFFFFFFF ^^^ (v &&& accMask off .w1c))) ||| (v &&& accMask off .w1s)))

/-! ### Domains (R36 to R45, R354, R472) -/

/-- START checks of a started bundle pass with a domain setting (R228). -/
def State.settingOk (s : State) : Bool :=
  match s.seq.bundle with
  | some b => !s.seq.started || s.startRowsCode b.images s.leadDom s.seq.list == ccOk
  | none => true
/-- ANNOUNCE is above VT_MIN, or below 16 where frame starts go over the fabric (R44). -/
def State.announceBad (s : State) (n : Nat) : Bool :=
  let a := s.getF (F.TB_Dn_CFG_ANNOUNCE n)
  decide (s.vtMin n < a) || (decide (a < 16) && (s.getF (F.TB_Dn_CFG_TRIG_SRC n) == 8 || (n == s.leadDom && s.inWall && s.flag F.FAB_STATUS_ORIGIN)))
/-- A domain that takes its frame starts from the fabric matches the beacons (R354). -/
def State.fabricDomOk (s : State) (n : Nat) : Bool :=
  n == s.leadDom && s.flag F.FAB_TIME_LOCK &&
  (match s.fab.last with
   | some b => b.l == s.turnLen n && b.vt == s.vtMin n + s.getF (F.TB_Dn_VTOT_VT_MAX n) * 65536 && b.ann == s.getF (F.TB_Dn_CFG_ANNOUNCE n)
   | none => false)
/-- A domain may be enabled with the settings that its registers hold. -/
def State.domOk (s : State) (n : Nat) : Bool :=
  let len := s.turnLen n
  let src := s.getF (F.TB_Dn_CFG_TRIG_SRC n)
  decide (834 ≤ len) && decide (len ≤ 1048575) && !(n == s.leadDom && decide (109225 < len)) && decide (src ≤ 9) && !s.announceBad n &&
  (src != 8 || s.fabricDomOk n)
/-- The turn grid of a stopped domain starts at this tick, or on the grid of the beacons. -/
def State.startDom (s : State) (n : Nat) : State :=
  let d := s.dom n
  let set := s.domSet n
  let len := s.turnLen n
  let next := match s.fab.last with
    | some b => if set.src = 8 then (if s.now ≤ b.e then b.e - (b.e - s.now) / len * len else b.e + ceilDiv (s.now - b.e) len * len) else s.now
    | none => s.now
  s.setDom n { round := d.round, isRepeat := d.isRepeat, turn := d.turn, start := d.start, nextRound := d.nextRound, written := d.written, ran := d.ran
               on := true, next := next, cand := if set.src = 8 then next else next + set.ann * len, set := set }
def setBit (m n : Nat) (v : Bool) : Nat := clearMask m (2 ^ n) + (if v then 2 ^ n else 0)
/-- One bit of DOM_EN. -/
def State.writeDomBit (s : State) (n : Nat) (v : Bool) : State :=
  let en := s.getF F.TB_CTRL_DOM_EN
  if v then
    if (s.dom n).on then s.setF F.TB_CTRL_DOM_EN (setBit en n true)
    else if s.domOk n then (s.setF F.TB_CTRL_DOM_EN (setBit en n true)).startDom n
    else s.recordNoEffect R.TB_CTRL
  else
    let s := s.setF F.TB_CTRL_DOM_EN (setBit en n false)
    if (s.dom n).on && !(s.dom n).run then s.stopDom n else s
def writeDomBits (v : Nat) : Nat → State → State
  | 0, s => s
  | n + 1, s => let s := writeDomBits v n s; s.writeDomBit n (v.testBit n)
/-- A write of TB_CTRL. A write of LEAD is refused while a bundle is started, or toward a domain with too long a turn; it then has no
effect in any field (R40). -/
def State.writeTbCtrl (s : State) (v : Nat) : State :=
  let lead := v % 4
  if lead = s.leadDom then writeDomBits (bitsOf v 7 4) 4 s
  else if s.seq.started || decide (109225 < s.turnLen lead) then s.recordNoEffect R.TB_CTRL
  else writeDomBits (bitsOf v 7 4) 4
    { s.setF F.TB_CTRL_LEAD lead with tt := { s.tt with running := false, marked := false, last := none, marks := [] } }
/-- A write of TB_Dn_TURN: a length above 109,225 for the lead domain is refused and recorded; else it counts while the domain is
disabled (R40, R42). -/
def State.writeTurn (s : State) (n v : Nat) : State :=
  let t := s.putRw (R.TB_Dn_TURN n) v
  if n == s.leadDom && decide (109225 < bitsOf v 19 0) then s.recordNoEffect (R.TB_Dn_TURN n)
  else if (s.dom n).on then s
  else if n == s.leadDom && !t.settingOk then s.recordNoEffect (R.TB_Dn_TURN n)
  else t
/-- A write of TB_Dn_CFG (R42). -/
def State.writeDomCfg (s : State) (n v : Nat) : State :=
  let t := s.putRw (R.TB_Dn_CFG n) v
  let src := bitsOf v 3 0
  if (s.dom n).on && (decide (9 < src) || (src == 8 && s.getF (F.TB_Dn_CFG_TRIG_SRC n) != 8) || t.announceBad n) then s.recordNoEffect (R.TB_Dn_CFG n)
  else t
/-- A write of TB_Dn_VTOT (R42). -/
def State.writeVtot (s : State) (n v : Nat) : State :=
  let t := s.putRw (R.TB_Dn_VTOT n) v
  if decide (bitsOf v 29 16 < bitsOf v 13 0) || ((s.dom n).on && t.announceBad n) || (n == s.leadDom && !t.settingOk) then
    s.recordNoEffect (R.TB_Dn_VTOT n)
  else t
/-- A write of TB_Dn_VSCAN, while the domain is disabled (R296). -/
def State.writeVscan (s : State) (n v : Nat) : State :=
  if (s.dom n).on then s
  else
    let t := s.putRw (R.TB_Dn_VSCAN n) v
    if n == s.leadDom && !t.settingOk then s.recordNoEffect (R.TB_Dn_VSCAN n) else t
/-- A write of a round register, while the domain is disabled (R41). -/
def State.writeRound (s : State) (n : Nat) (hi : Bool) (v : Nat) : State :=
  let d := s.dom n
  if d.on then s
  else s.setDom n { d with written := true, nextRound := if hi then withBits d.shown 47 32 v else withBits d.shown 31 0 v }
def execDomainEnable (v : Word32) (s : State) : Host.Outcome State Fault Refusal := .next (s.writeTbCtrl v.toNat)
def execDomainStop (v : Word32) (s : State) : Host.Outcome State Fault Refusal := .next (s.writeTbCtrl v.toNat)
def execLeadWrite (v : Word32) (s : State) : Host.Outcome State Fault Refusal := .next (s.writeTbCtrl v.toNat)
def execTbDnCfgWrite (n : Nat) (v : Word32) (s : State) : Host.Outcome State Fault Refusal := .next (if n < 4 then s.writeDomCfg n v.toNat else s)
def execTbDnVtotWrite (n : Nat) (v : Word32) (s : State) : Host.Outcome State Fault Refusal := .next (if n < 4 then s.writeVtot n v.toNat else s)
def execTbDnRoundWrite (n : Nat) (hi : Bool) (v : Word32) (s : State) : Host.Outcome State Fault Refusal :=
  .next (if n < 4 then s.writeRound n hi v.toNat else s)

/-! ### Grid, accumulators, tallies, fences -/

def execGridCtrlWrite (v : Word32) (s : State) : Host.Outcome State Fault Refusal := .next (s.writeGridCtrl (v.toNat.testBit 0))
/-- A write of ACC_INJECT: outside SECURED, or with the permission of a D2 session (R111, R410). -/
def State.writeInject (s : State) (v : Nat) : State :=
  if s.lc ≠ 2 ∨ s.debugPerm 5 = true then s.putRw R.ACC_INJECT v else s.recordNoEffect R.ACC_INJECT
def execAccInjectWrite (v : Word32) (s : State) : Host.Outcome State Fault Refusal := .next (s.writeInject v.toNat)
/-- ACC_DIAGNOSTIC_ACCESS: a 16-byte access of a whole word, or a 4-byte one with correction (R109). -/
def execAccDiagnosticAccess (row col off len : Nat) (write : Bool) (data : List Byte) (flips : List (Nat × Nat)) (s : State) :
    Host.Outcome State Fault Refusal :=
  let s := s.strikeAcc flips
  let i := row * 512 + col
  .next (if !s.accPresent row col || !s.sec.conf.isEmpty || !accForm off len || (write && data.length != len) then s.refuseAccess.answerHost none
    else if s.passHolds i then s
    else if write then s.diagWrite i off data
    else match s.diagRead i off len with
      | (s, none) => s.answerHost none
      | (s, some bs) => s.answerHost (some (leNat bs)))
def State.writeTally (s : State) (i v : Nat) : State := s.setF (F.QUE_TALLY_i_VALUE i) v
def execQueTallyWrite (i : Nat) (v : Word32) (s : State) : Host.Outcome State Fault Refusal := .next (if i < 64 then s.writeTally i v.toNat else s)
/-- A fence counter is written by the host and the Rulebook; devices write it by flits (R287). -/
def State.writeFenceReg (s : State) (k v : Nat) (who : Requester) : State := if who = .host ∨ who = .rulebook then s.writeFence k v else s
def execCmpFenceWrite (k : Nat) (v : Word32) (who : Requester) (s : State) : Host.Outcome State Fault Refusal :=
  .next (if k < 64 then s.writeFenceReg k v.toNat who else s)

/-! ### Instruction memory (R183) -/

/-- The Rulebook, the TCC and, in SECURED, a D2 session with the permission write instruction memory. -/
def State.mayWriteCode (s : State) (who : Requester) : Bool :=
  who == .rulebook || who == .tcc || (who == .host && s.lc == 2 && s.debugPerm 4)
/-- The word that VC_n_IADDR names may change: not a line word while a bundle is started, nor a batch word while the batch context issues. -/
def State.codeFree (s : State) (n : Nat) : Bool :=
  if s.getF (F.VC_n_IADDR_INDEX n) < s.getF (F.VC_n_CTRL_LINE_END n) then !s.seq.started
  else !((s.vcore n).batchRun && !(s.vcore n).batchFault)
def State.writeCodeAddr (s : State) (n v : Nat) (who : Requester) : State :=
  if s.mayWriteCode who then s.putRw (R.VC_n_IADDR n) v else s.recordNoEffect (R.VC_n_IADDR n)
def State.writeCodeLo (s : State) (n v : Nat) (who : Requester) : State :=
  if s.mayWriteCode who then { s with yu := { s.yu with idataLo := SMap.set (fun _ => 0#32) s.yu.idataLo n (BitVec.ofNat 32 v) } }
  else s.recordNoEffect (R.VC_n_IDATA_LO n)
def State.writeCodeHi (s : State) (n v : Nat) (who : Requester) : State :=
  if s.mayWriteCode who && s.codeFree n then
    let i := s.getF (F.VC_n_IADDR_INDEX n)
    let w := (SMap.get (fun _ => 0#32) s.yu.idataLo n).toNat + v % 2 ^ 32 * 2 ^ 32
    (s.setImem (n * 16384 + i) (BitVec.ofNat 64 w)).setF (F.VC_n_IADDR_INDEX n) ((i + 1) % 16384)
  else s.recordNoEffect (R.VC_n_IDATA_HI n)
def execVcIdataHiWrite (n : Nat) (v : Word32) (who : Requester) (s : State) : Host.Outcome State Fault Refusal :=
  .next (if n < 16 then s.writeCodeHi n v.toNat who else s)

/-! ### Debug (R408, R420) -/

/-- HALT of one core: it stops at its next instruction, or goes on; STEP lets a halted core issue one. -/
def haltCores (halt step : Nat) : Nat → State → State
  | 0, s => s
  | n + 1, s =>
    let s := haltCores halt step n s
    if s.unitUsable n then
      let v := s.vcore n
      s.setVcore n { v with dbgHalted := halt.testBit n, dbgStep := halt.testBit n && (v.dbgStep || step.testBit n) }
    else s
def State.writeDbgCtrl (s : State) (v : Nat) : State :=
  if s.debugPerm 0 then
    let s := haltCores (bitsOf v 31 16) (bitsOf v 15 0) 16 (s.setF F.DBG_CTRL_HALT (bitsOf v 31 16))
    s.setF F.DBG_STATUS_HALTED (bitsOf v 31 16 &&& s.getF F.HUB_CAP0_VC_MASK)
  else s.recordNoEffect R.DBG_CTRL
def execDbgHalt (v : Word32) (s : State) : Host.Outcome State Fault Refusal := .next (if s.regAnswers R.DBG_CTRL then s.writeDbgCtrl v.toNat else s.recordNoEffect R.DBG_CTRL)
def execDbgStep (v : Word32) (s : State) : Host.Outcome State Fault Refusal := .next (if s.regAnswers R.DBG_CTRL then s.writeDbgCtrl v.toNat else s.recordNoEffect R.DBG_CTRL)
def State.nextDebugAddr (s : State) : State :=
  let a := s.debugAddr + 8
  (s.setF F.DBG_MEM_ADDR_LO_ADDR (a / 8)).setF F.DBG_MEM_ADDR_HI_ADDR (a / 2 ^ 32)
def State.debugRefused (s : State) : State := (s.setF F.DBG_STATUS_MEM_ERR 1).recordNoEffect R.DBG_CTRL
/-- A write of a DBG_MEM_ register needs one of its permissions. -/
def State.writeDbgMem (s : State) (off v : Nat) : State :=
  if s.debugPerm 2 || s.debugPerm 3 then s.plainWrite off v else s.recordNoEffect R.DBG_CTRL
/-- An eight-byte debug read. -/
def State.debugMemRead (s : State) : State × Nat :=
  if !s.debugPerm 2 then (s.debugRefused, 0)
  else match s.debugRead with
    | (t, some v) => (t.nextDebugAddr.latch R.DBG_MEM_DATA_HI (v / 2 ^ 32), v % 2 ^ 32)
    | (t, none) => (t.debugRefused.nextDebugAddr.latch R.DBG_MEM_DATA_HI 0, 0)
/-! ### Writes -/

/-- Registers that the Rulebook alone writes, and whose refused write is recorded: STR_, FIN_ but its scrub, DPI_ and DPO_ (R294, R314, R328). -/
def pictureReg (off : Nat) : Bool :=
  (decide (0x1020000 ≤ off) && decide (off < 0x1040000)) || (decide (0x1060000 ≤ off) && decide (off < 0x1070000) && off != R.FIN_SCRUB) ||
  (decide (0x1080000 ≤ off) && decide (off < 0x10A0000))
/-- Registers that only the Rulebook writes (R141, R149, R342). -/
def ruleReg (off : Nat) : Bool := off == R.MC_RSV || (decide (0x120000 ≤ off) && decide (off < 0x130000)) || off == R.TASK_CTRL || (regIdx R.FAB_DETOUR_i_LO 64 off).isSome || (regIdx R.FAB_DETOUR_i_HI 64 off).isSome
/-- Registers that only the host writes. -/
def hostReg (off : Nat) : Bool :=
  (decide (0x1070000 ≤ off) && decide (off < 0x1080000)) || off == R.FIN_SCRUB || off == R.TB_SYNC_OUT ||
  (decide (0x10C0000 ≤ off) && decide (off < 0x10D0000)) || (decide (0x10F0000 ≤ off) && decide (off < 0x1100000))
/-- A write of SEC_OTP_CMD. -/
def State.writeOtpCmd (s : State) (v : Nat) : State :=
  match (match v % 8 with | 1 => execSecOtpRead s | 2 => execSecOtpProgram s | 3 => execSecOtpGensecret s | _ => .next s) with
  | .next t => t
  | _ => s
/-- A write of CRC_e_CTRL: START, STOP, or settings while no scan is in progress. -/
def State.writeCrcCtrl (s : State) (e v : Nat) : State :=
  let busy := s.flag (F.CRC_e_CTRL_BUSY e)
  match (if v.testBit 0 && !(busy && v.testBit 1) then execCrcStart e (BitVec.ofNat 32 v) s
      else if v.testBit 1 then execCrcStop e s
      else .next (if busy then s else s.putRw (R.CRC_e_CTRL e) v)) with
  | .next t => t
  | _ => s
/-- CRC registers beside CTRL take writes only while their engine is idle. -/
def State.writeCrcReg (s : State) (off v : Nat) : State :=
  if s.flag (F.CRC_e_CTRL_BUSY ((off - R.CRC_e_CTRL 0) / 64)) then s else s.plainWrite off v
/-- A write of VC_n_CTRL: BATCH_EN by the TCC, LINE_END by the Rulebook while no bundle is started. -/
def State.writeVcCtrl (s : State) (n v : Nat) (who : Requester) : State :=
  let s := if who = .tcc then s.setF (F.VC_n_CTRL_BATCH_EN n) (bitsOf v 31 31) else s
  if who = .rulebook ∧ s.seq.started = false then s.setF (F.VC_n_CTRL_LINE_END n) (bitsOf v 13 0) else s
/-- A write of SHC_CTRL (R144). -/
def State.writeShcCtrl (s : State) (v : Nat) : State :=
  let s := s.putRw R.SHC_CTRL v
  if v.testBit 0 then (match execShcInv s with | .next t => t | _ => s) else s
/-- A write of TB_SWTRIG. -/
def State.writeSwtrig (s : State) (v : Nat) : State := match execTbSwtrig (BitVec.ofNat 32 v) s with | .next t => t | _ => s
/-- A write of PCI_HWIN_HI puts the 64-bit address in force. -/
def State.writeUpper (s : State) (off v : Nat) : State :=
  let s := s.plainWrite off v
  { s with host := { s.host with hwin := s.addr64 R.PCI_HWIN_LO off 0xFFFFF000 } }
/-- SEC_OTP_ADDR and SEC_OTP_DATA take host writes in VENDOR_TEST and OPEN. -/
def State.writeOtpReg (s : State) (off v : Nat) (who : Requester) : State := if who = .host ∧ s.lc < 2 then s.plainWrite off v else s
/-- The registers whose write has a behaviour of its own. -/
def State.ownWrite (s : State) (off v : Nat) (who : Requester) : Option State :=
  pickWrite off
    [(oneReg R.TB_CTRL, 1, fun _ => s.writeTbCtrl v), (oneReg R.TB_SWTRIG, 1, fun _ => s.writeSwtrig v), (R.TB_Dn_TURN, 4, fun n => s.writeTurn n v),
     (R.TB_Dn_CFG, 4, fun n => s.writeDomCfg n v), (R.TB_Dn_VTOT, 4, fun n => s.writeVtot n v), (R.TB_Dn_VSCAN, 4, fun n => s.writeVscan n v),
     (R.TB_Dn_ROUND_LO, 4, fun n => s.writeRound n false v), (R.TB_Dn_ROUND_HI, 4, fun n => s.writeRound n true v),
     (oneReg R.GRID_CTRL, 1, fun _ => s.writeGridCtrl (v.testBit 0)), (oneReg R.ACC_INJECT, 1, fun _ => s.writeInject v),
     (R.SPAD_n_PWR_LO, 16, fun n => s.writePwr n false v who), (R.SPAD_n_PWR_HI, 16, fun n => s.writePwr n true v who),
     (R.VC_n_CTRL, 16, fun n => s.writeVcCtrl n v who), (R.VC_n_IADDR, 16, fun n => s.writeCodeAddr n v who),
     (R.VC_n_IDATA_LO, 16, fun n => s.writeCodeLo n v who), (R.VC_n_IDATA_HI, 16, fun n => s.writeCodeHi n v who),
     (oneReg R.SHC_CTRL, 1, fun _ => s.writeShcCtrl v), (R.QUE_RING_r_CFG, 256, fun r => s.writeRing r v), (R.QUE_TALLY_i, 64, fun i => s.writeTally i v),
     (R.CMP_FENCE_k, 64, fun k => s.writeFenceReg k v who),
     (oneReg R.PCI_HWIN_HI, 1, fun _ => s.writeUpper off v),
     (oneReg R.SEC_OTP_CMD, 1, fun _ => if who = .host then s.writeOtpCmd v else s), (oneReg R.SEC_OTP_ADDR, 1, fun _ => s.writeOtpReg off v who),
     (oneReg R.SEC_OTP_DATA, 1, fun _ => s.writeOtpReg off v who), (oneReg R.PWR_RESET, 1, fun _ => s.writeReset v),
     (R.CRC_e_CTRL, 8, fun e => s.writeCrcCtrl e v), (oneReg R.DBG_CTRL, 1, fun _ => s.writeDbgCtrl v)]
/-- The window of a slice that an offset is one of, and whether it is a MASK word. -/
def windowOf (off : Nat) : Option (Nat × Nat × Bool) :=
  (List.range 512).findSome? (fun k =>
    if R.SPAD_n_WIN_w (k / 32) (k % 32) = off then some (k / 32, k % 32, false)
    else if R.SPAD_n_WIN_w_MASK (k / 32) (k % 32) = off then some (k / 32, k % 32, true) else none)
/-- A register write that reaches its register, beside the one that makes a debug access. -/
def State.coreWrite (s : State) (off v : Nat) (who : Requester) : State :=
  if (regRow? off).isNone then s
  else if s.pstate = 2 ∧ islandReg off = false then s.recordNoEffect off
  else if pictureReg off && who != .rulebook then s.recordNoEffect off
  else if (ruleReg off && who != .rulebook) || (hostReg off && who != .host) then s
  else match s.ownWrite off v who with
    | some t => t
    | none =>
      if off = R.MC_RSV then s.putRw off (min 204 (v % 256))
      else if 0x1100000 ≤ off then s.writeDbgMem off v
      else if 0x10F8000 ≤ off then s.writeCrcReg off v
      else match windowOf off with
        | some (n, w, m) => s.writeWindow n w m v who
        | none => s.plainWrite off v
/-- The write of eight bytes that a debug access makes; none where the region refuses it. A register takes two words, and needs the permission
of a register write too; part of another device's block cannot be written (R344). -/
def State.debugPut (s : State) (a : Nat) (bs : List Byte) : Option State :=
  if isHostWindow a then (if s.flag F.PCI_STATUS_BME then some (s.putHost (s.host.hwin + (a - 0x2000000000)) bs) else none)
  else if isRegAddr a then
    (if s.debugPerm 1 then some ((s.coreWrite (a - 0x1100000000) (leNat (bs.take 4)) .host).coreWrite (a - 0x1100000000 + 4) (leNat (bs.drop 4)) .host) else none)
  else if isAccAddr a then
    (if s.accPresent (accRowAt a) (accColAt a) && s.sec.conf.isEmpty then
      some ((s.diagWrite (accIndexAt a) (a % 16) (bs.take 4)).diagWrite (accIndexAt a) (a % 16 + 4) (bs.drop 4)) else none)
  else if isCvAddr a then some (s.setCv ((a - 0x1104000000) / 8) (leNat bs))
  else match s.mapDevice a 8 true with
    | .dram l => if s.stripesLost l 8 || s.confMeets l 8 then none else some (s.writeDev l bs)
    | .slice n o => if s.bankOn n (bankOf o) then some (s.writeDev a bs) else none
    | _ => none
/-- An eight-byte debug write, with the lower half that is held. -/
def State.debugMemWrite (s : State) (v : Nat) : State :=
  let bs := leBytes 4 (s.reg R.DBG_MEM_DATA_LO).toNat ++ leBytes 4 v
  if s.debugLevel < 2 then s.recordNoEffect R.DBG_CTRL
  else if !s.debugPerm 3 then s.debugRefused
  else if !s.debugScope || s.confMeets s.debugAddr 8 then s.debugRefused.nextDebugAddr
  else ((s.debugPut s.debugAddr bs).getD s.debugRefused).nextDebugAddr
/-- A debug access to a word that a pass is reading or writing waits for the end of the pass's timeline (R109). -/
def State.debugWaits (s : State) : Bool := isAccAddr s.debugAddr && s.passHolds (accIndexAt s.debugAddr)
/-- A register write. -/
def State.writeReg (s : State) (off v : Nat) (who : Requester) : State :=
  if off = R.DBG_MEM_DATA_HI ∧ (s.pstate ≠ 2 ∨ islandReg off = true) then (if s.debugWaits then s else s.debugMemWrite v) else s.coreWrite off v who
def execDbgMemDataHiWrite (v : Word32) (s : State) : Host.Outcome State Fault Refusal :=
  .next (if s.regAnswers R.DBG_CTRL then s.writeReg R.DBG_MEM_DATA_HI v.toNat .host else s.recordNoEffect R.DBG_CTRL)

/-! ### Reads -/

/-- A register read: the value, and what the read does. -/
def State.readReg (s : State) (off : Nat) : State × Nat :=
  if !s.regAnswers off then (if s.pstate = 2 ∧ islandReg off = false then s.recordNoEffect off else s, 0)
  else if off = R.DBG_MEM_DATA_LO then s.debugMemRead
  else ((s.latchGroup off).clearRc off, s.liveReg off)
def State.answerRead (s : State) (off : Nat) : State := if off = R.DBG_MEM_DATA_LO ∧ s.debugWaits = true then s else match s.readReg off with | (t, v) => t.answerHost (some v)
def execTbNowLoRead (s : State) : Host.Outcome State Fault Refusal := .next (s.answerRead R.TB_NOW_LO)
def execTbDnRoundLoRead (n : Nat) (s : State) : Host.Outcome State Fault Refusal := .next (if n < 4 then s.answerRead (R.TB_Dn_ROUND_LO n) else s)
def execTtRoundLoRead (s : State) : Host.Outcome State Fault Refusal := .next (s.answerRead R.TT_ROUND_LO)
def execGridOccLoRead (s : State) : Host.Outcome State Fault Refusal := .next (s.answerRead R.GRID_OCC_LO)
def execVcIdataLoRead (n : Nat) (s : State) : Host.Outcome State Fault Refusal := .next (if n < 16 then s.answerRead (R.VC_n_IDATA_LO n) else s)
def execCrcValLoRead (e : Nat) (s : State) : Host.Outcome State Fault Refusal := .next (if e < 8 then s.answerRead (R.CRC_e_VAL_LO e) else s)
def execDbgMemDataLoRead (s : State) : Host.Outcome State Fault Refusal := .next (s.answerRead R.DBG_MEM_DATA_LO)

/-! ### BAR0 (R365) -/

/-- A word of the MSI-X table or of the pending bits, by BAR0 offset. -/
def isMsixTable (b : Nat) : Bool := decide (0xC4000 ≤ b) && decide (b < 0xC4400)
def isPba (b : Nat) : Bool := decide (0xC5000 ≤ b) && decide (b < 0xC5008)
def State.pbaWord (s : State) (i : Nat) : Nat := ((List.range 32).map (fun k => if s.host.msixPend.contains (32 * i + k) then 2 ^ k else 0)).foldl (· + ·) 0
/-- A write of the MSI-X table; a vector that is no longer masked sends the message that waits. -/
def State.writeMsix (s : State) (b v : Nat) : State :=
  let k := (b - 0xC4000) / 4
  ({ s with host := { s.host with msixTable := SMap.set (fun k => if k % 4 = 3 then 1#32 else 0#32) s.host.msixTable k (BitVec.ofNat 32 v) } }).flushMsix
/-- A host write of BAR0. -/
def State.bar0Write (s : State) (b : Nat) (data : List Byte) (poisoned : Bool) : State :=
  let n := data.length
  if s.flag F.PCI_STATUS_D3 then s
  else if poisoned then s.record 0x0B 12
  else if b < 0x2000000 then
    if b % 4 ≠ 0 ∨ n ≠ 4 then s.refuseBar 0
    else if isMsixTable b then s.writeMsix b (leNat data)
    else match barReg b with
      | some off => s.writeReg off (leNat data) .host
      | none => s
  else if b < 0x2004000 then
    if b % 4 = 0 ∧ n % 4 = 0 ∧ 4 ≤ n ∧ n ≤ 64 ∧ b + n ≤ 0x2004000 then { s with host := { s.host with page := putBytes s.host.page (b - 0x2000000) data } }
    else s.refuseBar 0
  else if b < 0x2006000 then s.refuseBar 0
  else s
/-- A host read of BAR0. -/
def State.bar0Read (s : State) (b n : Nat) : State :=
  if s.flag F.PCI_STATUS_D3 then s.answerHost none
  else if b < 0x2000000 then
    if b % 4 ≠ 0 ∨ n ≠ 4 then s.refuseBar 0
    else if isMsixTable b then s.answerHost (some (s.msixWord ((b - 0xC4000) / 16) ((b - 0xC4000) / 4 % 4)))
    else if isPba b then s.answerHost (some (s.pbaWord ((b - 0xC5000) / 4)))
    else match barReg b with
      | some off => s.answerRead off
      | none => s.answerHost (some 0)
  else if b < 0x2004000 then s.refuseBar 0
  else if b < 0x2006000 then
    if (n = 4 ∨ n = 8) ∧ b % n = 0 then
      s.answerHost (some (leNat ((List.range n).map (fun i => SMap.get zeroByte s.host.mirror (b - 0x2004000 + i)))))
    else s.refuseBar 0
  else s.answerHost (some 0)
/-- REGISTER_WRITE: by BAR0 offset, of a register, or by the host of the command page. -/
def execRegisterWrite (who : Requester) (b : Nat) (data : List Byte) (poisoned : Bool) (s : State) : Host.Outcome State Fault Refusal :=
  .next (if who = .host then s.bar0Write b data poisoned
    else match barReg b with
      | some off => if b % 4 = 0 ∧ data.length = 4 then s.writeReg off (leNat data) who else s
      | none => s)
/-- REGISTER_READ: by BAR0 offset. -/
def execRegisterRead (who : Requester) (b len : Nat) (s : State) : Host.Outcome State Fault Refusal :=
  .next (if who = .host then s.bar0Read b len
    else match barReg b with
      | some off => s.answerRead off
      | none => s)

end Sys2Proof.Machine
end

