-- ==== Sys2Proof/Machine/ScalarAlu.lean ====
section
/-! DEFINITION. Scalar integer instructions, constants and special registers (R167 to R170). -/

namespace Sys2Proof.Machine

/-- The register form of op 0x00: d, a and b. -/
def regForm (w : YWord) (lat : Nat) : YSpec :=
  { useD := true, useA := true, useB := true, reads := [rS w.a, rS w.b], writes := wS w.d, lat := lat }
/-- The immediate form of op 0x01: d, a and imm24. -/
def immForm (w : YWord) : YSpec :=
  { useD := true, useA := true, useImm := true, reads := [rS w.a], writes := wS w.d }
/-- The one-operand form (CLZ, POPC): d and a. -/
def oneForm (w : YWord) : YSpec := { useD := true, useA := true, reads := [rS w.a], writes := wS w.d }

/-- sd := f(sa, sb). -/
def aluReg (lat : Nat) (f : Word64 → Word64 → Word64) (k : Issue) (w : YWord) (s : State) : Host.Outcome State Fault Refusal :=
  yubenOut k w (regForm w lat) (fun _ s => .done (s.sset k w.d (f (s.sget k w.a) (s.sget k w.b)))) s
/-- sd := f(sa, imm). -/
def aluImm (f : Word64 → Word64 → Word64) (k : Issue) (w : YWord) (s : State) : Host.Outcome State Fault Refusal :=
  yubenOut k w (immForm w) (fun _ s => .done (s.sset k w.d (f (s.sget k w.a) w.simm))) s
/-- sd := f(sa). -/
def aluOne (f : Word64 → Word64) (k : Issue) (w : YWord) (s : State) : Host.Outcome State Fault Refusal :=
  yubenOut k w (oneForm w) (fun _ s => .done (s.sset k w.d (f (s.sget k w.a)))) s
/-- A division: it also needs the divider (R168). -/
def aluDiv (f : Word64 → Word64 → Word64) (k : Issue) (w : YWord) (s : State) : Host.Outcome State Fault Refusal :=
  yubenOut k w { regForm w 36 with divider := true } (fun _ s => .done (s.sset k w.d (f (s.sget k w.a) (s.sget k w.b)))) s

/-- Shifts use bits 5:0 of the second operand (R167). -/
def shAmt (b : Word64) : Nat := b.toNat % 64
def fSll (a b : Word64) : Word64 := a <<< shAmt b
def fSrl (a b : Word64) : Word64 := a >>> shAmt b
def fSra (a b : Word64) : Word64 := a.sshiftRight (shAmt b)
def boolWord (b : Bool) : Word64 := if b then 1#64 else 0#64
def fSlt (a b : Word64) : Word64 := boolWord (a.slt b)
def fSltu (a b : Word64) : Word64 := boolWord (a.ult b)
def fMinS (a b : Word64) : Word64 := if b.slt a then b else a
def fMaxS (a b : Word64) : Word64 := if a.slt b then b else a
def fMinU (a b : Word64) : Word64 := if b.ult a then b else a
def fMaxU (a b : Word64) : Word64 := if a.ult b then b else a
/-- High 64 bits of the signed and of the unsigned 128-bit product. -/
def fMulh (a b : Word64) : Word64 := BitVec.ofInt 64 (a.toInt * b.toInt / 18446744073709551616)
def fMulhu (a b : Word64) : Word64 := BitVec.ofNat 64 (a.toNat * b.toNat / 18446744073709551616)
/-- Quotient and remainder of R168: by zero, all ones and the dividend. -/
def fDivS (a b : Word64) : Word64 := if b = 0#64 then BitVec.allOnes 64 else a.sdiv b
def fDivU (a b : Word64) : Word64 := if b = 0#64 then BitVec.allOnes 64 else a / b
def fRemS (a b : Word64) : Word64 := if b = 0#64 then a else a.srem b
def fRemU (a b : Word64) : Word64 := if b = 0#64 then a else a % b
def fClz (a : Word64) : Word64 := if a = 0#64 then 64#64 else BitVec.ofNat 64 (63 - a.toNat.log2)
def fPopc (a : Word64) : Word64 := BitVec.ofNat 64 (countBits a.toNat 64)

def execAdd (k : Issue) (w : YWord) (s : State) := aluReg 1 (fun a b => a + b) k w s
def execSub (k : Issue) (w : YWord) (s : State) := aluReg 1 (fun a b => a - b) k w s
def execAndR (k : Issue) (w : YWord) (s : State) := aluReg 1 (fun a b => a &&& b) k w s
def execOrR (k : Issue) (w : YWord) (s : State) := aluReg 1 (fun a b => a ||| b) k w s
def execXorR (k : Issue) (w : YWord) (s : State) := aluReg 1 (fun a b => a ^^^ b) k w s
def execSll (k : Issue) (w : YWord) (s : State) := aluReg 1 fSll k w s
def execSrl (k : Issue) (w : YWord) (s : State) := aluReg 1 fSrl k w s
def execSra (k : Issue) (w : YWord) (s : State) := aluReg 1 fSra k w s
def execSlt (k : Issue) (w : YWord) (s : State) := aluReg 1 fSlt k w s
def execSltu (k : Issue) (w : YWord) (s : State) := aluReg 1 fSltu k w s
def execMinS (k : Issue) (w : YWord) (s : State) := aluReg 1 fMinS k w s
def execMaxS (k : Issue) (w : YWord) (s : State) := aluReg 1 fMaxS k w s
def execMinu (k : Issue) (w : YWord) (s : State) := aluReg 1 fMinU k w s
def execMaxu (k : Issue) (w : YWord) (s : State) := aluReg 1 fMaxU k w s
def execAddi (k : Issue) (w : YWord) (s : State) := aluImm (fun a b => a + b) k w s
def execSubi (k : Issue) (w : YWord) (s : State) := aluImm (fun a b => a - b) k w s
def execAndi (k : Issue) (w : YWord) (s : State) := aluImm (fun a b => a &&& b) k w s
def execOri (k : Issue) (w : YWord) (s : State) := aluImm (fun a b => a ||| b) k w s
def execXori (k : Issue) (w : YWord) (s : State) := aluImm (fun a b => a ^^^ b) k w s
def execSlli (k : Issue) (w : YWord) (s : State) := aluImm fSll k w s
def execSrli (k : Issue) (w : YWord) (s : State) := aluImm fSrl k w s
def execSrai (k : Issue) (w : YWord) (s : State) := aluImm fSra k w s
def execSlti (k : Issue) (w : YWord) (s : State) := aluImm fSlt k w s
def execSltui (k : Issue) (w : YWord) (s : State) := aluImm fSltu k w s
def execMini (k : Issue) (w : YWord) (s : State) := aluImm fMinS k w s
def execMaxi (k : Issue) (w : YWord) (s : State) := aluImm fMaxS k w s
def execMinui (k : Issue) (w : YWord) (s : State) := aluImm fMinU k w s
def execMaxui (k : Issue) (w : YWord) (s : State) := aluImm fMaxU k w s
def execMul (k : Issue) (w : YWord) (s : State) := aluReg 3 (fun a b => a * b) k w s
def execMulh (k : Issue) (w : YWord) (s : State) := aluReg 3 fMulh k w s
def execMulhu (k : Issue) (w : YWord) (s : State) := aluReg 3 fMulhu k w s
def execDivS (k : Issue) (w : YWord) (s : State) := aluDiv fDivS k w s
def execDivu (k : Issue) (w : YWord) (s : State) := aluDiv fDivU k w s
def execRemS (k : Issue) (w : YWord) (s : State) := aluDiv fRemS k w s
def execRemu (k : Issue) (w : YWord) (s : State) := aluDiv fRemU k w s
def execClz (k : Issue) (w : YWord) (s : State) := aluOne fClz k w s
def execPopc (k : Issue) (w : YWord) (s : State) := aluOne fPopc k w s

/-- sd := sign-extended imm24 (R169). -/
def execLi (k : Issue) (w : YWord) (s : State) :=
  yubenOut k w { useD := true, useImm := true, writes := wS w.d } (fun _ s => .done (s.sset k w.d w.simm)) s
/-- sd := (sa shifted left 24) OR zero-extended imm24 (R169). -/
def execLim (k : Issue) (w : YWord) (s : State) :=
  yubenOut k w { useD := true, useA := true, useImm := true, reads := [rS w.a], writes := wS w.d }
    (fun _ s => .done (s.sset k w.d ((s.sget k w.a) <<< 24 ||| w.imm.zeroExtend 64))) s

/-- The special registers of R170; the cycle is that of the issue. -/
def State.specialReg (s : State) (k : Issue) (cyc n : Nat) : Option Nat :=
  let c := s.yctx k.core k.ctx
  match n with
  | 0x000 => some k.core
  | 0x001 => some (ctxIdx k.ctx)
  | 0x002 => some (s.ctxTask k.core k.ctx)
  | 0x010 => some (s.tt.round % 2 ^ 48)
  | 0x011 => some (if s.seq.started then s.tt.runRound else 0)
  | 0x012 => some s.tt.turn
  | 0x013 => some cyc
  | 0x014 => some s.budget
  | 0x015 => some s.tt.isRepeat.toNat
  | 0x020 => some c.loop0.count
  | 0x021 => some c.loop1.count
  | 0x030 => some (s.getF F.HUB_ACLK_MHZ)
  | _ => none

/-- sd := special register imm24, zero-extended; an unlisted number is illegal (R170). -/
def execRdsr (k : Issue) (w : YWord) (s : State) :=
  yubenOut k w { useD := true, useImm := true, writes := wS w.d, lat := 2 }
    (fun t s => match s.specialReg k t w.uimm with
      | some v => .done (s.sset k w.d (BitVec.ofNat 64 v))
      | none => .fault s 1 0) s

end Sys2Proof.Machine
end

