-- ==== Sys2Proof/Machine/StoreErrors.lean ====
section
/-! DEFINITION. Uncorrectable words of the move store, the task table and the controllers' memories (R440), and MARK_ACTION, in whose turn
they are met. A word is named by its ledger item (R471) and its index: 6 a move, 7 a task-table slot, 8 TCC memory, 9 HCC memory. -/

namespace Sys2Proof.Machine

/-- A word of a batch task's slot is uncorrectable: the task is cancelled as by CANCEL, after a save or restore that is in progress. The
commands for slots name no state READY or PAUSING for CANCEL (R236); such a task is cancelled at once (log entry 226). -/
def State.slotLost (s : State) (t : Nat) : State :=
  if [1, 2, 3, 4, 6].contains (s.taskState t) then s.beginCancel t none
  else if [5, 7].contains (s.taskState t) && (findReq t s.tcc.cancelReq).isNone then
    { s with tcc := { s.tcc with cancelReq := s.tcc.cancelReq ++ [(t, none)] } }
  else s
/-- What an uncorrectable word does, after its record (R440). The cause that a warm reset for the HCC's memory reports is open: R431 names the
register's and the watchdog's (log entry 226). -/
def State.wordLost (s : State) (item i : Nat) : State :=
  match item with
  | 6 => s.setSeq { s.seq with badMoves := s.seq.badMoves ++ [i] }
  | 7 => if i = 0 then { s with tcc := { s.tcc with slot0Bad := true } } else s.slotLost i
  | 8 => s.tensorReset
  | 9 => s.drawFree.warmReset (2 + Config.freeValue s.freeIdx 0 % 2)
  | _ => s
/-- The words of a list that are uncorrectable, each recorded. An item that names no memory of R440 is none. -/
def wordsLost : List (Nat × Nat) → State → State
  | [], s => s
  | (item, i) :: r, s => wordsLost r (if decide (6 ≤ item) && decide (item ≤ 9) then (s.record 0x04 item).wordLost item i else s)
/-- MARK_ACTION: the turn starts, and the words that are found uncorrectable in it are met before any of its moves issues. -/
def execMarkAction (found : MarkFind) (s : State) : Host.Outcome State Fault Refusal :=
  .next (match s.tt.marks with
    | [] => s
    | m :: r => wordsLost found.words (s.markAction m r found.lost))

end Sys2Proof.Machine
end

