-- ==== Sys2Proof/Machine/Tiler.lean ====
section
/-! DEFINITION. The tiler at work (R241 to R247, R249): staging the operands of a pass, its issue by GCMD, what it does at its end, max-pool
items, taking an item by TADD. The commands GCMD, TADD and GRID_PASS_COMPLETE. -/

namespace Sys2Proof.Machine

/-! ### Operands at task addresses -/

/-- Read intervals of a task, each at an offset from a task address: their bytes, or the completion code of the transfer that fails (R133). -/
def State.stageReads (t : Nat) : List (Nat × Nat × Nat) → State → State × Except Nat (List (List Byte))
  | [], s => (s, .ok [])
  | (a, off, len) :: r, s =>
    if 2 ^ 48 ≤ bitsOf a 47 0 + off then (s, .error 2)
    else match s.readTask t (a + off) len with
      | none => (s, .error 2)
      | some (s, _, true) => (s, .error 4)
      | some (s, bs, false) =>
        match State.stageReads t r s with
        | (s, .ok l) => (s, .ok (bs :: l))
        | (s, .error c) => (s, .error c)
/-- Write an interval of a task: the completion code of the transfer, 0 when it is done. -/
def State.writeTask (s : State) (t a off : Nat) (bs : List Byte) : State × Nat :=
  let o := bitsOf a 47 0 + off
  if 2 ^ 48 ≤ o then (s, 2)
  else if spaceOf a < 4 then
    let g := s.spadRegion t (spaceOf a)
    if g.admits o bs.length true && s.unitUsable g.slice && s.banksOn g.slice (g.base + o) bs.length then (s.writeSlice g.slice (g.base + o) bs, 0)
    else (s, 2)
  else if spaceOf a < 8 then
    let g := s.dramRegion t (spaceOf a - 4)
    if g.wen && decide (g.base + o + bs.length ≤ g.bound) && decide (g.base + o + bs.length ≤ s.dramEnd) then
      match s.writeDram (g.base + o) bs with
      | (s, ok) => (s, if ok then 0 else 4)
    else (s, 2)
  else (s, 2)
/-- Write rows; the code of the first that fails. -/
def writeTaskRows (t a stride : Nat) : Nat → List (List Byte) → State → State × Nat
  | _, [], s => (s, 0)
  | off, bs :: r, s =>
    match s.writeTask t a off bs with
    | (s, 0) => writeTaskRows t a stride (off + stride) r s
    | (s, c) => (s, c)
/-- Rows of a tensor: `n` of them, `stride` apart, each of `len` bytes, from a row and a byte within it. -/
def tileRows (a stride row byte n len : Nat) : List (Nat × Nat × Nat) := (List.range n).map (fun i => (a, (row + i) * stride + byte, len))
/-- Codes of `n` packed elements. -/
def rowCodes (c n : Nat) (bs : List Byte) : List Nat := (List.range n).map (elemAt c bs)
/-- A transfer for a tiled task fails: the task faults with code 3 (R256). -/
def State.tilerFails (s : State) (t code : Nat) : State := s.failTask t 3 (0x18 + s.taskCore t) code

/-! ### A pass of the tiler -/

/-- First row, column and product of a tile, and its extents. -/
structure TileBox where
  m : Nat
  n : Nat
  k : Nat
  rows : Nat
  cols : Nat
  prods : Nat
deriving DecidableEq, Repr
def TilePlan.box (p : TilePlan) (bs : List Byte) (w : WorkItem) (c : Nat) : TileBox :=
  { m := w.m * p.tm, n := w.n * p.tn, k := c * p.tk, rows := min p.tm (tM bs - w.m * p.tm), cols := min p.tn (tN bs - w.n * p.tn),
    prods := min p.tk (tK bs - c * p.tk) }
/-- Mode, LX and RAW bits of a pass (R97, R244, R246, R247). -/
def TileStep.mode (st : TileStep) : Nat × Nat × Nat :=
  match st.role with
  | .product => (if st.start then 0 else 1, 0, 0)
  | .spillIn => (0, 1, 0)
  | .partIn => (if st.start then 0 else 1, 1, 0)
  | .spillOut => (2, 0, 1)
  | .partOut => (2, 0, 1)
  | .drain => (2, 0, 0)
/-- The descriptor of a pass, whose operands are staged: its addresses are those of no slice (R97). -/
def tilerWords (bs : List Byte) (st : TileStep) (keep padded : Bool) (row claim : Nat) (b : TileBox) : List Nat :=
  let w := fun o => tWord bs o
  let (mode, lx, raw) := st.mode
  [mode * 2 ^ 30 + lx * 2 ^ 29 + raw * 2 ^ 28 + tTypes bs + keep.toNat * 2 ^ 14 + (tPadMode bs / 2) * 2 ^ 10 + bitsOf (w 0) 19 18 * 2 ^ 8 +
     (bitsOf (w 0) 20 20) * 2 ^ 7 + (bitsOf (w 0) 21 21) * 2 ^ 6 + (bitsOf (w 0) 22 22) * 2 ^ 5 + claim,
   0, 0, row * 2 ^ 16 + b.rows, b.cols * 2 ^ 16 + b.prods, 0, 0, 0, 0, 0, 0, 0, if padded then 0 else 1024 * 2 ^ 16,
   w 0x64 % 2 ^ 16, w 0x68, w 0x6C]
/-- The causes of R110 that a staged pass can meet: it has no alignment and no slice interval of its own. -/
def State.tilerRefusal (s : State) (u : Nat) (ws : List Nat) (n t : Nat) : Nat :=
  firstCause ((s.gridCauses u ws (0, 0) (0, 0) (.core n) t).filter (fun c => c.1 != 6 && c.1 != 7))
/-- Four-byte values of the intervals read. -/
def stagedWords (on : Bool) (n dflt : Nat) (l : List (List Byte)) (i : Nat) : List Nat :=
  if on then wordsOf n (l.getD i []) else List.replicate n dflt

/-- The operands of a product pass: activation rows, tile rows unless the tile is kept, scale entries. -/
def State.stageProduct (s : State) (t : Nat) (x : Tiler) (w : WorkItem) (b : TileBox) (ws : List Nat) : State × Except Nat (TileData × GridTile) :=
  let bs := x.desc
  let ps := tPointers bs x.ptrs w.entry
  let padded := allPadding (ps.getD 0 0)
  let acts := if padded then [] else tileRows (ps.getD 0 0) (tWord bs 0x28) b.m (packedBytes (tAType bs) b.k) b.rows (packedBytes (tAType bs) b.prods)
  let tiles := if gKeep ws then [] else tileRows (ps.getD 1 0) (tWord bs 0x2C) b.k (packedBytes (tWType bs) b.n) b.prods (packedBytes (tWType bs) b.cols)
  let scales := if gScaleEn ws then [(ps.getD 3 0, 4 * b.m, 4 * b.rows)] else []
  match s.stageReads t (acts ++ tiles ++ scales) with
  | (s, .error c) => (s, .error c)
  | (s, .ok l) =>
    (s, .ok ({ role := .product, item := 0, part := w.part, last := false, combine := false,
               acts := (l.take acts.length).map (rowCodes (tAType bs) b.prods),
               scales := stagedWords (gScaleEn ws) b.rows 0 l (acts.length + tiles.length) },
             ⟨tWType bs, b.prods, b.cols, ((l.drop acts.length).take tiles.length).flatMap (rowCodes (tWType bs) b.cols), []⟩))
/-- The operands of a drain to C: scale entries, column scales, biases, column sums; the place of row 0 of its results. -/
def State.stageDrain (s : State) (t : Nat) (x : Tiler) (w : WorkItem) (b : TileBox) (ws : List Nat) : State × Except Nat TileData :=
  let bs := x.desc
  let ps := tPointers bs x.ptrs w.entry
  let vec := fun (on : Bool) (a : Nat) => (a, 4 * b.n, if on then 4 * b.cols else 0)
  let reads := [(ps.getD 3 0, 4 * b.m, 4 * b.rows), vec true (tAddr bs 0x48), vec true (tAddr bs 0x50), vec true (tAddr bs 0x58)]
  let on := [gScaleEn ws, gCscaleEn ws, gBiasEn ws, gUsesColsum ws]
  match s.stageReads t (((reads.zip on).filter (fun r => r.2)).map (fun r => r.1)) with
  | (s, .error c) => (s, .error c)
  | (s, .ok l) =>
    let at_ := fun i => ((on.take i).filter id).length
    (s, .ok { role := .drain, item := 0, part := w.part, last := false, combine := false,
              scales := stagedWords (gScaleEn ws) b.rows 0 l (at_ 0), cscale := stagedWords (gCscaleEn ws) b.cols 0x3F800000 l (at_ 1),
              bias := stagedWords (gBiasEn ws) b.cols 0 l (at_ 2), sums := stagedWords (gUsesColsum ws) b.cols 0 l (at_ 3),
              cAddr := ps.getD 2 0, cStride := tWord bs 0x30 })
/-- The tile that a pass computes with, and its staged operands. -/
def State.stagePass (s : State) (t : Nat) (x : Tiler) (w : WorkItem) (b : TileBox) (st : TileStep) (ws : List Nat) :
    State × Except Nat (TileData × Option GridTile) :=
  match st.role with
  | .product =>
    match s.stageProduct t x w b ws with
    | (s, .ok (d, g)) => (s, .ok (d, some g))
    | (s, .error c) => (s, .error c)
  | .drain =>
    match s.stageDrain t x w b ws with
    | (s, .ok d) => (s, .ok (d, none))
    | (s, .error c) => (s, .error c)
  | r => (s, .ok ({ role := r, item := 0, part := st.index, last := false, combine := false,
                    lx := if r = .partIn then s.partRows (s.partKey t (s.tilePlan t x.desc) w st.index) else [] }, none))
/-- The weight tile of a pass is the one that the task's previous pass left at the unit: it is kept (R242). -/
def State.keepsTile (s : State) (u n t : Nat) (x : Tiler) (w : WorkItem) (st : TileStep) : Bool :=
  decide (st.role = .product) && x.held == some (w.entry, w.n, st.index, u) &&
  (let prev := (s.gridUnit u).previous (.core n); prev.1 == some t && prev.2.isSome)
/-- Its next pass is issued: operands staged, descriptor checked, the pass placed. -/
def State.issueTile (s : State) (n u t : Nat) (x : Tiler) (w : WorkItem) (comb : Bool) (steps : List TileStep) (st : TileStep) : YEffect :=
  let p := s.tilePlan t x.desc
  let b := p.box x.desc w st.index
  let keep := s.keepsTile u n t x w st
  let claim := if st.role = .spillIn then bitsOf ((x.spill.headD []).headD 0) 124 120 else st.claim
  let ws := tilerWords x.desc st keep (allPadding ((tPointers x.desc x.ptrs w.entry).headD 0)) (s.accFirst t) claim b
  let code := s.tilerRefusal u ws n t
  if code ≠ 0 then .fault ((s.refusePass u code (.core n) 0).rowsFault u ws (.core n) t code) 4 code
  else match s.stagePass t x w b st ws with
    | (s, .error c) => .done (s.tilerFails t c)
    | (s, .ok (d, tile)) =>
      let s := s.setTiler t { x with step := x.step + 1, unit := u,
                                     held := if st.role = .product then some (w.entry, w.n, st.index, u) else none }
      .done (s.placePass { unit := u, words := ws, issuer := .core n, task := t, act := (0, 0), drain := (0, 0), tile := tile,
                           tiled := some { d with item := x.item.getD 0, last := x.step + 1 == steps.length, combine := comb } } (!s.lineGrid))
/-- GCMD of a Rulebook kernel: the tiler's next pass, if it has one and the unit is the one its item or combine has begun on. -/
def State.tilerPass (s : State) (n u t : Nat) (x : Tiler) : YEffect :=
  match s.tilerWork t x with
  | none => .done s
  | some (w, comb, steps) => match steps[x.step]? with
    | none => .done s
    | some st =>
      if x.step ≠ 0 ∧ x.unit ≠ u then .done s
      else if 2 ≤ (s.gridUnit u).load then .stall s
      else s.issueTile n u t x w comb steps st

/-- GCMD. In the batch context of a tiled task it issues the tiler's pass. -/
def execGcmd (k : Issue) (w : YWord) (s : State) :=
  yubenOut k w { useA := true, useB := true, useC := true, useImm := true, reads := [rS w.a], lineOk := false, gap := 4 }
    (fun _ s => match s.tiler? (s.ctxTask k.core k.ctx) with
      | some x => if !regionOk w ∨ 4 < unitOf w then .fault s 1 0 else s.tilerPass k.core (unitOf w) (s.ctxTask k.core k.ctx) x
      | none => gcmdEff k w s) s

/-! ### What a pass of the tiler does at its end -/

/-- What came of the rows of a tiler's pass: the end, the stored words of RAW rows, the code of a write of C that failed. -/
structure TileEnd where
  stop : PassEnd := {}
  raws : List (List Nat) := []
  code : Nat := 0
deriving DecidableEq, Repr
/-- The incoming words of row m, from staged operands. -/
def TileData.incoming (d : TileData) (p : GridPass) (k n m : Nat) (rs : RowScale) : List Incoming :=
  if gLx p.words then (List.range n).map (fun j => lxIncoming ((d.lx.getD m []).getD j 0) false)
  else match p.tile, gFamily p.words with
    | some t, some f =>
      let acts := if gValidLo p.words ≤ m ∧ m < gValidHi p.words then (d.acts.getD m []).map (decodeElem (typeOf (gAType p.words)))
        else paddedRow p.words k rs
      productRow p.words f t n acts false rs
    | _, _ => []
/-- The bytes of a drained row, or nothing where a word of it may not be drained. -/
def drainBytes (p : GridPass) (v : ColVectors) (rs : RowScale) (words : List RowWord) : Option (List Byte) :=
  (allWords words).map (fun l => packElems ((typeOf (gDType p.words)).bits / 8) (drainElems (drainElem 0 p.words v rs) 0 l))
/-- Run row m of a tiler's pass. -/
def State.runTileRow (s : State) (p : GridPass) (d : TileData) (v : ColVectors) (m : Nat) : State × TileEnd :=
  let kn := gKN p.words (p.tile.map (fun t => t.shape))
  let rs : RowScale := if gScaleEn p.words && (gProduct p.words || gRounds p.words) then scaleWord p.words (d.scales.getD m 0)
    else ⟨false, ⟨false, false, gZp p.words, 0x3C00⟩, false⟩
  let s := s.noteScale p.unit rs
  let row := gAccRow p.words + m
  if gMode p.words = 2 then
    match drainRowWords p row kn.2 s with
    | (s, l) =>
      if gRaw p.words then
        (s, { stop := ⟨(allWords l).isSome, (allWords l).isNone, false⟩, raws := [((allWords l).getD []).map rawWord] })
      else match drainBytes p v rs l with
        | none => (s, { stop := ⟨false, true, false⟩ })
        | some bs => match s.writeTask p.task d.cAddr (d.cStride * m) bs with
          | (s, c) => (s, { stop := ⟨c == 0, false, false⟩, code := c })
  else
    match applyRow p row 0 (d.incoming p kn.1 kn.2 m rs) s with
    | (s, l, dup) => (s, { stop := ⟨true, l.any (fun w => w.isNone), dup⟩ })
def runTileRows (p : GridPass) (d : TileData) (v : ColVectors) : Nat → State → State × TileEnd
  | 0, s => (s, {})
  | m + 1, s =>
    match runTileRows p d v m s with
    | (s, e) => match s.runTileRow p d v m with
      | (s, f) => (s, { stop := ⟨e.stop.complete && f.stop.complete, e.stop.bad || f.stop.bad, e.stop.dup || f.stop.dup⟩, raws := e.raws ++ f.raws,
                        code := if e.code = 0 then f.code else e.code })
/-- The whole effect of a tiler's pass on rows, C and counters. -/
def State.runTile (s : State) (p : GridPass) (d : TileData) : State × TileEnd :=
  let v : ColVectors := ⟨d.cscale, d.bias, d.sums, false⟩
  let s := if gRounds p.words then noteCols p.unit v (gN p.words) s else s
  match runTileRows p d v (gM p.words) s with
  | (s, e) => (s.passCounts p e.stop, e)

/-- The parts of a combined tile are no longer held. -/
def dropParts (t : Nat) (p : TilePlan) (w : WorkItem) : Nat → State → State
  | 0, s => s
  | i + 1, s => (dropParts t p w i s).setPart (s.partKey t p w i) []
/-- The item's last pass has ended: CLAIMED is cleared, and a part is counted in PART_TALLY (R244, R249). -/
def State.finishItem (s : State) (t : Nat) (x : Tiler) : State :=
  let f := F.QUE_TALLY_i_VALUE (bitsOf (tWord x.desc 0x70) 13 8)
  let s := (s.setTiler t { x with item := none, step := 0 }).putClaimed t none
  if (s.tilePlan t x.desc).parts ≤ 1 then s else s.setF f ((s.getF f + 1) % 2 ^ 32)
/-- The combine's drain has ended: it is counted in the progress record (R246, R249). -/
def State.finishCombine (s : State) (t : Nat) (x : Tiler) : State :=
  let p := s.tilePlan t x.desc
  let s := match (p.combines x.desc)[x.combines]? with | some w => dropParts t p w p.parts s | none => s
  (s.setTiler t { x with combines := x.combines + 1, step := 0 }).putCombines t (x.combines + 1)
/-- What a pass leaves with the tiler: stored partial sums, a part of the combine buffer, a finished item or combine. -/
def State.tileDone (s : State) (t : Nat) (x : Tiler) (d : TileData) (e : TileEnd) : State :=
  let p := s.tilePlan t x.desc
  if e.code ≠ 0 then s.tilerFails t e.code
  else if !e.stop.complete || e.stop.bad then s
  else
    let x := if d.role = .spillOut then { x with spill := e.raws } else x
    let s := s.setTiler t x
    let s := match (if d.role = .partOut then (p.items x.desc)[d.item]? else none) with
      | some w => s.setPart (s.partKey t p w w.part) e.raws
      | none => s
    if !d.last then s else if d.combine then s.finishCombine t x else s.finishItem t x

/-- GRID_PASS_COMPLETE: the oldest pass of a unit reaches the end of its timeline. Struck words are given by
`upsets` (memory) and `flips` (accumulator memory). -/
def execGridPassComplete (unit : Nat) (upsets : List (Nat × Bool)) (flips : List (Nat × Nat)) (s : State) :
    Host.Outcome State Fault Refusal :=
  let s := (s.strike upsets).strikeAcc flips
  let g := s.gridUnit unit
  .next (match g.passes with
    | [] => s
    | p :: r =>
      if s.pushWaits (p.pushes s) then s
      else
        let t := (s.noteSpecial p).setGridUnit unit { g with passes := r }
        match p.tiled, s.tiler? p.task with
        | some d, some x => match t.runTile p d with
          | (t, e) => ((t.tileDone p.task x d e).passFailed p e.stop 0).tryFinish p.task
        | _, _ => match t.runPass p with
          | (t, e) => ((t.passFailed p e (s.passBadAt p)).passOutput p e).tryFinish p.task)

/-! ### Max-pool (R241) -/

/-- A max-pool's window: height, width, strides, top and left padding; the input's height and width. -/
structure Pool where
  wh : Nat
  ww : Nat
  sh : Nat
  sw : Nat
  pt : Nat
  pl : Nat
  inH : Nat
  inW : Nat
deriving DecidableEq, Repr
def poolOf (bs : List Byte) : Pool :=
  let w := tWord bs 0x74
  { wh := bitsOf w 3 0, ww := bitsOf w 7 4, sh := bitsOf w 11 8, sw := bitsOf w 15 12, pt := bitsOf w 19 16, pl := bitsOf w 23 20,
    inH := bitsOf (tWord bs 0x78) 15 0, inW := bitsOf (tWord bs 0x78) 31 16 }
/-- The input position of a window offset: none outside the input. -/
def poolPos (o stride i pad size : Nat) : Option Nat :=
  if pad ≤ o * stride + i ∧ o * stride + i - pad < size then some (o * stride + i - pad) else none
/-- The least code of a type: -Inf, or the smallest integer. -/
def lowestCode (t : ElemType) : Nat :=
  match t.floatFmt with
  | some f => infCode f true
  | none => wrapTo t.bits (t.intRange.getD (0, 0)).1
/-- The padding value, as a code of A_TYPE; `z` is the zero point of the row's scale entry. -/
def poolPadding (bs : List Byte) (z : Int) : Nat :=
  let t := typeOf (tAType bs)
  match tPadMode bs with
  | 0 => wrapTo t.bits z
  | 1 => lowestCode t
  | _ => if t = .fp32 then tWord bs 0x64 else convertElem .fp32 t (tWord bs 0x64)
/-- The maximum of two codes, as VFMAX or VMAX takes it. -/
def poolMax (t : ElemType) (a b : Nat) : Nat :=
  match t.floatFmt with
  | some f => fMax f a b
  | none => eMax t a b
/-- One result: the maximum over the window, converted to D_TYPE. `rows` holds the input rows by number. -/
def poolElem (bs : List Byte) (rows : List (Nat × List Byte)) (pad y x c : Nat) : Nat :=
  let g := poolOf bs
  let t := typeOf (tAType bs)
  let codes := (List.range g.wh).flatMap (fun i => (List.range g.ww).map (fun j =>
    match poolPos y g.sh i g.pt g.inH, poolPos x g.sw j g.pl g.inW with
    | some r, some q => elemAt (tAType bs) (((rows.find? (fun e => e.1 == r)).map (fun e => e.2)).getD []) (q * tK bs + c)
    | _, _ => pad))
  let v := codes.foldl (poolMax t) (codes.headD (lowestCode t))
  if tAType bs = tDType bs then v else convertElem t (typeOf (tDType bs)) v
/-- The bytes of a row of results from a column on. -/
def poolRow (bs : List Byte) (rows : List (Nat × List Byte)) (pad y x0 cols : Nat) : List Byte :=
  let b := (typeOf (tDType bs)).bits
  let codes := (List.range cols).flatMap (fun x => (List.range (tK bs)).map (fun c => poolElem bs rows pad y (x0 + x) c))
  leBytes (ceilDiv (codes.length * b) 8) (packBits b codes)
/-- A max-pool item: the input rows that its windows meet are read, its rows of results written; the code of a transfer that fails, or 0. -/
def State.poolItem (s : State) (t : Nat) (x : Tiler) (w : WorkItem) : State × Nat :=
  let bs := x.desc
  let g := poolOf bs
  let b := (s.tilePlan t bs).box bs w 0
  let ps := tPointers bs x.ptrs w.entry
  let need := if allPadding (ps.getD 0 0) then [] else (List.range g.inH).filter (fun r =>
    decide (b.m * g.sh ≤ r + g.pt) && decide (r + g.pt < (b.m + b.rows - 1) * g.sh + g.wh))
  let scaled := (tWord bs 0).testBit 20
  let reads := need.map (fun r => (ps.getD 0 0, r * tWord bs 0x28, packedBytes (tAType bs) (g.inW * tK bs)))
  match s.stageReads t (reads ++ (if scaled then [(ps.getD 3 0, 4 * b.m, 4 * b.rows)] else [])) with
  | (s, .error c) => (s, c)
  | (s, .ok l) =>
    let scales := stagedWords scaled b.rows 0 l need.length
    writeTaskRows t (ps.getD 2 0) (tWord bs 0x30) (b.m * tWord bs 0x30 + packedBytes (tDType bs) (b.n * tK bs))
      ((List.range b.rows).map (fun i =>
        poolRow bs (need.zip l) (poolPadding bs (if scaled then (ScaleEntry.ofWord (scales.getD i 0)).zp else 0)) (b.m + i) b.n b.cols)) s
/-- The max-pool item that the task has taken is finished. -/
def State.finishPool (s : State) (t : Nat) (x : Tiler) : State × Nat :=
  match (if tPool x.desc then x.item.bind (fun i => ((s.tilePlan t x.desc).items x.desc)[i]?) else none) with
  | none => (s, 0)
  | some w => match s.poolItem t x w with
    | (s, 0) => (s.finishItem t x, 0)
    | (s, c) => (s.tilerFails t c, c)

/-! ### Taking an item (R243, R249) -/

/-- TADD adds to a tally counter and gives its old value, modulo 2^32 (R206). -/
def taddEff (k : Issue) (w : YWord) (s : State) : YEffect :=
  let f := F.QUE_TALLY_i_VALUE w.uimm
  let old := s.getF f
  .done ((s.setF f ((old + (s.sget k w.a).toNat) % 2 ^ 32)).sset k w.d (word64 old))
/-- An item is taken: its number is in CLAIMED; a number past the last is none. -/
def State.takeItem (s : State) (t : Nat) (x : Tiler) (i : Nat) : State :=
  let item := if i < (s.tilePlan t x.desc).itemCount x.desc then some i else none
  (s.setTiler t { x with item := item, step := 0 }).putClaimed t item
/-- TADD of a Rulebook kernel on WORK_TALLY: the item before must have ended; the progress record must be writable. -/
def State.tilerTake (s : State) (k : Issue) (w : YWord) (t : Nat) (x : Tiler) : YEffect :=
  if s.progressOk t = false then accessFault s false 0
  else match s.finishPool t x with
    | (s, 0) =>
      let y := (s.tiler? t).getD x
      if y.item.isSome then .stall s
      else taddEff k w (s.takeItem t y (s.getF (F.QUE_TALLY_i_VALUE w.uimm)))
    | (s, _) => .done s
/-- Fetch-and-add: the old value, and the sum modulo 2^32. On WORK_TALLY a tiled task takes the item of that number. -/
def execTadd (k : Issue) (w : YWord) (s : State) :=
  yubenOut k w { useD := true, useA := true, useImm := true, reads := [rS w.a], writes := wS w.d, lat := 4, lineOk := false } (fun _ s =>
    if w.uimm / 64 ≠ 0 then .fault s 1 0
    else match s.tiler? (s.ctxTask k.core k.ctx) with
      | some x => if w.uimm = bitsOf (tWord x.desc 0x70) 5 0 then s.tilerTake k w (s.ctxTask k.core k.ctx) x else taddEff k w s
      | none => taddEff k w s) s

end Sys2Proof.Machine
end

