-- ==== Sys2Proof/Machine/Dispatch.lean ====
section
/-! DEFINITION. The meaning of every command: one arm for each constructor of Instr. -/

namespace Sys2Proof.Machine

def exec (i : Instr) (s : State) : Host.Outcome State Fault Refusal :=
  match i with
  | .add k w => Sys2Proof.Machine.execAdd k w s
  | .sub k w => Sys2Proof.Machine.execSub k w s
  | .andR k w => Sys2Proof.Machine.execAndR k w s
  | .orR k w => Sys2Proof.Machine.execOrR k w s
  | .xorR k w => Sys2Proof.Machine.execXorR k w s
  | .sll k w => Sys2Proof.Machine.execSll k w s
  | .srl k w => Sys2Proof.Machine.execSrl k w s
  | .sra k w => Sys2Proof.Machine.execSra k w s
  | .slt k w => Sys2Proof.Machine.execSlt k w s
  | .sltu k w => Sys2Proof.Machine.execSltu k w s
  | .minS k w => Sys2Proof.Machine.execMinS k w s
  | .maxS k w => Sys2Proof.Machine.execMaxS k w s
  | .minu k w => Sys2Proof.Machine.execMinu k w s
  | .maxu k w => Sys2Proof.Machine.execMaxu k w s
  | .addi k w => Sys2Proof.Machine.execAddi k w s
  | .subi k w => Sys2Proof.Machine.execSubi k w s
  | .andi k w => Sys2Proof.Machine.execAndi k w s
  | .ori k w => Sys2Proof.Machine.execOri k w s
  | .xori k w => Sys2Proof.Machine.execXori k w s
  | .slli k w => Sys2Proof.Machine.execSlli k w s
  | .srli k w => Sys2Proof.Machine.execSrli k w s
  | .srai k w => Sys2Proof.Machine.execSrai k w s
  | .slti k w => Sys2Proof.Machine.execSlti k w s
  | .sltui k w => Sys2Proof.Machine.execSltui k w s
  | .mini k w => Sys2Proof.Machine.execMini k w s
  | .maxi k w => Sys2Proof.Machine.execMaxi k w s
  | .minui k w => Sys2Proof.Machine.execMinui k w s
  | .maxui k w => Sys2Proof.Machine.execMaxui k w s
  | .mul k w => Sys2Proof.Machine.execMul k w s
  | .mulh k w => Sys2Proof.Machine.execMulh k w s
  | .mulhu k w => Sys2Proof.Machine.execMulhu k w s
  | .divS k w => Sys2Proof.Machine.execDivS k w s
  | .divu k w => Sys2Proof.Machine.execDivu k w s
  | .remS k w => Sys2Proof.Machine.execRemS k w s
  | .remu k w => Sys2Proof.Machine.execRemu k w s
  | .clz k w => Sys2Proof.Machine.execClz k w s
  | .popc k w => Sys2Proof.Machine.execPopc k w s
  | .li k w => Sys2Proof.Machine.execLi k w s
  | .lim k w => Sys2Proof.Machine.execLim k w s
  | .rdsr k w => Sys2Proof.Machine.execRdsr k w s
  | .lb k w => Sys2Proof.Machine.execLb k w s
  | .lbu k w => Sys2Proof.Machine.execLbu k w s
  | .lh k w => Sys2Proof.Machine.execLh k w s
  | .lhu k w => Sys2Proof.Machine.execLhu k w s
  | .lw k w => Sys2Proof.Machine.execLw k w s
  | .lwu k w => Sys2Proof.Machine.execLwu k w s
  | .ld k w => Sys2Proof.Machine.execLd k w s
  | .sb k w => Sys2Proof.Machine.execSb k w s
  | .sh k w => Sys2Proof.Machine.execSh k w s
  | .sw k w => Sys2Proof.Machine.execSw k w s
  | .sd k w => Sys2Proof.Machine.execSd k w s
  | .pcmp k w => Sys2Proof.Machine.execPcmp k w s
  | .pcmpi k w => Sys2Proof.Machine.execPcmpi k w s
  | .pand k w => Sys2Proof.Machine.execPand k w s
  | .por k w => Sys2Proof.Machine.execPor k w s
  | .pxor k w => Sys2Proof.Machine.execPxor k w s
  | .pandn k w => Sys2Proof.Machine.execPandn k w s
  | .pnot k w => Sys2Proof.Machine.execPnot k w s
  | .pmov k w => Sys2Proof.Machine.execPmov k w s
  | .pfirst k w => Sys2Proof.Machine.execPfirst k w s
  | .pcnt k w => Sys2Proof.Machine.execPcnt k w s
  | .pany k w => Sys2Proof.Machine.execPany k w s
  | .br k w => Sys2Proof.Machine.execBr k w s
  | .j k w => Sys2Proof.Machine.execJ k w s
  | .jal k w => Sys2Proof.Machine.execJal k w s
  | .jr k w => Sys2Proof.Machine.execJr k w s
  | .jalr k w => Sys2Proof.Machine.execJalr k w s
  | .bp k w => Sys2Proof.Machine.execBp k w s
  | .loop k w => Sys2Proof.Machine.execLoop k w s
  | .loopi k w => Sys2Proof.Machine.execLoopi k w s
  | .nop k w => Sys2Proof.Machine.execNop k w s
  | .halt k w => Sys2Proof.Machine.execHalt k w s
  | .fence k w => Sys2Proof.Machine.execFence k w s
  | .trap k w => Sys2Proof.Machine.execTrap k w s
  | .waitc k w => Sys2Proof.Machine.execWaitc k w s
  | .waitn k w => Sys2Proof.Machine.execWaitn k w s
  | .waitturn k w => Sys2Proof.Machine.execWaitturn k w s
  | .waitrdy k w => Sys2Proof.Machine.execWaitrdy k w s
  | .waithq k w => Sys2Proof.Machine.execWaithq k w s
  | .waitEnd core ctx => Sys2Proof.Machine.execWaitEnd core ctx s
  | .tstamp k w => Sys2Proof.Machine.execTstamp k w s
  | .vadd k w sc => Sys2Proof.Machine.execVadd k w sc s
  | .vsub k w sc => Sys2Proof.Machine.execVsub k w sc s
  | .vmul k w sc => Sys2Proof.Machine.execVmul k w sc s
  | .vmulh k w sc => Sys2Proof.Machine.execVmulh k w sc s
  | .vand k w sc => Sys2Proof.Machine.execVand k w sc s
  | .vor k w sc => Sys2Proof.Machine.execVor k w sc s
  | .vxor k w sc => Sys2Proof.Machine.execVxor k w sc s
  | .vsll k w sc => Sys2Proof.Machine.execVsll k w sc s
  | .vsrl k w sc => Sys2Proof.Machine.execVsrl k w sc s
  | .vsra k w sc => Sys2Proof.Machine.execVsra k w sc s
  | .vmin k w sc => Sys2Proof.Machine.execVmin k w sc s
  | .vmax k w sc => Sys2Proof.Machine.execVmax k w sc s
  | .vsatadd k w sc => Sys2Proof.Machine.execVsatadd k w sc s
  | .vsatsub k w sc => Sys2Proof.Machine.execVsatsub k w sc s
  | .vabs k w => Sys2Proof.Machine.execVabs k w s
  | .vfadd k w sc => Sys2Proof.Machine.execVfadd k w sc s
  | .vfsub k w sc => Sys2Proof.Machine.execVfsub k w sc s
  | .vfmul k w sc => Sys2Proof.Machine.execVfmul k w sc s
  | .vfdiv k w sc => Sys2Proof.Machine.execVfdiv k w sc s
  | .vfmin k w sc => Sys2Proof.Machine.execVfmin k w sc s
  | .vfmax k w sc => Sys2Proof.Machine.execVfmax k w sc s
  | .vfsqrt k w => Sys2Proof.Machine.execVfsqrt k w s
  | .vfabs k w => Sys2Proof.Machine.execVfabs k w s
  | .vfneg k w => Sys2Proof.Machine.execVfneg k w s
  | .vfma k w => Sys2Proof.Machine.execVfma k w s
  | .vfms k w => Sys2Proof.Machine.execVfms k w s
  | .vfnma k w => Sys2Proof.Machine.execVfnma k w s
  | .vcmp k w sc => Sys2Proof.Machine.execVcmp k w sc s
  | .vmov k w => Sys2Proof.Machine.execVmov k w s
  | .vlane k w => Sys2Proof.Machine.execVlane k w s
  | .vbcast k w => Sys2Proof.Machine.execVbcast k w s
  | .vext k w => Sys2Proof.Machine.execVext k w s
  | .vins k w => Sys2Proof.Machine.execVins k w s
  | .vperm k w => Sys2Proof.Machine.execVperm k w s
  | .vrot k w => Sys2Proof.Machine.execVrot k w s
  | .vradd k w => Sys2Proof.Machine.execVradd k w s
  | .vrmin k w => Sys2Proof.Machine.execVrmin k w s
  | .vrmax k w => Sys2Proof.Machine.execVrmax k w s
  | .vrfadd k w => Sys2Proof.Machine.execVrfadd k w s
  | .vrfmin k w => Sys2Proof.Machine.execVrfmin k w s
  | .vrfmax k w => Sys2Proof.Machine.execVrfmax k w s
  | .vpxadd k w => Sys2Proof.Machine.execVpxadd k w s
  | .vpxsub k w => Sys2Proof.Machine.execVpxsub k w s
  | .vpxmul k w => Sys2Proof.Machine.execVpxmul k w s
  | .vpxscl k w => Sys2Proof.Machine.execVpxscl k w s
  | .vldn k w => Sys2Proof.Machine.execVldn k w s
  | .vstn k w => Sys2Proof.Machine.execVstn k w s
  | .vld k w => Sys2Proof.Machine.execVld k w s
  | .vst k w => Sys2Proof.Machine.execVst k w s
  | .vlds k w => Sys2Proof.Machine.execVlds k w s
  | .vldt k w => Sys2Proof.Machine.execVldt k w s
  | .vldh k w => Sys2Proof.Machine.execVldh k w s
  | .vsth k w => Sys2Proof.Machine.execVsth k w s
  | .vldr k w => Sys2Proof.Machine.execVldr k w s
  | .vgth k w => Sys2Proof.Machine.execVgth k w s
  | .vsct k w => Sys2Proof.Machine.execVsct k w s
  | .vcvt k w => Sys2Proof.Machine.execVcvt k w s
  | .vqtok k w => Sys2Proof.Machine.execVqtok k w s
  | .vqnt k w => Sys2Proof.Machine.execVqnt k w s
  | .vdq k w => Sys2Proof.Machine.execVdq k w s
  | .vbscl k w => Sys2Proof.Machine.execVbscl k w s
  | .vqblk k w => Sys2Proof.Machine.execVqblk k w s
  | .vdqblk k w => Sys2Proof.Machine.execVdqblk k w s
  | .vhad64 k w => Sys2Proof.Machine.execVhad64 k w s
  | .vhad256 k w => Sys2Proof.Machine.execVhad256 k w s
  | .gcmd k w => Sys2Proof.Machine.execGcmd k w s
  | .gwait k w => Sys2Proof.Machine.execGwait k w s
  | .mvq k w => Sys2Proof.Machine.execMvq k w s
  | .chain k w => Sys2Proof.Machine.execChain k w s
  | .mvwait k w => Sys2Proof.Machine.execMvwait k w s
  | .rres k w => Sys2Proof.Machine.execRres k w s
  | .rset k w => Sys2Proof.Machine.execRset k w s
  | .rchk k w => Sys2Proof.Machine.execRchk k w s
  | .rhead k w => Sys2Proof.Machine.execRhead k w s
  | .rrel k w => Sys2Proof.Machine.execRrel k w s
  | .rvoid k w => Sys2Proof.Machine.execRvoid k w s
  | .hpush k w => Sys2Proof.Machine.execHpush k w s
  | .hpop k w => Sys2Proof.Machine.execHpop k w s
  | .hpopt k w => Sys2Proof.Machine.execHpopt k w s
  | .hcnt k w => Sys2Proof.Machine.execHcnt k w s
  | .tadd k w => Sys2Proof.Machine.execTadd k w s
  | .launchMove n => Sys2Proof.Machine.execLaunchMove n s
  | .passMove n => Sys2Proof.Machine.execPassMove n s
  | .moveMove n => Sys2Proof.Machine.execMoveMove n s
  | .haloMove n => Sys2Proof.Machine.execHaloMove n s
  | .voidMove n => Sys2Proof.Machine.execVoidMove n s
  | .spanCheck core => Sys2Proof.Machine.execSpanCheck core s
  | .gridPassAdmit unit => Sys2Proof.Machine.execGridPassAdmit unit s
  | .gridPassComplete unit upsets flips => Sys2Proof.Machine.execGridPassComplete unit upsets flips s
  | .rasterTurnBoundary n lost upsets flips => Sys2Proof.Machine.execRasterTurnBoundary n lost upsets flips s
  | .decisionTick n => Sys2Proof.Machine.execDecisionTick n s
  | .roundBoundary n => Sys2Proof.Machine.execRoundBoundary n s
  | .markAction found => Sys2Proof.Machine.execMarkAction found s
  | .dieLinkFlit module flit => Sys2Proof.Machine.execDieLinkFlit module flit s
  | .rasterFlitDelivery toRaster flit => Sys2Proof.Machine.execRasterFlitDelivery toRaster flit s
  | .syncPinEdge pin rising tick => Sys2Proof.Machine.execSyncPinEdge pin rising tick s
  | .dprxLineReceived port sub line tick depth comps => Sys2Proof.Machine.execDprxLineReceived port sub line tick depth comps s
  | .captureLineWritten n lost => Sys2Proof.Machine.execCaptureLineWritten n lost s
  | .captureNotice late => Sys2Proof.Machine.execCaptureNotice late s
  | .layerFetchIssue stream layer => Sys2Proof.Machine.execLayerFetchIssue stream layer s
  | .flipDecision n => Sys2Proof.Machine.execFlipDecision n s
  | .cvScrubCheck flips => Sys2Proof.Machine.execCvScrubCheck flips s
  | .gatherEntryWrite slice block => Sys2Proof.Machine.execGatherEntryWrite slice block s
  | .eccWriteBack slice => Sys2Proof.Machine.execEccWriteBack slice s
  | .spadScrubRead slice bank upsets => Sys2Proof.Machine.execSpadScrubRead slice bank upsets s
  | .accScrubRead found => Sys2Proof.Machine.execAccScrubRead found s
  | .bankPowerGate slice bank => Sys2Proof.Machine.execBankPowerGate slice bank s
  | .moverDescriptorStart m fails => Sys2Proof.Machine.execMoverDescriptorStart m fails s
  | .moverDescriptorComplete m cls upsets fails => Sys2Proof.Machine.execMoverDescriptorComplete m cls upsets fails s
  | .chainStage chain stage => Sys2Proof.Machine.execChainStage chain stage s
  | .regulatorRefill => Sys2Proof.Machine.execRegulatorRefill s
  | .cancelBarrierComplete slot => Sys2Proof.Machine.execCancelBarrierComplete slot s
  | .channelRetryLimit ch => Sys2Proof.Machine.execChannelRetryLimit ch s
  | .channelRetrainComplete ch rate => Sys2Proof.Machine.execChannelRetrainComplete ch rate s
  | .pauseBarrierComplete slot => Sys2Proof.Machine.execPauseBarrierComplete slot s
  | .saveComplete slot upsets flips => Sys2Proof.Machine.execSaveComplete slot upsets flips s
  | .restoreComplete slot => Sys2Proof.Machine.execRestoreComplete slot s
  | .commandPoll => Sys2Proof.Machine.execCommandPoll s
  | .completionWrite => Sys2Proof.Machine.execCompletionWrite s
  | .hello => Sys2Proof.Machine.execHello s
  | .caps io => Sys2Proof.Machine.execCaps io s
  | .loadBundle io => Sys2Proof.Machine.execLoadBundle io s
  | .unload => Sys2Proof.Machine.execUnload s
  | .startAt => Sys2Proof.Machine.execStartAt s
  | .stopAt => Sys2Proof.Machine.execStopAt s
  | .setStream io => Sys2Proof.Machine.execSetStream io s
  | .flipSet io => Sys2Proof.Machine.execFlipSet io s
  | .submitTasks io => Sys2Proof.Machine.execSubmitTasks io s
  | .pauseTask => Sys2Proof.Machine.execPauseTask s
  | .saveTask => Sys2Proof.Machine.execSaveTask s
  | .resumeTask => Sys2Proof.Machine.execResumeTask s
  | .cancel => Sys2Proof.Machine.execCancel s
  | .cancelCommand => Sys2Proof.Machine.execCancelCommand s
  | .adaptCtrlEnable => Sys2Proof.Machine.execAdaptCtrlEnable s
  | .adaptCtrlDisable => Sys2Proof.Machine.execAdaptCtrlDisable s
  | .adaptCtrlCommit => Sys2Proof.Machine.execAdaptCtrlCommit s
  | .adaptCtrlDiscard => Sys2Proof.Machine.execAdaptCtrlDiscard s
  | .adaptCtrlReset => Sys2Proof.Machine.execAdaptCtrlReset s
  | .adaptCtrlExport io => Sys2Proof.Machine.execAdaptCtrlExport io s
  | .adaptCtrlImport io => Sys2Proof.Machine.execAdaptCtrlImport io s
  | .setClock => Sys2Proof.Machine.execSetClock s
  | .setPowerRun => Sys2Proof.Machine.execSetPowerRun s
  | .setPowerHold => Sys2Proof.Machine.execSetPowerHold s
  | .setPowerStandby => Sys2Proof.Machine.execSetPowerStandby s
  | .setPowerBanks => Sys2Proof.Machine.execSetPowerBanks s
  | .recRead io => Sys2Proof.Machine.execRecRead io s
  | .recClear => Sys2Proof.Machine.execRecClear s
  | .crcScan => Sys2Proof.Machine.execCrcScan s
  | .attest io fails => Sys2Proof.Machine.execAttest io fails s
  | .debugUnlock io => Sys2Proof.Machine.execDebugUnlock io s
  | .debugNonceRequest => Sys2Proof.Machine.execDebugNonceRequest s
  | .debugEnd => Sys2Proof.Machine.execDebugEnd s
  | .provision io => Sys2Proof.Machine.execProvision io s
  | .retire io => Sys2Proof.Machine.execRetire io s
  | .fabricDiscoverFull => Sys2Proof.Machine.execFabricDiscoverFull s
  | .fabricDiscoverJoin => Sys2Proof.Machine.execFabricDiscoverJoin s
  | .routeSet io => Sys2Proof.Machine.execRouteSet io s
  | .fabricForward io => Sys2Proof.Machine.execFabricForward io s
  | .beacon f tick frac wall => Sys2Proof.Machine.execBeacon f tick frac wall s
  | .beaconSend tick => Sys2Proof.Machine.execBeaconSend tick s
  | .delayRequest f rx tx => Sys2Proof.Machine.execDelayRequest f rx tx s
  | .delayResponse f rx => Sys2Proof.Machine.execDelayResponse f rx s
  | .haloWrite f => Sys2Proof.Machine.execHaloWrite f s
  | .fabricHello f => Sys2Proof.Machine.execFabricHello f s
  | .offer f peerPort => Sys2Proof.Machine.execOffer f peerPort s
  | .accept f wall => Sys2Proof.Machine.execAccept f wall s
  | .fabricCommand f => Sys2Proof.Machine.execFabricCommand f s
  | .fabricCompletion f => Sys2Proof.Machine.execFabricCompletion f s
  | .fenceWrite f => Sys2Proof.Machine.execFenceWrite f s
  | .readyFlag f => Sys2Proof.Machine.execReadyFlag f s
  | .bootRequest f => Sys2Proof.Machine.execBootRequest f s
  | .pixelData f => Sys2Proof.Machine.execPixelData f s
  | .bulkWrite f => Sys2Proof.Machine.execBulkWrite f s
  | .readRequest f => Sys2Proof.Machine.execReadRequest f s
  | .readResponse f => Sys2Proof.Machine.execReadResponse f s
  | .writeAcknowledgement f => Sys2Proof.Machine.execWriteAcknowledgement f s
  | .bootImage f tick => Sys2Proof.Machine.execBootImage f tick s
  | .idle f => Sys2Proof.Machine.execIdle f s
  | .idleSend p => Sys2Proof.Machine.execIdleSend p s
  | .replayTimeout p => Sys2Proof.Machine.execReplayTimeout p s
  | .linkTrained p lanes version => Sys2Proof.Machine.execLinkTrained p lanes version s
  | .laneRetrain p lanes done => Sys2Proof.Machine.execLaneRetrain p lanes done s
  | .portLost p cause => Sys2Proof.Machine.execPortLost p cause s
  | .parentAbandon => Sys2Proof.Machine.execParentAbandon s
  | .detach => Sys2Proof.Machine.execDetach s
  | .discoverySettle => Sys2Proof.Machine.execDiscoverySettle s
  | .offerWindowEnd => Sys2Proof.Machine.execOfferWindowEnd s
  | .noOfferTimeout => Sys2Proof.Machine.execNoOfferTimeout s
  | .fabricResponseTimeout m => Sys2Proof.Machine.execFabricResponseTimeout m s
  | .forwardTimeout seq => Sys2Proof.Machine.execForwardTimeout seq s
  | .dptxHpd port failure => Sys2Proof.Machine.execDptxHpd port failure s
  | .dptxTrainingComplete port rate lanes dsc async mst => Sys2Proof.Machine.execDptxTrainingComplete port rate lanes dsc async mst s
  | .dptxLinkLoss port unplugged => Sys2Proof.Machine.execDptxLinkLoss port unplugged s
  | .dprxLinkLoss port sub => Sys2Proof.Machine.execDprxLinkLoss port sub s
  | .perstN => Sys2Proof.Machine.execPerstN s
  | .functionLevelReset => Sys2Proof.Machine.execFunctionLevelReset s
  | .pcieRetrain width gen => Sys2Proof.Machine.execPcieRetrain width gen s
  | .dStateChange d3 => Sys2Proof.Machine.execDStateChange d3 s
  | .bar2Access o len write data poisoned => Sys2Proof.Machine.execBar2Access o len write data poisoned s
  | .coldReset straps fuse => Sys2Proof.Machine.execColdReset straps fuse s
  | .bootStep f => Sys2Proof.Machine.execBootStep f s
  | .vddAonLoss straps fuse => Sys2Proof.Machine.execVddAonLoss straps fuse s
  | .watchdogExpiry => Sys2Proof.Machine.execWatchdogExpiry s
  | .tpwrOkFall => Sys2Proof.Machine.execTpwrOkFall s
  | .tpwrOkTimeout => Sys2Proof.Machine.execTpwrOkTimeout s
  | .holdClocksStopped => Sys2Proof.Machine.execHoldClocksStopped s
  | .standbyEntryComplete => Sys2Proof.Machine.execStandbyEntryComplete s
  | .wakeComplete cores quarters modules channels => Sys2Proof.Machine.execWakeComplete cores quarters modules channels s
  | .thermalWarning t => Sys2Proof.Machine.execThermalWarning t s
  | .thermalCritical => Sys2Proof.Machine.execThermalCritical s
  | .thermalTrip => Sys2Proof.Machine.execThermalTrip s
  | .ledgerEntryTimer => Sys2Proof.Machine.execLedgerEntryTimer s
  | .recordWrite => Sys2Proof.Machine.execRecordWrite s
  | .crcScanEnd e passed => Sys2Proof.Machine.execCrcScanEnd e passed s
  | .debugSessionExpiry => Sys2Proof.Machine.execDebugSessionExpiry s
  | .rngTestFail => Sys2Proof.Machine.execRngTestFail s
  | .otpCommandComplete unblown weak => Sys2Proof.Machine.execOtpCommandComplete unblown weak s
  | .secOtpRead => Sys2Proof.Machine.execSecOtpRead s
  | .secOtpProgram => Sys2Proof.Machine.execSecOtpProgram s
  | .secOtpGensecret => Sys2Proof.Machine.execSecOtpGensecret s
  | .domainEnable v => Sys2Proof.Machine.execDomainEnable v s
  | .domainStop v => Sys2Proof.Machine.execDomainStop v s
  | .leadWrite v => Sys2Proof.Machine.execLeadWrite v s
  | .tbSwtrig v => Sys2Proof.Machine.execTbSwtrig v s
  | .tbDnCfgWrite n v => Sys2Proof.Machine.execTbDnCfgWrite n v s
  | .tbDnVtotWrite n v => Sys2Proof.Machine.execTbDnVtotWrite n v s
  | .tbDnRoundWrite n hi v => Sys2Proof.Machine.execTbDnRoundWrite n hi v s
  | .tbNowLoRead => Sys2Proof.Machine.execTbNowLoRead s
  | .tbDnRoundLoRead n => Sys2Proof.Machine.execTbDnRoundLoRead n s
  | .ttRoundLoRead => Sys2Proof.Machine.execTtRoundLoRead s
  | .gridOccLoRead => Sys2Proof.Machine.execGridOccLoRead s
  | .gridCtrlWrite v => Sys2Proof.Machine.execGridCtrlWrite v s
  | .accInjectWrite v => Sys2Proof.Machine.execAccInjectWrite v s
  | .accDiagnosticAccess row col off len write data flips => Sys2Proof.Machine.execAccDiagnosticAccess row col off len write data flips s
  | .vcIdataLoRead n => Sys2Proof.Machine.execVcIdataLoRead n s
  | .vcIdataHiWrite n v who => Sys2Proof.Machine.execVcIdataHiWrite n v who s
  | .queTallyWrite n v => Sys2Proof.Machine.execQueTallyWrite n v s
  | .ringEnable r v => Sys2Proof.Machine.execRingEnable r v s
  | .windowWrite slice w mask v who => Sys2Proof.Machine.execWindowWrite slice w mask v who s
  | .spadPwrWrite slice hi v who => Sys2Proof.Machine.execSpadPwrWrite slice hi v who s
  | .shcInv => Sys2Proof.Machine.execShcInv s
  | .cmpFenceWrite k v who => Sys2Proof.Machine.execCmpFenceWrite k v who s
  | .pwrResetWarm v => Sys2Proof.Machine.execPwrResetWarm v s
  | .pwrResetTensor v => Sys2Proof.Machine.execPwrResetTensor v s
  | .crcStart e v => Sys2Proof.Machine.execCrcStart e v s
  | .crcStop e => Sys2Proof.Machine.execCrcStop e s
  | .crcValLoRead e => Sys2Proof.Machine.execCrcValLoRead e s
  | .dbgHalt v => Sys2Proof.Machine.execDbgHalt v s
  | .dbgStep v => Sys2Proof.Machine.execDbgStep v s
  | .dbgMemDataLoRead => Sys2Proof.Machine.execDbgMemDataLoRead s
  | .dbgMemDataHiWrite v => Sys2Proof.Machine.execDbgMemDataHiWrite v s
  | .registerWrite who b data poisoned => Sys2Proof.Machine.execRegisterWrite who b data poisoned s
  | .dprxLinkTrained port rate lanes subs mst dsc => Sys2Proof.Machine.execDprxLinkTrained port rate lanes subs mst dsc s
  | .rngTestPass => Sys2Proof.Machine.execRngTestPass s
  | .bankOnComplete slice bank => Sys2Proof.Machine.execBankOnComplete slice bank s
  | .paddingFillComplete ring slot => Sys2Proof.Machine.execPaddingFillComplete ring slot s
  | .tpwrOkRise => Sys2Proof.Machine.execTpwrOkRise s
  | .registerRead who b len => Sys2Proof.Machine.execRegisterRead who b len s
  | .pcieConfigurationWrite w => Sys2Proof.Machine.execPcieConfigurationWrite w s

end Sys2Proof.Machine
end

