-- ==== Sys2Proof/Safety.lean ====
section
/-! DEFINITION. The terms claims are stated in: when a Yuben instruction runs without incident, what it leaves unchanged, and the
canonical form of the memories. -/

namespace Sys2Proof

/-- Fields `c` and imm24 of a word are unused and zero, and its type is 0 (R164). -/
def YWord.plainRegs (w : YWord) : Prop := w.c = 0#5 ∧ w.imm = 0#24 ∧ w.ty = 0#4
/-- The fields of a word that are not named as used are zero, and its type is 0 (R164). -/
def YWord.uses (w : YWord) (d a b c imm : Bool) : Prop :=
  (d = false → w.d = 0#5) ∧ (a = false → w.a = 0#5) ∧ (b = false → w.b = 0#5) ∧ (c = false → w.c = 0#5) ∧ (imm = false → w.imm = 0#24) ∧ w.ty = 0#4

end Sys2Proof

namespace Sys2Proof.Machine

/-! ### Instructions of a vector core -/

/-- The context holds its core and issues, its instruction word is read without error, nothing strikes memory, the program
counter lies in its range, and memory holds a word there whose opcode is defined (R155 to R157, R164). -/
def State.ready (s : State) (k : Issue) : Prop :=
  s.issues k = true ∧ k.fetch = .clean ∧ k.upsets = [] ∧ s.pcInRange k = true ∧ s.opDefined k = true

/-- Everything outside the vector cores is unchanged but the ISSUED count of the task that the batch context runs (R232); within
them, instruction memory, the other contexts and the other cores' control state are unchanged, and a halted core has
spent the instruction it was granted (R408). Memory reads as before, byte by byte. -/
structure OnlyCore (k : Issue) (s t : State) : Prop where
  outside : t = { s with yu := t.yu, tcc := { s.tcc with table := t.tcc.table } }
  files : t.yu = { s.yu with sreg := t.yu.sreg, vreg := t.yu.vreg, preg := t.yu.preg, ctxs := t.yu.ctxs, cores := t.yu.cores }
  ctxs : ∀ n x, n ≠ k.core ∨ x ≠ k.ctx → t.yctx n x = s.yctx n x
  cores : ∀ n, t.vcore n = if n = k.core then { s.vcore n with dbgStep := false } else s.vcore n
  table : ∀ slot off, off < 256 → slot ≠ s.ctxTask k.core k.ctx ∨ k.ctx = .line ∨ off < 0xA0 ∨ 0xA8 ≤ off →
    t.tableByte slot off = s.tableByte slot off
  bytes : ∀ a, t.memByte a = s.memByte a

/-- Scalar registers are unchanged but register `d` of the context. -/
def KeepS (k : Issue) (d : BitVec 5) (s t : State) : Prop :=
  ∀ j r, ctxKey j ≠ ctxKey k ∨ r ≠ d → t.sget j r = s.sget j r
/-- Vector registers are unchanged but register `d` of the context. -/
def KeepV (k : Issue) (d : BitVec 5) (s t : State) : Prop :=
  ∀ j r, ctxKey j ≠ ctxKey k ∨ r ≠ d → t.vget j r = s.vget j r
/-- Predicate registers are unchanged but register `d` of the context. -/
def KeepP (k : Issue) (d : Nat) (s t : State) : Prop :=
  ∀ j r, r < 8 → ctxKey j ≠ ctxKey k ∨ r ≠ d → t.pget j r = s.pget j r
/-- No register of any context has changed. -/
def KeepRegs (s t : State) : Prop :=
  t.yu.sreg = s.yu.sreg ∧ t.yu.vreg = s.yu.vreg ∧ t.yu.preg = s.yu.preg

/-- `t` is `s` with `v` in scalar register `d` (nothing, where `d` is s0, R155) and the frame of an instruction. -/
structure WritesS (k : Issue) (d : BitVec 5) (v : Word64) (s t : State) : Prop where
  value : t.sget k d = if d = 0#5 then 0#64 else v
  others : KeepS k d s t
  vregs : t.yu.vreg = s.yu.vreg
  pregs : t.yu.preg = s.yu.preg
  frame : OnlyCore k s t
/-- `t` is `s` with `v` in predicate register `d`. -/
structure WritesP (k : Issue) (d : Nat) (v : Pred) (s t : State) : Prop where
  value : t.pget k d = v
  others : KeepP k d s t
  sregs : t.yu.sreg = s.yu.sreg
  vregs : t.yu.vreg = s.yu.vreg
  frame : OnlyCore k s t
/-- `t` is `s` with `f l` in lane `l` of vector register `d` where the lane is enabled (R185), its other lanes kept. -/
structure WritesV (k : Issue) (w : YWord) (f : Nat → Nat) (s t : State) : Prop where
  value : ∀ l, l < 128 → (t.vget k w.d).lane l = if s.laneOn k w l then f l % 2 ^ 32 else (s.vget k w.d).lane l
  others : KeepV k w.d s t
  sregs : t.yu.sreg = s.yu.sreg
  pregs : t.yu.preg = s.yu.preg
  frame : OnlyCore k s t

/-- The state after a line-mode access has taken its bank's slot (R217); a batch access takes none. -/
def State.withSlots (s t : State) : State := { s with spad := { s.spad with slots := t.spad.slots } }
/-- A line-mode access of a bank meets no access of another core in this turn. -/
def State.slotFree (s : State) (k : Issue) (n off : Nat) : Prop :=
  k.ctx = .line → ∀ a ∈ s.spad.slots, a.2.1 = k.core ∨ a.2.2 ≠ (n, bankOf off)

/-- No line-mode access of another core has met a bank of a slice in this turn. -/
def State.sliceFree (s : State) (k : Issue) (n : Nat) : Prop :=
  k.ctx = .line → ∀ a ∈ s.spad.slots, a.2.1 = k.core ∨ a.2.2.1 ≠ n

/-! ### Host commands -/

/-- The one taken command is `c`, with an opcode, from the host's page, and nothing waits behind it. -/
structure State.fronts (s : State) (c : HostCmd) (op : Nat) : Prop where
  taken : s.host.taken = [c]
  opcode : c.opcode = op
  origin : c.origin = .host

/-- The command has completed: one record waits more, with its SEQ, opcode, tag, code and result (R380), and no command is taken. -/
structure Completed (c : HostCmd) (code result : Nat) (s t : State) : Prop where
  record : ∃ r, t.host.cpl = s.host.cpl ++ [r] ∧ r.seq = c.seq ∧ r.opcode = c.opcode ∧ r.code = code ∧ r.tag = c.tag ∧ r.result = result ∧
    r.vec = (if c.flags.testBit 2 then some c.vec else none)
  taken : t.host.taken = []

/-- The command waits for a round: one due command more, in its place (R377), and no command is taken. -/
structure WaitsFor (c : HostCmd) (round dom : Nat) (block : List Byte) (s t : State) : Prop where
  due : t.host.due = s.host.due ++ [⟨c, round, dom, block⟩]
  taken : t.host.taken = []
  cpl : t.host.cpl = s.host.cpl

/-- The lead domain runs a round before the command's due round, which leaves its preparation lead, and a place is free (R377). -/
structure State.admits (s : State) (c : HostCmd) (lead : Nat) : Prop where
  on : (s.dom s.leadDom).on = true
  run : (s.dom s.leadDom).run = true
  due : c.flags.testBit 0 = true
  late : c.first + lead ≤ c.due
  after : (s.dom s.leadDom).round < c.due
  near : c.due ≤ (s.dom s.leadDom).round + 2 ^ 24
  room : s.host.due.length < 64

/-! ### The fabric -/

/-- A port has a flit to send, or keeps it until it is acknowledged (R334, R335). -/
def State.queued (s : State) (p : Nat) (g : FabFlit) : Prop := g ∈ (s.fport p).tx ∨ ∃ n, (n, g) ∈ (s.fport p).replay
/-- A port takes the flit, which has the class of its type; `r` is the state once its acknowledgement is taken. -/
structure State.accepts (s : State) (f : FlitIn) (cls : Nat) (r : State) : Prop where
  good : s.receiveFlit f = (r, true)
  cls : f.cls = cls
/-- The flit came by a port that carries traffic and is for this device. -/
structure State.acceptsHere (s : State) (f : FlitIn) (cls : Nat) (r : State) : Prop where
  taken : s.accepts f cls r
  port : r.portOpen f.port = true
  here : f.dx % 64 = r.ownX ∧ f.dy % 64 = r.ownY
/-- Nothing outside the fabric's own state, the registers and the events that wait for the recorder has changed. -/
structure FabricOnly (s t : State) : Prop where
  outside : t = { s with regs := t.regs, raster := t.raster, scorepad := t.scorepad }
  raster : t.raster = { s.raster with fab := t.raster.fab }

end Sys2Proof.Machine
end

