-- ==== Sys2Proof/WellFormed.lean ====
section
/-! DEFINITION. The checks a well-formed command passes: every number it names exists on the largest part, NG5120-A. A command that
fails one still has a meaning; on a smaller part it meets the refusal or the absence its own rule gives. -/

namespace Sys2Proof

/-- An instruction issues on one of the 16 vector cores (R155). -/
def Issue.wf (k : Issue) : Bool := decide (k.core < 16)

/-- A flit's fields fit the places of R331 and R332, and it comes by one of the four ports. -/
def FlitIn.wf (f : FlitIn) : Bool :=
  decide (f.port < 4) && decide (f.seq < 2 ^ 12) && decide (f.ack < 2 ^ 12) && decide (f.cls < 8) && decide (f.dx < 64) && decide (f.dy < 64) &&
    decide (f.sx < 64) && decide (f.sy < 64) && decide (f.hops < 128) && decide (f.arg < 2 ^ 25) && decide (f.payload.length ≤ 64)

/-- What boot finds lies within the part of its variant (R4, R5, R27, R145, R433). -/
def BootFind.wf (f : BootFind) : Bool :=
  decide (f.modules < 4) && decide (f.pcieGen ≤ 4) && decide (f.rate ≤ 6) && [1, 2, 4].contains f.gib &&
    (if f.variantC then decide (f.channels < 2 ^ 14) && decide (f.cores < 2 ^ 12) && decide (f.quarters < 15) && !f.whole
     else decide (f.channels < 2 ^ 16) && decide (f.cores < 2 ^ 16) && decide (f.quarters < 16)) &&
    [0, 1, 2, 4, 8].contains f.pcieWidth && decide (f.fab.length ≤ 4) && decide (f.dptx.length ≤ 4) && decide (f.dprx.length ≤ 2)

/-- The well-formed commands. -/
def Instr.wf : Instr → Bool
  | .add k _ | .sub k _ | .andR k _ | .orR k _ | .xorR k _ | .sll k _ | .srl k _ | .sra k _ | .slt k _ | .sltu k _
  | .minS k _ | .maxS k _ | .minu k _ | .maxu k _ | .addi k _ | .subi k _ | .andi k _ | .ori k _ | .xori k _
  | .slli k _ | .srli k _ | .srai k _ | .slti k _ | .sltui k _ | .mini k _ | .maxi k _ | .minui k _ | .maxui k _
  | .mul k _ | .mulh k _ | .mulhu k _ | .divS k _ | .divu k _ | .remS k _ | .remu k _ | .clz k _ | .popc k _ | .li k _
  | .lim k _ | .rdsr k _ | .lb k _ | .lbu k _ | .lh k _ | .lhu k _ | .lw k _ | .lwu k _ | .ld k _ | .sb k _ | .sh k _
  | .sw k _ | .sd k _ | .pcmp k _ | .pcmpi k _ | .pand k _ | .por k _ | .pxor k _ | .pandn k _ | .pnot k _ | .pmov k _
  | .pfirst k _ | .pcnt k _ | .pany k _ | .br k _ | .j k _ | .jal k _ | .jr k _ | .jalr k _ | .bp k _ | .loop k _
  | .loopi k _ | .nop k _ | .halt k _ | .fence k _ | .trap k _ | .waitc k _ | .waitn k _ | .waitturn k _ | .waitrdy k _
  | .waithq k _ => k.wf
  | .waitEnd core _ => decide (core < 16)
  | .tstamp k _ | .vadd k _ _ | .vsub k _ _ | .vmul k _ _ | .vmulh k _ _ | .vand k _ _ | .vor k _ _ | .vxor k _ _
  | .vsll k _ _ | .vsrl k _ _ | .vsra k _ _ | .vmin k _ _ | .vmax k _ _ | .vsatadd k _ _ | .vsatsub k _ _ | .vabs k _
  | .vfadd k _ _ | .vfsub k _ _ | .vfmul k _ _ | .vfdiv k _ _ | .vfmin k _ _ | .vfmax k _ _ | .vfsqrt k _ | .vfabs k _
  | .vfneg k _ | .vfma k _ | .vfms k _ | .vfnma k _ | .vcmp k _ _ | .vmov k _ | .vlane k _ | .vbcast k _ | .vext k _
  | .vins k _ | .vperm k _ | .vrot k _ | .vradd k _ | .vrmin k _ | .vrmax k _ | .vrfadd k _ | .vrfmin k _ | .vrfmax k _
  | .vpxadd k _ | .vpxsub k _ | .vpxmul k _ | .vpxscl k _ | .vldn k _ | .vstn k _ | .vld k _ | .vst k _ | .vlds k _
  | .vldt k _ | .vldh k _ | .vsth k _ | .vldr k _ | .vgth k _ | .vsct k _ | .vcvt k _ | .vqtok k _ | .vqnt k _
  | .vdq k _ | .vbscl k _ | .vqblk k _ | .vdqblk k _ | .vhad64 k _ | .vhad256 k _ | .gcmd k _ | .gwait k _ | .mvq k _
  | .chain k _ | .mvwait k _ | .rres k _ | .rset k _ | .rchk k _ | .rhead k _ | .rrel k _ | .rvoid k _ | .hpush k _
  | .hpop k _ | .hpopt k _ | .hcnt k _ | .tadd k _ => k.wf
  | .launchMove _ | .passMove _ | .moveMove _ | .haloMove _ | .voidMove _ => true
  | .spanCheck core => decide (core < 16)
  | .gridPassAdmit unit | .gridPassComplete unit _ _ => decide (unit < 5)
  | .rasterTurnBoundary n _ _ _ | .decisionTick n | .roundBoundary n => decide (n < 4)
  | .markAction found => found.words.all (fun x => decide (6 ≤ x.1) && decide (x.1 ≤ 9))
  | .dieLinkFlit module _ => decide (module < 2)
  | .rasterFlitDelivery _ _ => true
  | .syncPinEdge pin _ _ => decide (pin < 6)
  | .dprxLineReceived port q _ _ _ _ => decide (port < 2) && decide (q < 16)
  | .captureLineWritten n _ => decide (n < 64)
  | .captureNotice _ => true
  | .layerFetchIssue stream layer => decide (stream < 64) && decide (layer < 8)
  | .flipDecision n => decide (n < 4)
  | .cvScrubCheck _ => true
  | .gatherEntryWrite slice _ | .eccWriteBack slice => decide (slice < 16)
  | .spadScrubRead slice bank _ => decide (slice < 16) && decide (bank < 32)
  | .accScrubRead found => found.banks.all (fun b => decide (b < 512))
  | .bankPowerGate slice bank => decide (slice < 16) && decide (bank < 32)
  | .moverDescriptorStart m _ => decide (m < 16)
  | .moverDescriptorComplete m cls _ _ => decide (m < 16) && decide (cls < 5)
  | .chainStage _ stage => decide (stage < 8)
  | .regulatorRefill => true
  | .cancelBarrierComplete slot => decide (slot < 16384)
  | .channelRetryLimit ch | .channelRetrainComplete ch _ => decide (ch < 16)
  | .pauseBarrierComplete slot | .saveComplete slot _ _ | .restoreComplete slot => decide (slot < 16384)
  | .commandPoll | .completionWrite | .hello | .caps _ | .loadBundle _ | .unload | .startAt | .stopAt | .setStream _
  | .flipSet _ | .submitTasks _ | .pauseTask | .saveTask | .resumeTask | .cancel | .cancelCommand | .adaptCtrlEnable
  | .adaptCtrlDisable | .adaptCtrlCommit | .adaptCtrlDiscard | .adaptCtrlReset | .adaptCtrlExport _
  | .adaptCtrlImport _ | .setClock | .setPowerRun | .setPowerHold | .setPowerStandby | .setPowerBanks | .recRead _
  | .recClear | .crcScan => true
  | .attest _ fails => decide (fails < 16)
  | .debugUnlock _ | .debugNonceRequest | .debugEnd | .provision _ | .retire _ | .fabricDiscoverFull
  | .fabricDiscoverJoin | .routeSet _ | .fabricForward _ => true
  | .beacon f _ _ _ => f.wf
  | .beaconSend _ => true
  | .delayRequest f _ _ | .delayResponse f _ | .haloWrite f | .fabricHello f => f.wf
  | .offer f peerPort => f.wf && decide (peerPort < 4)
  | .accept f _ | .fabricCommand f | .fabricCompletion f | .fenceWrite f | .readyFlag f | .bootRequest f | .pixelData f
  | .bulkWrite f | .readRequest f | .readResponse f | .writeAcknowledgement f | .bootImage f _ | .idle f => f.wf
  | .idleSend p | .replayTimeout p => decide (p < 4)
  | .linkTrained p lanes _ => decide (p < 4) && [1, 2, 4].contains lanes
  | .laneRetrain p lanes done => decide (p < 4) && ([1, 2].contains lanes || !done)
  | .portLost p cause => decide (p < 4) && decide (cause < 8)
  | .parentAbandon | .detach | .discoverySettle | .offerWindowEnd | .noOfferTimeout => true
  | .fabricResponseTimeout m => decide (m < 16)
  | .forwardTimeout seq => decide (seq ≤ 0xFFFFFF00)
  | .dptxHpd port _ | .dptxTrainingComplete port _ _ _ _ _ | .dptxLinkLoss port _ => decide (port < 4)
  | .dprxLinkLoss port _ => decide (port < 2)
  | .perstN | .functionLevelReset => true
  | .pcieRetrain width gen => [0, 1, 2, 4, 8].contains width && decide (gen ≤ 4)
  | .dStateChange _ | .bar2Access _ _ _ _ _ => true
  | .coldReset straps _ => decide (straps < 16)
  | .bootStep f => f.wf
  | .vddAonLoss straps _ => decide (straps < 16)
  | .watchdogExpiry | .tpwrOkFall | .tpwrOkTimeout | .holdClocksStopped | .standbyEntryComplete => true
  | .wakeComplete cores quarters modules channels
    => decide (cores < 2 ^ 16) && decide (quarters < 16) && decide (modules < 4) && decide (channels < 2 ^ 16)
  | .thermalWarning _ | .thermalCritical | .thermalTrip | .ledgerEntryTimer | .recordWrite => true
  | .crcScanEnd e _ => decide (e < 8)
  | .debugSessionExpiry | .rngTestFail | .otpCommandComplete _ _ | .secOtpRead | .secOtpProgram | .secOtpGensecret
  | .domainEnable _ | .domainStop _ | .leadWrite _ | .tbSwtrig _ => true
  | .tbDnCfgWrite n _ | .tbDnVtotWrite n _ | .tbDnRoundWrite n _ _ => decide (n < 4)
  | .tbNowLoRead => true
  | .tbDnRoundLoRead n => decide (n < 4)
  | .ttRoundLoRead | .gridOccLoRead | .gridCtrlWrite _ | .accInjectWrite _ => true
  | .accDiagnosticAccess row col off _ _ _ _ => decide (row < 1024) && decide (col < 512) && decide (off < 16)
  | .vcIdataLoRead n | .vcIdataHiWrite n _ _ => decide (n < 16)
  | .queTallyWrite n _ => decide (n < 64)
  | .ringEnable r _ => decide (r < 256)
  | .windowWrite slice w _ _ _ => decide (slice < 16) && decide (w < 32)
  | .spadPwrWrite slice _ _ _ => decide (slice < 16)
  | .shcInv => true
  | .cmpFenceWrite k _ _ => decide (k < 64)
  | .pwrResetWarm _ | .pwrResetTensor _ => true
  | .crcStart e _ | .crcStop e | .crcValLoRead e => decide (e < 8)
  | .dbgHalt _ | .dbgStep _ | .dbgMemDataLoRead | .dbgMemDataHiWrite _ | .registerWrite _ _ _ _ => true
  | .dprxLinkTrained port _ lanes subs _ _ => decide (port < 2) && decide (subs ≤ 16) && [1, 2, 4].contains lanes
  | .rngTestPass => true
  | .bankOnComplete slice bank => decide (slice < 16) && decide (bank < 32)
  | .paddingFillComplete ring _ => decide (ring < 256)
  | .tpwrOkRise | .registerRead _ _ _ | .pcieConfigurationWrite _ => true

end Sys2Proof
end

