-- ==== Sys2Proof/Certificates/Slice0/Obligations.lean ====
section
/-! DEFINITION. The statements for the provers. Each says that commands complete, what they do and what they leave. -/

open Sys2Proof Sys2Proof.Machine

/-! ### The queue -/

/-- A step takes the command at the front of the queue and is exec of it on the queue's rest. -/
def Claim.StepRunsFront : Prop :=
  ∀ (c : Instr) (r : List Instr) (s : State), s.pending = c :: r → step s = exec c { s with pending := r }

/-- On an empty queue the block idles and the timebase counts one tick (log entry 3). -/
def Claim.StepIdles : Prop :=
  ∀ s : State, s.pending = [] → ∃ t, step s = .next t ∧ t = { s with now := s.now + 1 }

/-- A step takes the command at the front of the queue and is exec of it on the rest; an empty queue is an idle tick. -/
def Obligations.StepRunsQueue : Prop :=
  Claim.StepRunsFront ∧ Claim.StepIdles

/-! ### Scalar instructions of a vector core -/

/-- Register forms of op 0x00 (R167, R168): sd takes the value of the table, all else is kept. -/
def Claim.ScalarRegisterResults : Prop :=
  ∀ (k : Issue) (w : YWord) (s : State), s.ready k → s.enabled k w = true → w.plainRegs →
    ∀ p ∈ ([(.add, fun a b => a + b), (.sub, fun a b => a - b), (.andR, fun a b => a &&& b), (.orR, fun a b => a ||| b),
        (.xorR, fun a b => a ^^^ b), (.sll, fun a b => a <<< (b.toNat % 64)), (.srl, fun a b => a >>> (b.toNat % 64)),
        (.sra, fun a b => a.sshiftRight (b.toNat % 64)),
        (.slt, fun a b => if a.toInt < b.toInt then 1#64 else 0#64), (.sltu, fun a b => if a.toNat < b.toNat then 1#64 else 0#64),
        (.minS, fun a b => if a.toInt ≤ b.toInt then a else b), (.maxS, fun a b => if a.toInt ≤ b.toInt then b else a),
        (.minu, fun a b => if a.toNat ≤ b.toNat then a else b), (.maxu, fun a b => if a.toNat ≤ b.toNat then b else a),
        (.mul, fun a b => a * b), (.mulh, fun a b => BitVec.ofInt 64 (a.toInt * b.toInt / 18446744073709551616)),
        (.mulhu, fun a b => BitVec.ofNat 64 (a.toNat * b.toNat / 18446744073709551616)),
        (.divS, fun a b => if b = 0#64 then BitVec.allOnes 64 else BitVec.ofInt 64 (a.toInt.tdiv b.toInt)),
        (.divu, fun a b => if b = 0#64 then BitVec.allOnes 64 else BitVec.ofNat 64 (a.toNat / b.toNat)),
        (.remS, fun a b => if b = 0#64 then a else BitVec.ofInt 64 (a.toInt.tmod b.toInt)),
        (.remu, fun a b => if b = 0#64 then a else BitVec.ofNat 64 (a.toNat % b.toNat))] :
        List ((Issue → YWord → Instr) × (Word64 → Word64 → Word64))),
      ∃ t, exec (p.1 k w) s = .next t ∧ WritesS k w.d (p.2 (s.sget k w.a) (s.sget k w.b)) s t

/-- CLZ and POPC (R167): the zeros above the highest set bit, 64 for zero, and the number of set bits. -/
def Claim.BitCounts : Prop :=
  ∀ (k : Issue) (w : YWord) (s : State), s.ready k → s.enabled k w = true → w.plainRegs → w.b = 0#5 →
    (∃ t n, exec (.clz k w) s = .next t ∧ n ≤ 64 ∧ (s.sget k w.a).toNat < 2 ^ (64 - n) ∧
      (n < 64 → 2 ^ (63 - n) ≤ (s.sget k w.a).toNat) ∧ WritesS k w.d (BitVec.ofNat 64 n) s t) ∧
    ∃ t, exec (.popc k w) s = .next t ∧
      WritesS k w.d (BitVec.ofNat 64 ((List.range 64).filter (fun i => (s.sget k w.a).getLsbD i)).length) s t

/-- Every register form of the scalar integer instructions (R167, R168). -/
def Obligations.ScalarRegisterForms : Prop :=
  Claim.ScalarRegisterResults ∧ Claim.BitCounts

/-- Immediate forms of op 0x01 with LI and LIM (R167, R169): the immediate is sign-extended, but for LIM, which appends it. -/
def Obligations.ScalarImmediateResults : Prop :=
  ∀ (k : Issue) (w : YWord) (s : State), s.ready k → s.enabled k w = true → w.b = 0#5 → w.c = 0#5 → w.ty = 0#4 →
    (∀ p ∈ ([(.addi, fun a b => a + b), (.subi, fun a b => a - b), (.andi, fun a b => a &&& b), (.ori, fun a b => a ||| b),
        (.xori, fun a b => a ^^^ b), (.slli, fun a b => a <<< (b.toNat % 64)), (.srli, fun a b => a >>> (b.toNat % 64)),
        (.srai, fun a b => a.sshiftRight (b.toNat % 64)),
        (.slti, fun a b => if a.toInt < b.toInt then 1#64 else 0#64), (.sltui, fun a b => if a.toNat < b.toNat then 1#64 else 0#64),
        (.mini, fun a b => if a.toInt ≤ b.toInt then a else b), (.maxi, fun a b => if a.toInt ≤ b.toInt then b else a),
        (.minui, fun a b => if a.toNat ≤ b.toNat then a else b), (.maxui, fun a b => if a.toNat ≤ b.toNat then b else a),
        (.lim, fun a _ => BitVec.ofNat 64 (a.toNat * 16777216 + w.imm.toNat))] :
        List ((Issue → YWord → Instr) × (Word64 → Word64 → Word64))),
      ∃ t, exec (p.1 k w) s = .next t ∧ WritesS k w.d (p.2 (s.sget k w.a) (BitVec.ofInt 64 w.imm.toInt)) s t) ∧
    (w.a = 0#5 → ∃ t, exec (.li k w) s = .next t ∧ WritesS k w.d (BitVec.ofInt 64 w.imm.toInt) s t)

/-- RDSR and TSTAMP (R170, R178): the special registers by number, for some issue cycle of the turn; a number that R170 does not
list is the illegal-instruction fault.
The model's own choices and readings in it: log entry 21. -/
def Obligations.SpecialRegisterReads : Prop :=
  ∀ (k : Issue) (w : YWord) (s : State), s.ready k → s.enabled k w = true → w.a = 0#5 → w.b = 0#5 → w.c = 0#5 → w.ty = 0#4 →
    (∃ cyc, ∀ p ∈ ([(0x000, k.core), (0x001, if k.ctx = .line then 0 else 1), (0x002, s.ctxTask k.core k.ctx),
        (0x010, s.tt.round % 2 ^ 48), (0x011, if s.seq.started then s.tt.runRound else 0), (0x012, s.tt.turn), (0x013, cyc),
        (0x014, s.getF (F.TB_Dn_TURN_LEN s.leadDom) * s.getF F.HUB_ACLK_MHZ / 1000), (0x015, s.tt.isRepeat.toNat),
        (0x020, (s.yctx k.core k.ctx).loop0.count), (0x021, (s.yctx k.core k.ctx).loop1.count), (0x030, s.getF F.HUB_ACLK_MHZ)] :
        List (Nat × Nat)),
      w.imm.toNat = p.1 → ∃ t, exec (.rdsr k w) s = .next t ∧ WritesS k w.d (BitVec.ofNat 64 p.2) s t) ∧
    (w.imm.toNat ∉ [0x000, 0x001, 0x002, 0x010, 0x011, 0x012, 0x013, 0x014, 0x015, 0x020, 0x021, 0x030] →
      exec (.rdsr k w) s = .next (s.takeFault k.core k.ctx 1 0)) ∧
    (w.imm = 0#24 → ∃ t cyc, exec (.tstamp k w) s = .next t ∧
      WritesS k w.d (BitVec.ofNat 64 (s.tt.turn * 65536 ||| cyc % 65536)) s t)

/-- Scalar loads (R171): the bytes of the narrow view at the region's base plus the offset, widened as the table says. The state
the frame is over is the one after the line-mode slot (R217) and the words' ECC checks. An uncorrectable word is the data-error fault (R122). -/
def Claim.ScalarLoads : Prop :=
  ∀ (k : Issue) (w : YWord) (s : State), s.ready k → s.enabled k w = true → w.b = 0#5 → w.ty = 0#4 → w.c.toNat < 4 →
    ∀ p ∈ ([(.lb, 1, true), (.lbu, 1, false), (.lh, 2, true), (.lhu, 2, false), (.lw, 4, true), (.lwu, 4, false), (.ld, 8, false)] :
        List ((Issue → YWord → Instr) × Nat × Bool)),
      ∀ n off, s.checkTask k.core (s.ctxTask k.core k.ctx) w.c.toNat (s.sget k w.a + w.simm).toNat p.2.1 p.2.1 false = .ok n off →
        s.slotFree k n off → (s.readSlice n off p.2.1).2.2 = false →
        ∃ t, exec (p.1 k w) s = .next t ∧ (k.ctx = .batch → t.spad.slots = s.spad.slots) ∧
          WritesS k w.d (if p.2.2 then BitVec.ofInt 64 (signedOf (8 * p.2.1) (s.sliceNat n off p.2.1)) else BitVec.ofNat 64 (s.sliceNat n off p.2.1))
            ((s.withSlots t).readSlice n off p.2.1).1 t

/-- A load or store whose access check fails is the access fault with its offset; an uncorrectable word under a load is the
data-error fault (R22, R118, R120, R122, R171, R180). -/
def Claim.ScalarAccessFaults : Prop :=
  ∀ (k : Issue) (w : YWord) (s : State), s.ready k → s.enabled k w = true → w.ty = 0#4 → w.c.toNat < 4 →
    (w.b = 0#5 → ∀ p ∈ ([(.lb, 1), (.lbu, 1), (.lh, 2), (.lhu, 2), (.lw, 4), (.lwu, 4), (.ld, 8)] :
        List ((Issue → YWord → Instr) × Nat)),
      let o := (s.sget k w.a + w.simm).toNat
      (s.checkTask k.core (s.ctxTask k.core k.ctx) w.c.toNat o p.2 p.2 false = .refused →
        exec (p.1 k w) s = .next (s.refuseAccess.takeFault k.core k.ctx 2 o)) ∧
      (∀ n off, s.checkTask k.core (s.ctxTask k.core k.ctx) w.c.toNat o p.2 p.2 false = .ok n off →
        s.slotFree k n off → (s.readSlice n off p.2).2.2 = true →
        ∃ t, exec (p.1 k w) s = .next t ∧ t = ((s.withSlots t).readSlice n off p.2).1.takeFault k.core k.ctx 3 o)) ∧
    (w.d = 0#5 → ∀ p ∈ ([(.sb, 1), (.sh, 2), (.sw, 4), (.sd, 8)] : List ((Issue → YWord → Instr) × Nat)),
      let o := (s.sget k w.a + w.simm).toNat
      (s.checkTask k.core (s.ctxTask k.core k.ctx) w.c.toNat o p.2 p.2 true = .refused →
        exec (p.1 k w) s = .next (s.refuseAccess.takeFault k.core k.ctx 2 o)) ∧
      (s.checkTask k.core (s.ctxTask k.core k.ctx) w.c.toNat o p.2 p.2 true = .window →
        exec (p.1 k w) s = .next (s.refuseWindow.takeFault k.core k.ctx 2 o)))

/-- Scalar stores (R114, R171): the bytes enter the slice's gather buffer, so every port reads them at the address stored to
and every other byte of every slice as before, and no bank byte changes. Where the write neither fills its entry nor
needs the place of an older one. -/
def Claim.ScalarStores : Prop :=
  ∀ (k : Issue) (w : YWord) (s : State), s.ready k → s.enabled k w = true → w.d = 0#5 → w.ty = 0#4 → w.c.toNat < 4 →
    ∀ p ∈ ([(.sb, 1), (.sh, 2), (.sw, 4), (.sd, 8)] : List ((Issue → YWord → Instr) × Nat)),
      ∀ n off, s.checkTask k.core (s.ctxTask k.core k.ctx) w.c.toNat (s.sget k w.a + w.simm).toNat p.2 p.2 true = .ok n off →
        off % p.2 = 0 → s.bankInit n (bankOf off) = true →
        (∀ e ∈ s.spad.gather, e.slice = n → e.block = off / 64 →
          (mergeBytes e.bytes (off % 64) (leBytes p.2 (s.sget k w.b).toNat)).length ≠ 64) →
        ((∃ e ∈ s.spad.gather, e.slice = n ∧ e.block = off / 64) ∨ (s.gatherOf n).length < 16) →
        ∃ t, exec (p.1 k w) s = .next t ∧ KeepRegs s t ∧ OnlyCore k { s with spad := t.spad } t ∧
          (∃ g, t.spad = { s.spad with gather := g }) ∧ t.mem = s.mem ∧
          (∀ i, i < p.2 → t.sliceByte n (off + i) = BitVec.ofNat 8 ((s.sget k w.b).toNat / 256 ^ i)) ∧
          (∀ m o, m ≠ n ∨ o < off ∨ off + p.2 ≤ o → t.sliceByte m o = s.sliceByte m o)

/-- Scalar loads and stores: results, stored bytes, frames and faults (R114, R118, R122, R171).
The model's own choices and readings in it: log entries 18, 19, 216, 222. -/
def Obligations.ScalarMemory : Prop :=
  Claim.ScalarLoads ∧ Claim.ScalarAccessFaults ∧ Claim.ScalarStores

/-! ### Predicates, control and timing -/

/-- Predicate instructions (R172): the value of pd or of sd, all else kept. -/
def Claim.PredicateResults : Prop :=
  ∀ (k : Issue) (w : YWord) (s : State), s.ready k → s.enabled k w = true → w.ty = 0#4 →
    (1 ≤ w.d.toNat → w.d.toNat < 8 →
      (∀ cond : Bool, ∀ b, scalarCond w.c.toNat (s.sget k w.a) b = some cond →
        (w.imm = 0#24 → b = s.sget k w.b → ∃ t, exec (.pcmp k w) s = .next t ∧
          WritesP k w.d.toNat (if cond then BitVec.allOnes 128 else 0#128) s t) ∧
        (w.b = 0#5 → b = BitVec.ofInt 64 w.imm.toInt → ∃ t, exec (.pcmpi k w) s = .next t ∧
          WritesP k w.d.toNat (if cond then BitVec.allOnes 128 else 0#128) s t)) ∧
      (w.c = 0#5 → w.imm = 0#24 → w.a.toNat < 8 → w.b.toNat < 8 →
        ∀ p ∈ ([(.pand, fun a b => a &&& b), (.por, fun a b => a ||| b), (.pxor, fun a b => a ^^^ b), (.pandn, fun a b => a &&& ~~~b)] :
          List ((Issue → YWord → Instr) × (Pred → Pred → Pred))),
          ∃ t, exec (p.1 k w) s = .next t ∧ WritesP k w.d.toNat (p.2 (s.pget k w.a.toNat) (s.pget k w.b.toNat)) s t) ∧
      (w.b = 0#5 → w.c = 0#5 → w.imm = 0#24 →
        (w.a.toNat < 8 → ∃ t, exec (.pnot k w) s = .next t ∧ WritesP k w.d.toNat (~~~(s.pget k w.a.toNat)) s t) ∧
        (w.a.toNat < 8 → ∃ t, exec (.pmov k w) s = .next t ∧ WritesP k w.d.toNat (s.pget k w.a.toNat) s t) ∧
        (∃ t v, exec (.pfirst k w) s = .next t ∧ WritesP k w.d.toNat v s t ∧
          ∀ i, i < 128 → v.getLsbD i = decide (i < (s.sget k w.a).toNat)))) ∧
    (w.b = 0#5 → w.c = 0#5 → w.imm = 0#24 → w.a.toNat < 8 →
      (∃ t, exec (.pcnt k w) s = .next t ∧
        WritesS k w.d (BitVec.ofNat 64 ((List.range 128).filter (fun i => (s.pget k w.a.toNat).getLsbD i)).length) s t) ∧
      (∃ t, exec (.pany k w) s = .next t ∧ WritesS k w.d (if s.pget k w.a.toNat = 0#128 then 0#64 else 1#64) s t))

/-- The conditions of R172, by code; codes 6 to 31 have none. -/
def Claim.ConditionCodes : Prop :=
  ∀ (c : Nat) (a b : Word64), scalarCond c a b =
    if c = 0 then some (decide (a = b)) else if c = 1 then some (decide (a ≠ b))
    else if c = 2 then some (decide (a.toInt < b.toInt)) else if c = 3 then some (decide (b.toInt ≤ a.toInt))
    else if c = 4 then some (decide (a.toNat < b.toNat)) else if c = 5 then some (decide (b.toNat ≤ a.toNat)) else none

/-- Predicate instructions and their conditions (R172). -/
def Obligations.Predicates : Prop :=
  Claim.PredicateResults ∧ Claim.ConditionCodes

/-- A jump from a context in no loop: the PC is the target, the link register takes PC + 1 (R173). Any other register is kept. -/
def Obligations.JumpsAndBranches : Prop :=
  ∀ (k : Issue) (w : YWord) (s : State), s.ready k → s.enabled k w = true → w.ty = 0#4 →
    (s.yctx k.core k.ctx).loop0.count = 0 → (s.yctx k.core k.ctx).loop1.count = 0 →
    let pc := (s.yctx k.core k.ctx).pc
    let target := (BitVec.ofNat 64 pc + BitVec.ofInt 64 w.imm.toInt).toNat
    (w.d = 0#5 → ∀ cond : Bool, scalarCond w.c.toNat (s.sget k w.a) (s.sget k w.b) = some cond →
      ∃ t, exec (.br k w) s = .next t ∧ KeepRegs s t ∧ OnlyCore k s t ∧
        (t.yctx k.core k.ctx).pc = if cond then target else pc + 1) ∧
    (w.d = 0#5 → w.b = 0#5 → w.a.toNat < 8 → ∀ cond : Bool, predCond w.c.toNat (s.pget k w.a.toNat) = some cond →
      ∃ t, exec (.bp k w) s = .next t ∧ KeepRegs s t ∧ OnlyCore k s t ∧
        (t.yctx k.core k.ctx).pc = if cond then target else pc + 1) ∧
    (w.b = 0#5 → w.c = 0#5 → w.a = 0#5 →
      (w.d = 0#5 → ∃ t, exec (.j k w) s = .next t ∧ KeepRegs s t ∧ OnlyCore k s t ∧ (t.yctx k.core k.ctx).pc = target) ∧
      (∃ t, exec (.jal k w) s = .next t ∧ WritesS k w.d (BitVec.ofNat 64 (pc + 1)) s t ∧ (t.yctx k.core k.ctx).pc = target)) ∧
    (w.b = 0#5 → w.c = 0#5 → w.imm = 0#24 →
      (w.d = 0#5 → ∃ t, exec (.jr k w) s = .next t ∧ KeepRegs s t ∧ OnlyCore k s t ∧
        (t.yctx k.core k.ctx).pc = (s.sget k w.a).toNat) ∧
      (∃ t, exec (.jalr k w) s = .next t ∧ WritesS k w.d (BitVec.ofNat 64 (pc + 1)) s t ∧
        (t.yctx k.core k.ctx).pc = (s.sget k w.a).toNat))

/-- LOOP and LOOPI start a level that is not active, with the body that follows (R174, R175); a count of zero skips the body. -/
def Claim.LoopsStart : Prop :=
  ∀ (k : Issue) (w : YWord) (s : State), s.ready k → s.enabled k w = true → w.d = 0#5 → w.b = 0#5 → w.ty = 0#4 → w.c.toNat < 2 →
    (s.yctx k.core k.ctx).loop0.count = 0 → (s.yctx k.core k.ctx).loop1.count = 0 → 0 < w.imm.toNat % 4096 →
    let pc := (s.yctx k.core k.ctx).pc
    let body := w.imm.toNat % 4096
    ∀ p ∈ ([(Instr.loop k w, w.imm.toNat < 4096, (s.sget k w.a).toNat % 2 ^ 32), (Instr.loopi k w, w.a = 0#5, w.imm.toNat / 4096)] :
        List (Instr × Prop × Nat)),
      p.2.1 → ∃ t, exec p.1 s = .next t ∧ KeepRegs s t ∧ OnlyCore k s t ∧
        (p.2.2 = 0 → (t.yctx k.core k.ctx).pc = pc + body + 1) ∧
        (0 < p.2.2 → (t.yctx k.core k.ctx).pc = pc + 1 ∧
          (w.c = 0#5 → (t.yctx k.core k.ctx).loop0 = ⟨pc + 1, pc + body, p.2.2⟩ ∧ (t.yctx k.core k.ctx).loop1.count = 0) ∧
          (w.c = 1#5 → (t.yctx k.core k.ctx).loop1 = ⟨pc + 1, pc + body, p.2.2⟩ ∧ (t.yctx k.core k.ctx).loop0.count = 0))

/-- What follows in sequence, for every enabled instruction without a jump, shown on NOP: the next iteration of the innermost
body that ends here, else the next instruction (R174). -/
def Claim.LoopBodyEnds : Prop :=
  ∀ (k : Issue) (w : YWord) (s : State), s.ready k → s.enabled k w = true →
    w.d = 0#5 → w.a = 0#5 → w.b = 0#5 → w.plainRegs →
    let c := s.yctx k.core k.ctx
    (c.loop0.count ≤ 1 ∨ c.loop0.stop ≠ c.pc) → (c.loop1.count = 0) →
      (∃ t, exec (.nop k w) s = .next t ∧ KeepRegs s t ∧ OnlyCore k s t ∧ (t.yctx k.core k.ctx).pc = c.pc + 1 ∧
        (c.loop0.count = 1 → c.loop0.stop = c.pc → (t.yctx k.core k.ctx).loop0.count = 0))

/-- The next iteration of a level-0 body: one iteration fewer is left, and the body's first instruction follows (R174). -/
def Claim.LoopIterates : Prop :=
  ∀ (k : Issue) (w : YWord) (s : State), s.ready k → s.enabled k w = true →
    w.d = 0#5 → w.a = 0#5 → w.b = 0#5 → w.plainRegs →
    let c := s.yctx k.core k.ctx
    1 < c.loop0.count → c.loop0.stop = c.pc → (c.loop1.count = 0 ∨ c.loop1.start < c.loop0.start) →
      ∃ t, exec (.nop k w) s = .next t ∧ (t.yctx k.core k.ctx).pc = c.loop0.start ∧
        (t.yctx k.core k.ctx).loop0 = { c.loop0 with count := c.loop0.count - 1 } ∧ (t.yctx k.core k.ctx).loop1 = c.loop1

/-- Hardware loops start, iterate and end (R174, R175).
The model's own choices and readings in it: log entry 213. -/
def Obligations.HardwareLoops : Prop :=
  Claim.LoopsStart ∧ Claim.LoopBodyEnds ∧ Claim.LoopIterates

/-- FENCE writes the core's gathered bytes to their banks, in the line context one entry every second cycle; HALT ends both loop levels, and in the line context applies the commit
list and ends the kernel, in the batch context reports the end to the TCC; TRAP raises the software trap (R159, R175, R179, R236).
The model's own choices and readings in it: log entry 221. -/
def Obligations.SystemInstructions : Prop :=
  ∀ (k : Issue) (w : YWord) (s : State), s.ready k → s.enabled k w = true → w.d = 0#5 → w.a = 0#5 → w.b = 0#5 → w.c = 0#5 → w.ty = 0#4 →
    (w.imm = 0#24 → ∃ t cyc, exec (.fence k w) s = .next t ∧ KeepRegs s t ∧
      OnlyCore k (if k.ctx = .batch then s.flushCore k.core else s.fenceCore k.core cyc) t) ∧
    (w.imm = 0#24 → k.ctx = .line → (∀ n, s.sliceFree k n) → ∃ t, exec (.halt k w) s = .next t ∧ (t.vcore k.core).lineRun = false ∧
      (t.vcore k.core).commit = [] ∧ (t.yctx k.core .line).loop0.count = 0 ∧ (t.yctx k.core .line).loop1.count = 0 ∧
      t.rings = (applyCommit (s.vcore k.core).commit s).rings ∧ t.mem = (applyCommit (s.vcore k.core).commit s).mem ∧ KeepRegs s t) ∧
    (w.imm = 0#24 → k.ctx = .batch → (s.yctx k.core .batch).dataErr = false → s.workPending (s.vcore k.core).batchTask = true →
      ∃ t, exec (.halt k w) s = .next t ∧ (t.vcore k.core).batchRun = false ∧ KeepRegs s t ∧
        (t.yctx k.core .batch).loop0.count = 0 ∧ (t.yctx k.core .batch).loop1.count = 0 ∧
        (s.vcore k.core).batchTask ∈ t.tcc.halted) ∧
    exec (.trap k w) s = .next (s.takeFault k.core k.ctx 8 w.imm.toNat)

/-- The waits of R176 and R177: the context stops issuing until the cycle, the turn, the ready bit or the handle that the
instruction names, and WAIT_END lets it go on. -/
def Claim.WaitsStopIssue : Prop :=
  ∀ (k : Issue) (w : YWord) (s : State), s.ready k → s.enabled k w = true → w.a = 0#5 → w.b = 0#5 → w.c = 0#5 → w.ty = 0#4 →
    (w.d = 0#5 → w.imm.toNat < 65536 → ∃ t, exec (.waitc k w) s = .next t ∧ KeepRegs s t ∧
      ((t.yctx k.core k.ctx).wait = some (.cycle w.imm.toNat) ∨
        ((t.yctx k.core k.ctx).wait = none ∧ w.imm.toNat < (t.yctx k.core k.ctx).nextIssue))) ∧
    (w.d = 0#5 → 0 < w.imm.toNat → ∃ t cyc, exec (.waitn k w) s = .next t ∧ KeepRegs s t ∧ OnlyCore k s t ∧
      (t.yctx k.core k.ctx).wait = some (.edge (cyc + w.imm.toNat)) ∧ (t.yctx k.core k.ctx).nextIssue = cyc + 1) ∧
    (w.d = 0#5 → k.ctx = .batch → 0 < w.imm.toNat → w.imm.toNat ≤ 16383 → ∃ t, exec (.waitturn k w) s = .next t ∧ KeepRegs s t ∧
      OnlyCore k s t ∧ (t.yctx k.core k.ctx).wait = some (.turns (s.tt.ordinal + w.imm.toNat))) ∧
    (1 ≤ w.d.toNat → w.d.toNat < 8 →
      (s.ownsRing (s.ctxTask k.core k.ctx) (w.imm.toNat / 65536) = true → ∃ t, exec (.waitrdy k w) s = .next t ∧ KeepRegs s t ∧
        OnlyCore k s t ∧ (t.yctx k.core k.ctx).wait = some (.ready w.d.toNat (w.imm.toNat / 65536) (w.imm.toNat % 65536))) ∧
      (s.ownsQueue (s.ctxTask k.core k.ctx) (w.imm.toNat / 65536) = true → ∃ t, exec (.waithq k w) s = .next t ∧ KeepRegs s t ∧
        OnlyCore k s t ∧ (t.yctx k.core k.ctx).wait = some (.handles w.d.toNat (w.imm.toNat / 65536) (w.imm.toNat % 65536))))

/-- WAIT_END: the context issues again; a deadline wait sets every bit of its predicate to whether the awaited thing is there,
and a line context goes on in cycle D + 1, or in the cycle after the wait's own where D lies before it (R177, log entry 212). -/
def Claim.WaitsEnd : Prop :=
  ∀ (core : Nat) (x : CtxId) (s : State),
    (∀ c, (s.yctx core x).wait = some (.cycle c) ∨ (s.yctx core x).wait = some (.edge c) → ∃ t, exec (.waitEnd core x) s = .next t ∧ KeepRegs s t ∧
      (t.yctx core x).wait = none ∧ (t.yctx core x).nextIssue = c) ∧
    (∀ n, (s.yctx core x).wait = some (.turns n) → n ≤ s.tt.ordinal → ∃ t, exec (.waitEnd core x) s = .next t ∧ KeepRegs s t ∧
      (t.yctx core x).wait = none ∧ (t.yctx core x).nextIssue = 0) ∧
    (∀ pd r d, pd ≠ 0 → pd < 8 → (s.yctx core x).wait = some (.ready pd r d) → ∃ t, exec (.waitEnd core x) s = .next t ∧
      (t.yctx core x).wait = none ∧ (x = .line → (t.yctx core x).nextIssue = max (s.yctx core x).nextIssue (d + 1)) ∧ t.yu.sreg = s.yu.sreg ∧ t.yu.vreg = s.yu.vreg ∧
      t.pget ⟨core, x, .clean, []⟩ pd = (if s.headReady r then BitVec.allOnes 128 else 0#128) ∧ KeepP ⟨core, x, .clean, []⟩ pd s t) ∧
    (∀ pd q d, pd ≠ 0 → pd < 8 → (s.yctx core x).wait = some (.handles pd q d) → ∃ t, exec (.waitEnd core x) s = .next t ∧
      (t.yctx core x).wait = none ∧ (x = .line → (t.yctx core x).nextIssue = max (s.yctx core x).nextIssue (d + 1)) ∧ t.yu.sreg = s.yu.sreg ∧ t.yu.vreg = s.yu.vreg ∧
      t.pget ⟨core, x, .clean, []⟩ pd = (if s.hqOf q = [] then 0#128 else BitVec.allOnes 128) ∧ KeepP ⟨core, x, .clean, []⟩ pd s t)

/-- Waits stop issue, and end (R176, R177).
The model's own choices and readings in it: log entry 212. -/
def Obligations.Waits : Prop :=
  Claim.WaitsStopIssue ∧ Claim.WaitsEnd

/-! ### Vector instructions -/

/-- Integer element instructions (R187) over both kinds of second operand: the element in enabled lanes, all else kept (R185). -/
def Claim.VectorIntegerResults : Prop :=
  ∀ (k : Issue) (w : YWord) (sc : Bool) (s : State), s.ready k → w.c = 0#5 → w.imm = 0#24 → w.ty.toNat ∈ [0x2, 0x3, 0x4, 0x5] →
    (∀ p ∈ ([(.vadd, fun t a b => wrapTo t.bits (elemInt t a + elemInt t b)), (.vsub, fun t a b => wrapTo t.bits (elemInt t a - elemInt t b)),
        (.vmul, fun t a b => wrapTo t.bits (elemInt t a * elemInt t b)),
        (.vmulh, fun t a b => wrapTo t.bits (elemInt t a * elemInt t b / ((2 ^ t.bits : Nat) : Int))),
        (.vand, fun _ a b => a &&& b), (.vor, fun _ a b => a ||| b), (.vxor, fun _ a b => a ^^^ b),
        (.vsll, fun t a b => a * 2 ^ (b % t.bits)), (.vsrl, fun t a b => a / 2 ^ (b % t.bits)),
        (.vsra, fun t a b => wrapTo t.bits (signedOf t.bits a / ((2 ^ (b % t.bits) : Nat) : Int))),
        (.vmin, fun t a b => wrapTo t.bits (min (elemInt t a) (elemInt t b))), (.vmax, fun t a b => wrapTo t.bits (max (elemInt t a) (elemInt t b))),
        (.vsatadd, fun t a b => satElem t (elemInt t a + elemInt t b)), (.vsatsub, fun t a b => satElem t (elemInt t a - elemInt t b))] :
        List ((Issue → YWord → Bool → Instr) × (ElemType → Nat → Nat → Nat))),
      ∃ t, exec (p.1 k w sc) s = .next t ∧
        WritesV k w (fun l => onElems w.elem (p.2 w.elem) ((s.vget k w.a).lane l) (operandB s k w sc l)) s t) ∧
    (w.b = 0#5 → ∃ t, exec (.vabs k w) s = .next t ∧
      WritesV k w (fun l => onElems w.elem (fun a _ => satElem w.elem (max (elemInt w.elem a) (-(elemInt w.elem a)))) ((s.vget k w.a).lane l) 0) s t)

/-- Floating-point element instructions (R72, R188): one rounding of the exact result in enabled lanes, all else kept. -/
def Claim.VectorFloatResults : Prop :=
  ∀ (k : Issue) (w : YWord) (s : State), s.ready k → w.imm = 0#24 → w.ty.toNat ∈ [0x9, 0xA, 0xB] →
    (w.c = 0#5 → ∀ sc, ∀ p ∈ ([(.vfadd, fAdd), (.vfsub, fSub), (.vfmul, fMul), (.vfdiv, fDiv), (.vfmin, fMin), (.vfmax, fMax)] :
        List ((Issue → YWord → Bool → Instr) × (FloatFmt → Nat → Nat → Nat))),
      ∃ t, exec (p.1 k w sc) s = .next t ∧
        WritesV k w (fun l => onElems w.elem (p.2 (fmtOf w.elem)) ((s.vget k w.a).lane l) (operandB s k w sc l)) s t) ∧
    (w.b = 0#5 → w.c = 0#5 → ∀ p ∈ ([(.vfsqrt, fSqrt), (.vfabs, fAbs), (.vfneg, fNeg)] :
        List ((Issue → YWord → Instr) × (FloatFmt → Nat → Nat))),
      ∃ t, exec (p.1 k w) s = .next t ∧
        WritesV k w (fun l => onElems w.elem (fun a _ => p.2 (fmtOf w.elem) a) ((s.vget k w.a).lane l) 0) s t) ∧
    (∀ p ∈ ([(.vfma, false, false), (.vfms, false, true), (.vfnma, true, false)] : List ((Issue → YWord → Instr) × Bool × Bool)),
      ∃ t, exec (p.1 k w) s = .next t ∧
        WritesV k w (fun l =>
          let f := fFma (fmtOf w.elem) p.2.1 p.2.2
          let a := (s.vget k w.a).lane l
          let b := (s.vget k w.b).lane l
          let c := (s.vget k w.c).lane l
          if w.elem.bits = 16 then f (a % 65536) (b % 65536) (c % 65536) + f (a / 65536) (b / 65536) (c / 65536) * 65536 else f a b c) s t)

/-- Element instructions, integer and floating-point (R187, R188). -/
def Obligations.VectorElements : Prop :=
  Claim.VectorIntegerResults ∧ Claim.VectorFloatResults

/-- VCMP (R189): a bit of pd per enabled lane, the bits of disabled lanes kept (R185). -/
def Claim.VectorCompares : Prop :=
  ∀ (k : Issue) (w : YWord) (sc : Bool) (s : State), s.ready k → w.imm = 0#24 → w.ty.toNat ∈ [0x4, 0x5, 0xC, 0xB] →
    1 ≤ w.d.toNat → w.d.toNat < 8 → vcmpCodeOk w.elem w.c.toNat = true →
    ∃ t v, exec (.vcmp k w sc) s = .next t ∧ WritesP k w.d.toNat v s t ∧
      ∀ l, l < 128 → v.getLsbD l =
        if s.laneOn k w l then laneCond w.elem w.c.toNat ((s.vget k w.a).lane l) (operandB s k w sc l) else (s.pget k w.d.toNat).getLsbD l

/-- Lane movement (R190). VEXT and VINS are enabled as a whole (R185). -/
def Claim.LaneMovement : Prop :=
  ∀ (k : Issue) (w : YWord) (s : State), s.ready k → w.c = 0#5 → w.imm = 0#24 → w.ty = 0#4 →
    (w.b = 0#5 → ∃ t, exec (.vmov k w) s = .next t ∧ WritesV k w (fun l => (s.vget k w.a).lane l) s t) ∧
    (w.a = 0#5 → w.b = 0#5 → ∃ t, exec (.vlane k w) s = .next t ∧ WritesV k w (fun l => l) s t) ∧
    (w.b = 0#5 → ∃ t, exec (.vbcast k w) s = .next t ∧ WritesV k w (fun _ => (s.sget k w.a).toNat) s t) ∧
    (∃ t, exec (.vperm k w) s = .next t ∧ WritesV k w (fun l => (s.vget k w.a).lane ((s.vget k w.b).lane l % 128)) s t) ∧
    (∃ t, exec (.vrot k w) s = .next t ∧ WritesV k w (fun l => (s.vget k w.a).lane ((l + (s.sget k w.b).toNat) % 128)) s t) ∧
    (s.enabled k w = true → ∃ t, exec (.vext k w) s = .next t ∧
      WritesS k w.d (BitVec.ofNat 64 ((s.vget k w.a).lane ((s.sget k w.b).toNat % 128))) s t) ∧
    (s.enabled k w = true → ∃ t, exec (.vins k w) s = .next t ∧ KeepV k w.d s t ∧ t.yu.sreg = s.yu.sreg ∧ t.yu.preg = s.yu.preg ∧
      OnlyCore k s t ∧ ∀ l, l < 128 → (t.vget k w.d).lane l =
        if l = (s.sget k w.b).toNat % 128 then (s.sget k w.a).toNat % 2 ^ 32 else (s.vget k w.d).lane l)

/-- Vector compares and lane movement (R189, R190). -/
def Obligations.ComparesAndMovement : Prop :=
  Claim.VectorCompares ∧ Claim.LaneMovement

/-- Reductions (R191): the tree over the row's elements with the identity for disabled lanes, widened to 64 bits; the integer sum
is the sum of the enabled elements modulo the element width. -/
def Claim.Reductions : Prop :=
  ∀ (k : Issue) (w : YWord) (s : State), s.ready k → w.b = 0#5 → w.c = 0#5 → w.imm = 0#24 →
    (w.ty.toNat ∈ [0x2, 0x3, 0x4, 0x5] → ∃ t v, exec (.vradd k w) s = .next t ∧ WritesS k w.d v s t ∧
      v = (if w.elem.isSigned then BitVec.ofInt 64 (signedOf w.elem.bits ((reduceElems s k w w.elem 0).foldl (· + ·) 0))
        else BitVec.ofNat 64 ((reduceElems s k w w.elem 0).foldl (· + ·) 0 % 2 ^ w.elem.bits))) ∧
    (w.ty.toNat ∈ [0x2, 0x3, 0x4, 0x5] → ∀ p ∈ ([(.vrmin, eMin, fun r => r.2), (.vrmax, eMax, fun r => r.1)] :
        List ((Issue → YWord → Instr) × (ElemType → Nat → Nat → Nat) × (Int × Int → Int))),
      ∃ t, exec (p.1 k w) s = .next t ∧ WritesS k w.d
        (let r := treeReduce (fun a b => p.2.1 w.elem a b % 2 ^ w.elem.bits) (if w.elem.bits = 16 then 8 else 7)
          (reduceElems s k w w.elem (wrapTo w.elem.bits (p.2.2 (w.elem.intRange.getD (0, 0)))))
        if w.elem.isSigned then BitVec.ofInt 64 (signedOf w.elem.bits r) else BitVec.ofNat 64 r) s t) ∧
    (w.ty.toNat ∈ [0x9, 0xA, 0xB] → ∀ p ∈ ([(.vrfadd, fAdd, fun f => signCode f true 0), (.vrfmin, fMin, fun f => infCode f false),
        (.vrfmax, fMax, fun f => infCode f true)] : List ((Issue → YWord → Instr) × (FloatFmt → Nat → Nat → Nat) × (FloatFmt → Nat))),
      ∃ t, exec (p.1 k w) s = .next t ∧ WritesS k w.d
        (BitVec.ofNat 64 (treeReduce (fun a b => p.2.1 (fmtOf w.elem) a b % 2 ^ w.elem.bits) (if w.elem.bits = 16 then 8 else 7)
          (reduceElems s k w w.elem (p.2.2 (fmtOf w.elem))))) s t)

/-- PX20 arithmetic (R192): saturating sums, differences, products and scaled values. -/
def Claim.PixelArithmetic : Prop :=
  ∀ (k : Issue) (w : YWord) (s : State), s.ready k → w.c = 0#5 → w.imm = 0#24 → w.ty.toNat = 0xC →
    ∀ p ∈ ([(.vpxadd, fun a b => min (a % 2 ^ 20 + b % 2 ^ 20) 0xFFFFF), (.vpxsub, fun a b => a % 2 ^ 20 - b % 2 ^ 20),
        (.vpxmul, fun a b => min ((a % 2 ^ 20 * (b % 2 ^ 20) * 2 + 65536) / 131072) 0xFFFFF), (.vpxscl, pxScl)] :
        List ((Issue → YWord → Instr) × (Nat → Nat → Nat))),
      ∃ t, exec (p.1 k w) s = .next t ∧ WritesV k w (fun l => p.2 ((s.vget k w.a).lane l) ((s.vget k w.b).lane l)) s t

/-- Reductions and PX20 arithmetic (R191, R192). -/
def Obligations.ReductionsAndPixels : Prop :=
  Claim.Reductions ∧ Claim.PixelArithmetic

/-- Row loads (R193): a wide row, or 128 narrow elements widened by their type, in enabled lanes; the frame is over the state
after the line-mode slot (R217) and the words' ECC checks. -/
def Claim.RowLoads : Prop :=
  ∀ (k : Issue) (w : YWord) (s : State), s.ready k → w.b = 0#5 → w.c.toNat < 4 → ∀ n off,
    (w.ty = 0#4 → s.checkTask k.core (s.ctxTask k.core k.ctx) w.c.toNat (s.sget k w.a + w.simm).toNat 512 512 false = .ok n off →
      s.slotFree k n off → (s.readSlice n off 512).2.2 = false →
      ∃ t, exec (.vld k w) s = .next t ∧ (k.ctx = .batch → t.spad.slots = s.spad.slots) ∧
        WritesV k w (fun l => s.sliceNat n (off + 4 * l) 4) ((s.withSlots t).readSlice n off 512).1 t) ∧
    (w.ty.toNat < 4 →
      s.checkTask k.core (s.ctxTask k.core k.ctx) w.c.toNat (s.sget k w.a + w.simm).toNat (128 * narrowSize w) (128 * narrowSize w) false = .ok n off →
      s.slotFree k n off → (s.readSlice n off (128 * narrowSize w)).2.2 = false →
      ∃ t, exec (.vldn k w) s = .next t ∧ (k.ctx = .batch → t.spad.slots = s.spad.slots) ∧
        WritesV k w (fun l => wrapTo 32 (if w.elem.isSigned then signedOf (8 * narrowSize w) (s.sliceNat n (off + narrowSize w * l) (narrowSize w))
            else (s.sliceNat n (off + narrowSize w * l) (narrowSize w) : Int)))
          ((s.withSlots t).readSlice n off (128 * narrowSize w)).1 t)

/-- Strided and transposed reads (R194) with a declared K that covers the port cycles of R115: the 32 segments in order, or
element-major. -/
def Claim.StridedLoads : Prop :=
  ∀ (k : Issue) (w : YWord) (s : State), s.ready k → w.ty = 0#4 → w.c.toNat < 4 →
    let kd := w.imm.toNat % 64
    let g := s.spadRegion (s.ctxTask k.core k.ctx) w.c.toNat
    let o := (s.sget k w.a + BitVec.ofInt 64 (signedOf 16 (w.imm.toNat / 256) * 16)).toNat
    let offs := (segOffsets (o : Int) (s.sget k w.b).toInt)
    let so := offs.map (fun x => g.base + x.toNat)
    kd ≤ 32 → (kd = 0 → k.ctx = .batch) → (kd ≠ 0 → portCycles so ≤ kd) → o % 16 = 0 → (s.sget k w.b).toInt % 16 = 0 →
    s.slotReads (s.ctxTask k.core k.ctx) = true → segsInRegion g offs = true → s.sliceFree k g.slice → (∀ x ∈ so, s.checkSlice k.core g.slice x 16 false = .ok g.slice x) →
    (readSegs s g.slice so).2.2 = false →
    (w.imm.toNat / 64 % 4 = 0 → ∃ t, exec (.vlds k w) s = .next t ∧
      WritesV k w (laneOf (readSegs s g.slice so).2.1) (readSegs (s.withSlots t) g.slice so).1 t) ∧
    (∀ e, (w.imm.toNat / 64 % 4 = 0 → e = 1) → (w.imm.toNat / 64 % 4 = 1 → e = 2) → (w.imm.toNat / 64 % 4 = 2 → e = 4) →
      w.imm.toNat / 64 % 4 < 3 → ∃ t, exec (.vldt k w) s = .next t ∧
        WritesV k w (laneOf (transposeBytes e (readSegs s g.slice so).2.1)) (readSegs (s.withSlots t) g.slice so).1 t)

/-- Loads from a ring slot: by handle while it is valid, and the head slot while it is ready (R196); otherwise the queue fault. -/
def Claim.SlotLoads : Prop :=
  ∀ (k : Issue) (w : YWord) (s : State), s.ready k → w.b = 0#5 → w.c = 0#5 → w.ty = 0#4 →
    let h := (s.sget k w.a).toNat % 2 ^ 32
    let r := w.imm.toNat / 65536
    let row := w.imm.toNat % 256
    (w.imm.toNat < 256 → s.ownsRing (s.ctxTask k.core k.ctx) (handleRing h) = true →
      (s.handleValid h = false → exec (.vldh k w) s = .next (s.badHandle.takeFault k.core k.ctx 5 h)) ∧
      (s.handleValid h = true → row < s.ringRows (handleRing h) → ∀ n off, slotCheck s k (handleRing h) (handleSlot h) row false = .ok n off →
        s.slotFree k n off → (s.readSlice n off 512).2.2 = false →
        ∃ t, exec (.vldh k w) s = .next t ∧ WritesV k w (fun l => s.sliceNat n (off + 4 * l) 4) ((s.withSlots t).readSlice n off 512).1 t)) ∧
    (w.a = 0#5 → w.imm.toNat / 256 % 256 = 0 → s.ownsRing (s.ctxTask k.core k.ctx) r = true →
      (s.ringUsed r = 0 ∨ s.headReady r = false → exec (.vldr k w) s = .next (s.takeFault k.core k.ctx 5 r)) ∧
      (s.ringUsed r ≠ 0 → s.headReady r = true → row < s.ringRows r → ∀ n off, slotCheck s k r (s.ringHead r) row false = .ok n off →
        s.slotFree k n off → (s.readSlice n off 512).2.2 = false →
        ∃ t, exec (.vldr k w) s = .next t ∧ WritesV k w (fun l => s.sliceNat n (off + 4 * l) 4) ((s.withSlots t).readSlice n off 512).1 t))

/-- Gather (R195) from a slice without marked words: the word at each enabled lane's offset. -/
def Claim.Gathers : Prop :=
  ∀ (k : Issue) (w : YWord) (s : State), s.ready k → w.imm = 0#24 → w.ty = 0#4 → w.c.toNat < 4 →
    let g := s.spadRegion (s.ctxTask k.core k.ctx) w.c.toNat
    s.sliceFree k g.slice → (∀ a, s.errAt a = 0) → (∀ b, b < 32 → s.bankInit g.slice b = true) →
    firstBadLane s k w false (List.range 128) = none →
    ∃ t, exec (.vgth k w) s = .next t ∧ WritesV k w (fun l => s.sliceNat g.slice (g.base + laneOffset s k w l) 4) (s.withSlots t) t

/-- Row, strided, slot and gather loads (R193 to R196).
The model's own choices and readings in it: log entry 19. -/
def Obligations.VectorLoads : Prop :=
  Claim.RowLoads ∧ Claim.StridedLoads ∧ Claim.SlotLoads ∧ Claim.Gathers

/-- Row stores (R185, R193): each enabled lane's bytes at its place, every other byte of every slice and of memory as before. -/
def Claim.RowStores : Prop :=
  ∀ (k : Issue) (w : YWord) (s : State), s.ready k → w.d = 0#5 → w.c.toNat < 4 →
    ∀ p ∈ ([(Instr.vst k w, 4, w.ty = 0#4), (Instr.vstn k w, narrowSize w, w.ty.toNat < 4)] : List (Instr × Nat × Prop)), p.2.2 → ∀ n off,
      s.checkTask k.core (s.ctxTask k.core k.ctx) w.c.toNat (s.sget k w.a + w.simm).toNat (128 * p.2.1) (128 * p.2.1) true = .ok n off →
      off % p.2.1 = 0 → s.slotFree k n off → (∀ b, b < 32 → s.bankInit n b = true) →
      ∃ t, exec p.1 s = .next t ∧ KeepRegs s t ∧
        (∀ l i, l < 128 → i < p.2.1 → t.sliceByte n (off + p.2.1 * l + i) =
          if s.laneOn k w l then BitVec.ofNat 8 ((s.vget k w.b).lane l / 256 ^ i) else s.sliceByte n (off + p.2.1 * l + i)) ∧
        (∀ o, o < off ∨ off + 128 * p.2.1 ≤ o → t.sliceByte n o = s.sliceByte n o) ∧
        (∀ a, a < sliceAddr n off ∨ sliceAddr n off + 128 * p.2.1 ≤ a → t.memByte a = s.memByte a) ∧
        OnlyCore k { s with spad := t.spad, mem := t.mem, memErr := t.memErr } t

/-- A store to a ring slot by a current handle (R135, R196): the row's bytes in enabled lanes, all else as before. -/
def Claim.SlotStores : Prop :=
  ∀ (k : Issue) (w : YWord) (s : State), s.ready k → w.d = 0#5 → w.c = 0#5 → w.ty = 0#4 → w.imm.toNat < 256 →
    let h := (s.sget k w.a).toNat % 2 ^ 32
    s.ownsRing (s.ctxTask k.core k.ctx) (handleRing h) = true → s.handleCurrent h = true → w.imm.toNat < s.ringRows (handleRing h) →
    ∀ n off, slotCheck s k (handleRing h) (handleSlot h) w.imm.toNat true = .ok n off → off % 4 = 0 → s.slotFree k n off →
      (∀ b, b < 32 → s.bankInit n b = true) →
      ∃ t, exec (.vsth k w) s = .next t ∧ KeepRegs s t ∧
        (∀ l i, l < 128 → i < 4 → t.sliceByte n (off + 4 * l + i) =
          if s.laneOn k w l then BitVec.ofNat 8 ((s.vget k w.b).lane l / 256 ^ i) else s.sliceByte n (off + 4 * l + i)) ∧
        (∀ o, o < off ∨ off + 512 ≤ o → t.sliceByte n o = s.sliceByte n o) ∧
        (∀ a, a < sliceAddr n off ∨ sliceAddr n off + 512 ≤ a → t.memByte a = s.memByte a) ∧
        OnlyCore k { s with spad := t.spad, mem := t.mem, memErr := t.memErr } t

/-- Scatter (R195) in the own slice without marked words: where two lanes meet, the highest-numbered one prevails; every other byte
is as before. -/
def Claim.Scatters : Prop :=
  ∀ (k : Issue) (w : YWord) (s : State), s.ready k → w.imm = 0#24 → w.ty = 0#4 → w.c.toNat < 4 →
    let g := s.spadRegion (s.ctxTask k.core k.ctx) w.c.toNat
    let place := fun l => g.base + laneOffset s k w l
    g.slice = k.core → s.sliceFree k k.core → (∀ a, s.errAt a = 0) → (∀ b, b < 32 → s.bankInit k.core b = true) → firstBadLane s k w true (List.range 128) = none →
    ∃ t, exec (.vsct k w) s = .next t ∧ KeepRegs s t ∧
      (∀ l i, l < 128 → i < 4 → s.laneOn k w l = true → (∀ j, l < j → j < 128 → s.laneOn k w j = true → place j ≠ place l) →
        t.sliceByte k.core (place l + i) = BitVec.ofNat 8 ((s.vget k w.d).lane l / 256 ^ i)) ∧
      (∀ o, (∀ l, l < 128 → s.laneOn k w l = true → o < place l ∨ place l + 4 ≤ o) → t.sliceByte k.core o = s.sliceByte k.core o) ∧
      OnlyCore k { s with spad := t.spad, mem := t.mem, memErr := t.memErr } t

/-- Row and slot stores and scatter (R185, R193, R195, R196). -/
def Obligations.VectorStores : Prop :=
  Claim.RowStores ∧ Claim.SlotStores ∧ Claim.Scatters

/-- VQTOK (R198, R200): the scale entries in enabled lanes; a non-counting form has no other effect, a counting form adds its special
entries to the record: at once in the batch context, by its commit list in the line context. -/
def Claim.TokenScales : Prop :=
  ∀ (k : Issue) (w : YWord) (s : State), s.ready k → w.ty.toNat ∈ [0x0, 0x6, 0x7, 0x8] → ∀ region n off alpha, region < 4 → recordCheck s k w = .ok n off →
    s.slotFree k n off → (s.readSlice n off 2).2.2 = false → positiveScale? (leNat (s.readSlice n off 2).2.1) = some alpha →
    ExactQ.lt ⟨1, 1⟩ alpha = false →
    let entry := fun l => tokenEntry w.elem alpha (decodeFloat fmtFP32 ((s.vget k w.a).lane l)) (decodeFloat fmtFP32 ((s.vget k w.b).lane l))
    let specials := countLanes s k w (fun l => (entry l).special)
    let result := fun (t : State) => ((s.withSlots t).readSlice n off 2).1.vputLanes k w (fun l => (entry l).toWord)
    (w.imm.toNat = 256 + region * 16 ∨ (w.imm.toNat = region * 16 ∧ specials = 0) → ∃ t, exec (.vqtok k w) s = .next t ∧
      WritesV k w (fun l => (entry l).toWord) ((s.withSlots t).readSlice n off 2).1 t) ∧
    (w.imm.toNat = region * 16 → specials ≠ 0 → k.ctx = .batch → ∃ t, exec (.vqtok k w) s = .next t ∧
      KeepRegs (result t) t ∧ OnlyCore k ((result t).addCounts (sliceAddr n off) 0 0 specials) t) ∧
    (w.imm.toNat = region * 16 → specials ≠ 0 → k.ctx = .line → (s.vcore k.core).commit.length < 32 →
      (∀ x y z, CommitEntry.count (sliceAddr n off) x y z ∉ (s.vcore k.core).commit) → ∃ t, exec (.vqtok k w) s = .next t ∧
      KeepRegs (result t) t ∧ OnlyCore k ((result t).setVcore k.core
        { s.vcore k.core with commit := (s.vcore k.core).commit ++ [.count (sliceAddr n off) 0 0 specials] }) t)

/-- VQNT (R199, R200): the code of each enabled lane in its part of the destination; the lanes and those that saturated are added to the record of
a counting form, at once in the batch context, by its commit list in the line context. -/
def Claim.TokenCodes : Prop :=
  ∀ (k : Issue) (w : YWord) (s : State), s.ready k → w.ty.toNat ∈ [0x0, 0x6, 0x7, 0x8] → badEntryLane s k w w.b = none →
    ∀ part, part < min 8 w.elem.perLane →
    let q := fun l => quantLane w.elem (ScaleEntry.ofWord ((s.vget k w.b).lane l)) ((s.vget k w.a).lane l)
    let lanes := fun l => putPart ((s.vget k w.d).lane l) w.elem.bits part (q l).1
    (w.imm.toNat = 256 + part → w.c = 0#5 → ∃ t, exec (.vqnt k w) s = .next t ∧ WritesV k w lanes s t) ∧
    (∀ region n off, region < 4 → w.imm.toNat = region * 16 + part → recordCheck s k w = .ok n off →
      let all := countLanes s k w (fun _ => true)
      let sats := countLanes s k w (fun l => (q l).2)
      (k.ctx = .batch → ∃ t, exec (.vqnt k w) s = .next t ∧ KeepRegs (s.vputLanes k w lanes) t ∧
        OnlyCore k ((s.vputLanes k w lanes).addCounts (sliceAddr n off) all sats 0) t) ∧
      (k.ctx = .line → (s.vcore k.core).commit.length < 32 → (∀ x y z, CommitEntry.count (sliceAddr n off) x y z ∉ (s.vcore k.core).commit) →
        ∃ t, exec (.vqnt k w) s = .next t ∧ KeepRegs (s.vputLanes k w lanes) t ∧ OnlyCore k ((s.vputLanes k w lanes).setVcore k.core
          { s.vcore k.core with commit := (s.vcore k.core).commit ++ [.count (sliceAddr n off) all sats 0] }) t))

/-- Conversion, dequantisation and block scales (R197, R201, R202): the destination lanes, or the pair of block scales, and no other effect. -/
def Claim.Conversions : Prop :=
  ∀ (k : Issue) (w : YWord) (s : State), s.ready k →
    (∀ src, w.b = 0#5 → ElemType.ofCode w.c.toNat = some src → w.ty.toNat < 13 → src ≠ w.elem → w.imm.toNat < min 8 (cvtParts src w.elem) →
      ∃ t, exec (.vcvt k w) s = .next t ∧
        WritesV k w (fun l => cvtLane src w.elem w.imm.toNat ((s.vget k w.a).lane l) ((s.vget k w.d).lane l)) s t) ∧
    (w.ty.toNat ∈ [0x0, 0x6, 0x7, 0x8] → badEntryLane s k w w.b = none → w.c = 0#5 → w.imm.toNat < min 8 w.elem.perLane →
      ∃ t, exec (.vdq k w) s = .next t ∧ WritesV k w (fun l =>
        dequantLane w.elem (ScaleEntry.ofWord ((s.vget k w.b).lane l)) (lanePart ((s.vget k w.a).lane l) w.elem.bits w.imm.toNat)) s t) ∧
    (w.c = 0#5 → w.ty.toNat < 2 →
      (w.b = 0#5 → w.imm = 0#24 → ∃ t, exec (.vbscl k w) s = .next t ∧
        WritesS k w.d (BitVec.ofNat 64 (blockScale w.elem (blockVals s k w 0) + blockScale w.elem (blockVals s k w 64) * 65536)) s t) ∧
      (w.imm.toNat < 4 → ∃ t, exec (.vdqblk k w) s = .next t ∧
        WritesV k w (fun l => blockDequant w.elem (blockScaleOf (s.sget k w.b) l) (lanePart ((s.vget k w.a).lane l) 8 w.imm.toNat)) s t) ∧
      (w.imm.toNat < 4 → ∃ t, exec (.vqblk k w) s = .next t ∧
        WritesV k w (fun l => putPart ((s.vget k w.d).lane l) 8 w.imm.toNat
            (blockQuant w.elem (blockScaleOf (s.sget k w.b) l) ((s.vget k w.a).lane l) (Config.freeValue s.freeIdx l))) s.drawFree t))

/-- Conversions and quantisation (R197 to R202).
The model's own choices and readings in it: log entries 22, 214, 215. -/
def Obligations.ConversionResults : Prop :=
  Claim.TokenScales ∧ Claim.TokenCodes ∧ Claim.Conversions

/-- The Hadamard mix (R203) in the own slice, from banks that hold no marked word: each output row of enabled lanes, every other
byte as before. -/
def Obligations.HadamardMix : Prop :=
  ∀ (k : Issue) (w : YWord) (s : State), s.ready k → w.d = 0#5 → w.ty.toNat = 0xB → w.c.toNat < 4 → w.imm.toNat < 4 →
    s.sliceFree k k.core → (∀ b, b < 32 → s.bankInit k.core b = true) → (∀ a, s.errAt a = 0) →
    ∀ p ∈ ([(.vhad64, 64, 8), (.vhad256, 256, 16)] : List ((Issue → YWord → Instr) × Nat × Nat)), ∀ so d,
      s.checkTask k.core (s.ctxTask k.core k.ctx) w.c.toNat (s.sget k w.a).toNat (512 * p.2.1) 512 false = .ok k.core so →
      s.checkTask k.core (s.ctxTask k.core k.ctx) w.imm.toNat (s.sget k w.b).toNat (512 * p.2.1) 512 true = .ok k.core d →
      ∃ t, exec (p.1 k w) s = .next t ∧ KeepRegs s t ∧
        (∀ i l, i < p.2.1 → l < 128 → s.laneOn k w l = true →
          t.sliceNat k.core (d + 512 * i + 4 * l) 4 = hadamardOut p.2.2 i (laneColumn s k.core so p.2.1 l) % 2 ^ 32) ∧
        (∀ o, o < d ∨ d + 512 * p.2.1 ≤ o → t.sliceByte k.core o = s.sliceByte k.core o) ∧
        OnlyCore k { s with spad := t.spad, mem := t.mem, memErr := t.memErr } t

/-! ### Grid, mover, ring, queue and tally instructions -/

/-- The grid and mover instructions of the batch context (R204, R205): GCMD places the pass its descriptor names, or in a tiled task the tiler's
next pass, if it has one; GWAIT goes on once the unit holds no pass of the core, MVQ queues a descriptor at the core's mover, CHAIN starts a chain, MVWAIT returns the code of the
failure issued first.
The model's own choices and readings in it: log entries 13, 25, 41, 43, 49. -/
def Obligations.GridAndMoverInstructions : Prop :=
  ∀ (k : Issue) (w : YWord) (s : State), s.ready k → s.enabled k w = true → k.ctx = .batch → w.ty = 0#4 →
    let task := (s.vcore k.core).batchTask
    let o := (s.sget k w.a + w.simm).toNat
    (w.d = 0#5 → w.b.toNat ≤ 4 → w.c.toNat < 4 → s.tiler? task = none → ∀ n off, s.checkTask k.core task w.c.toNat o 64 64 false = .ok n off →
      (s.gridUnit w.b.toNat).load < 2 → ∀ s1 ws, s.readDescriptor n off = (s1, ws, false) →
      s1.gridRefusal w.b.toNat ws (slAddr (dword ws 1)) (slAddr (dword ws 10)) (.core k.core) task = 0 →
      let pass : GridPass := { unit := w.b.toNat, words := ws, issuer := .core k.core, task := task,
                               descAddr := sliceAddr n off, act := slAddr (dword ws 1), drain := slAddr (dword ws 10) }
      ∃ t, exec (.gcmd k w) s = .next t ∧ KeepRegs s t ∧ OnlyCore k (s1.placePass pass (!s1.lineGrid)) t) ∧
    (w.d = 0#5 → w.b.toNat ≤ 4 → w.c.toNat < 4 → ∀ x, s.tiler? task = some x →
      (s.tilerWork task x = none → ∃ t, exec (.gcmd k w) s = .next t ∧ KeepRegs s t ∧ OnlyCore k s t) ∧
      (∀ wk comb steps st s1, s.tilerWork task x = some (wk, comb, steps) → steps[x.step]? = some st → (x.step = 0 ∨ x.unit = w.b.toNat) →
        (s.gridUnit w.b.toNat).load < 2 → s.issueTile k.core w.b.toNat task x wk comb steps st = .done s1 →
        ∃ t, exec (.gcmd k w) s = .next t ∧ KeepRegs s1 t ∧ OnlyCore k s1 t)) ∧
    (w.d = 0#5 → w.a = 0#5 → w.c = 0#5 → w.imm = 0#24 → w.b.toNat ≤ 4 → s.corePasses k.core w.b.toNat = false →
      ((s.yctx k.core .batch).dataErr = false → ∃ t, exec (.gwait k w) s = .next t ∧ KeepRegs s t ∧ OnlyCore k s t) ∧
      ((s.yctx k.core .batch).dataErr = true → exec (.gwait k w) s = .next
        ((s.setYctx k.core .batch { s.yctx k.core .batch with dataErr := false }).takeFault k.core .batch 3 (s.yctx k.core .batch).dataAt))) ∧
    (w.d = 0#5 → w.b = 0#5 → w.c.toNat < 4 → s.moverFull k.core = false → ∀ n off,
      s.checkTask k.core task w.c.toNat o 64 64 false = .ok n off → ∀ s1 bs, s.readSlice n off 64 = (s1, bs, false) →
      s1.reserveWaits task (wordsOf 16 bs) = false →
      ∃ t, exec (.mvq k w) s = .next t ∧ KeepRegs s t ∧ OnlyCore k ((s1.takeSeq k.core).2.queueDesc k.core
        { words := wordsOf 16 bs, issuer := .core k.core, task := task, seq := (s1.takeSeq k.core).1 }) t) ∧
    (w.d = 0#5 → w.b = 0#5 → w.c.toNat < 4 → ∀ n off s1 hdr n2 off2 s2 bs,
      s.checkTask k.core task w.c.toNat o 16 1 false = .ok n off → s.readSlice n off 16 = (s1, hdr, false) →
      s1.checkTask k.core task w.c.toNat o (16 + 16 * min (dbits (wordsOf 4 hdr) 0 3 0) 8) 1 false = .ok n2 off2 →
      s1.readSlice n2 off2 (16 + 16 * min (dbits (wordsOf 4 hdr) 0 3 0) 8) = (s2, bs, false) →
      ∃ t, exec (.chain k w) s = .next t ∧ KeepRegs s t ∧ OnlyCore k ((s2.takeSeq k.core).2.startChain (some k.core) task (s2.takeSeq k.core).1
        (wordsOf 4 hdr) (stageWords (min (dbits (wordsOf 4 hdr) 0 3 0) 8) (bs.drop 16))) t) ∧
    (w.a = 0#5 → w.b = 0#5 → w.c = 0#5 → w.imm = 0#24 → s.coreMoves k.core = false → ∃ t code, exec (.mvwait k w) s = .next t ∧
      WritesS k w.d (BitVec.ofNat 64 code) s t ∧ (t.yctx k.core .batch).mvFails = [] ∧
      ((s.yctx k.core .batch).mvFails = [] → code = 0) ∧
      ((s.yctx k.core .batch).mvFails ≠ [] → ∃ q, (q, code) ∈ (s.yctx k.core .batch).mvFails ∧
        ∀ e ∈ (s.yctx k.core .batch).mvFails, q ≤ e.1))

/-- The ring instructions (R206) on a ring that the context's task owns; one it does not own is the queue fault. -/
def Claim.RingInstructions : Prop :=
  ∀ (k : Issue) (w : YWord) (s : State), s.ready k → s.enabled k w = true → w.b = 0#5 → w.c = 0#5 → w.ty = 0#4 →
    let r := w.imm.toNat
    let owned := s.ownsRing (s.ctxTask k.core k.ctx) r = true
    (w.a = 0#5 → r < 256 → owned →
      (∀ h s1, s.reserve r = some (h, s1) → ∃ t, exec (.rres k w) s = .next t ∧ WritesS k w.d (BitVec.ofNat 64 h) s1 t) ∧
      (∃ t, exec (.rhead k w) s = .next t ∧ WritesS k w.d (BitVec.ofNat 64 (s.makeHandle r (s.ringHead r))) s t) ∧
      (1 ≤ w.d.toNat → w.d.toNat < 8 → ∃ t, exec (.rchk k w) s = .next t ∧
        WritesP k w.d.toNat (if s.headReady r then BitVec.allOnes 128 else 0#128) s t) ∧
      (w.d = 0#5 → s.ringUsed r ≠ 0 → s.headReady r = true → ∃ t, exec (.rrel k w) s = .next t ∧ OnlyCore k (s.release r) t ∧ KeepRegs s t) ∧
      (w.d = 0#5 → (s.ringUsed r = 0 ∨ s.headReady r = false) → exec (.rrel k w) s = .next (s.takeFault k.core k.ctx 5 r)) ∧
      (w.d = 0#5 → ∃ t, exec (.rvoid k w) s = .next t ∧ OnlyCore k (s.release r) t ∧ KeepRegs s t)) ∧
    (w.a = 0#5 → w.d = 0#5 → r < 256 → s.ownsRing (s.ctxTask k.core k.ctx) r = false →
      exec (.rres k w) s = .next (s.takeFault k.core k.ctx 5 r) ∧ exec (.rhead k w) s = .next (s.takeFault k.core k.ctx 5 r) ∧
      exec (.rrel k w) s = .next (s.takeFault k.core k.ctx 5 r) ∧ exec (.rvoid k w) s = .next (s.takeFault k.core k.ctx 5 r)) ∧
    (w.d = 0#5 → w.imm = 0#24 →
      let h := (s.sget k w.a).toNat % 2 ^ 32
      s.ownsRing (s.ctxTask k.core k.ctx) (handleRing h) = true → handleSlice h = s.ringSlice (handleRing h) →
      (k.ctx = .batch → ∃ t, exec (.rset k w) s = .next t ∧ OnlyCore k (s.setReady h) t ∧ KeepRegs s t) ∧
      (k.ctx = .line → (s.vcore k.core).commit.length < 32 → ∃ t, exec (.rset k w) s = .next t ∧ KeepRegs s t ∧ t.rings = s.rings ∧
        (t.vcore k.core).commit = (s.vcore k.core).commit ++ [.setReady h]))

/-- Handle queues are FIFOs of 64 handles, and the tally counters fetch and add modulo 2^32; in a tiled task the fetch of WORK_TALLY takes the
item of that number (R137, R139, R206, R243).
The model's own choices and readings in it: log entries 13, 49, 111. -/
def Obligations.QueueInstructions : Prop :=
  ∀ (k : Issue) (w : YWord) (s : State), s.ready k → s.enabled k w = true → w.b = 0#5 → w.c = 0#5 → w.ty = 0#4 →
    let q := w.imm.toNat
    let h := (s.sget k w.a).toNat % 2 ^ 32
    let others := fun (t : State) => ∀ p, p ≠ q → t.hqOf p = s.hqOf p
    (q < 256 → s.ownsQueue (s.ctxTask k.core k.ctx) q = true →
      (w.d = 0#5 → k.ctx = .batch → (s.hqOf q).length < 64 → ∃ t, exec (.hpush k w) s = .next t ∧ KeepRegs s t ∧
        t.hqOf q = s.hqOf q ++ [h] ∧ others t) ∧
      (w.d = 0#5 → k.ctx = .batch → 64 ≤ (s.hqOf q).length → ∃ t, exec (.hpush k w) s = .next t ∧ t.rings = s.rings ∧
        (t.yctx k.core k.ctx).wait = some .resource) ∧
      (w.d = 0#5 → k.ctx = .line → (s.vcore k.core).commit.length < 32 → ∃ t, exec (.hpush k w) s = .next t ∧ KeepRegs s t ∧
        t.rings = s.rings ∧ (t.vcore k.core).commit = (s.vcore k.core).commit ++ [.push h q]) ∧
      (w.a = 0#5 → k.ctx = .batch → ∀ x r, s.hqOf q = x :: r → ∃ t, exec (.hpop k w) s = .next t ∧
        t.sget k w.d = (if w.d = 0#5 then 0#64 else BitVec.ofNat 64 x) ∧ KeepS k w.d s t ∧ t.hqOf q = r ∧ others t) ∧
      (w.a = 0#5 → ∀ x r, s.hqOf q = x :: r → ∃ t, exec (.hpopt k w) s = .next t ∧
        t.sget k w.d = (if w.d = 0#5 then 0#64 else BitVec.ofNat 64 x) ∧ KeepS k w.d s t ∧ t.hqOf q = r ∧ others t) ∧
      (w.a = 0#5 → s.hqOf q = [] → ∃ t, exec (.hpopt k w) s = .next t ∧ WritesS k w.d (BitVec.allOnes 64) s t) ∧
      (w.a = 0#5 → ∃ t, exec (.hcnt k w) s = .next t ∧ WritesS k w.d (BitVec.ofNat 64 (s.hqOf q).length) s t)) ∧
    (q < 64 → k.ctx = .batch → (∀ x, s.tiler? (s.vcore k.core).batchTask = some x → q ≠ bitsOf (tWord x.desc 0x70) 5 0) → ∃ t, exec (.tadd k w) s = .next t ∧
      t.sget k w.d = (if w.d = 0#5 then 0#64 else BitVec.ofNat 64 (s.getF (F.QUE_TALLY_i_VALUE q))) ∧ KeepS k w.d s t ∧
      t.getF (F.QUE_TALLY_i_VALUE q) = (s.getF (F.QUE_TALLY_i_VALUE q) + (s.sget k w.a).toNat) % 2 ^ 32 ∧
      (∀ o, o ≠ (F.QUE_TALLY_i_VALUE q).off → t.reg o = s.reg o) ∧ t.mem = s.mem) ∧
    (q < 64 → k.ctx = .batch → let task := (s.vcore k.core).batchTask
      ∀ x, s.tiler? task = some x → q = bitsOf (tWord x.desc 0x70) 5 0 → x.item = none → s.progressOk task = true → ∃ t y, exec (.tadd k w) s = .next t ∧
        t.sget k w.d = (if w.d = 0#5 then 0#64 else BitVec.ofNat 64 (s.getF (F.QUE_TALLY_i_VALUE q))) ∧ KeepS k w.d s t ∧
        t.getF (F.QUE_TALLY_i_VALUE q) = (s.getF (F.QUE_TALLY_i_VALUE q) + (s.sget k w.a).toNat) % 2 ^ 32 ∧
        t.tiler? task = some y ∧ y.step = 0 ∧ y.item = if s.getF (F.QUE_TALLY_i_VALUE q) < (s.tilePlan task x.desc).itemCount x.desc then
          some (s.getF (F.QUE_TALLY_i_VALUE q)) else none)

/-- The rings of R135: a reservation takes the tail slot and leaves it not ready, a release frees the head slot and advances its
generation; both keep the slots of every other ring. -/
def Claim.RingReserveRelease : Prop :=
  ∀ (s : State) (r : Nat), r < 256 →
    (∀ h t, s.reserve r = some (h, t) → s.ringUsed r < s.ringSlots r ∧ h = s.makeHandle r (s.ringTail r) ∧
      t.ringTail r = (s.ringTail r + 1) % s.ringSlots r ∧ t.ringUsed r = s.ringUsed r + 1 ∧ t.ringHead r = s.ringHead r ∧
      t.slotReady r (s.ringTail r) = false ∧ (∀ j i, i < 64 → j ≠ r ∨ i ≠ s.ringTail r → t.slotReady j i = s.slotReady j i) ∧
      t.rings.gen = s.rings.gen ∧ t.mem = s.mem) ∧
    (s.reserve r = none ↔ s.ringSlots r ≤ s.ringUsed r) ∧
    (s.ringUsed r ≠ 0 → (s.release r).ringHead r = (s.ringHead r + 1) % s.ringSlots r ∧ (s.release r).ringUsed r = s.ringUsed r - 1 ∧
      (s.release r).ringTail r = s.ringTail r ∧ (s.release r).slotReady r (s.ringHead r) = false ∧
      (s.release r).slotGen r (s.ringHead r) = (s.slotGen r (s.ringHead r) + 1) % 16384 ∧
      (∀ j i, i < 64 → j ≠ r ∨ i ≠ s.ringHead r → (s.release r).slotReady j i = s.slotReady j i ∧ (s.release r).slotGen j i = s.slotGen j i)) ∧
    (s.ringUsed r = 0 → s.release r = s)

/-- Ring instructions, and what a reservation and a release do (R135, R206).
The model's own choices and readings in it: log entry 13. -/
def Obligations.Rings : Prop :=
  Claim.RingInstructions ∧ Claim.RingReserveRelease

/-! ### The issue of an instruction and its faults -/

/-- A disabled scalar, control or timing instruction whose word is well formed issues in one cycle and has no other effect (R166), whatever the
fields that it uses hold: shown on the families whose enable is bit 0. -/
def Claim.DisabledInstructions : Prop :=
  ∀ (k : Issue) (w : YWord) (s : State), s.ready k → s.enabled k w = false →
    ∀ p ∈ [(Instr.add k w, w.uses true true true false false), (.divS k w, w.uses true true true false false),
        (.addi k w, w.uses true true false false true), (.li k w, w.uses true false false false true), (.rdsr k w, w.uses true false false false true),
        (.ld k w, w.uses true true false true true), (.sd k w, w.uses false true true true true), (.pcmp k w, w.uses true true true true false),
        (.br k w, w.uses false true true true true), (.jal k w, w.uses true false false false true), (.halt k w, w.uses false false false false false),
        (.trap k w, w.uses false false false false true), (.waitc k w, w.uses false false false false true),
        (.waitrdy k w, w.uses true false false false true), (.tstamp k w, w.uses true false false false false),
        (.vext k w, w.uses true true true false false), (.vins k w, w.uses true true true false false), (.rres k w, w.uses true false false false true),
        (.rrel k w, w.uses false false false false true), (.hpopt k w, w.uses true false false false true)],
      p.2 → ∃ t, exec p.1 s = .next t ∧ KeepRegs s t ∧ OnlyCore k s t ∧ (t.yctx k.core k.ctx).wait = none ∧
        ((s.yctx k.core k.ctx).loop0.count = 0 → (s.yctx k.core k.ctx).loop1.count = 0 →
          (t.yctx k.core k.ctx).pc = (s.yctx k.core k.ctx).pc + 1)

/-- A word with a non-zero unused field, or a type that its instruction does not accept, is the illegal-instruction fault, disabled or not; an
instruction of the batch context alone is one in the line context (R160, R164).
The first is the model's reading: log entry 11. -/
def Claim.IllegalWords : Prop :=
  ∀ (k : Issue) (w : YWord) (s : State), s.ready k →
    (w.c ≠ 0#5 ∨ w.imm ≠ 0#24 ∨ w.ty ≠ 0#4 → ∀ i ∈ [Instr.add k w, .sub k w, .mul k w, .divS k w, .remu k w],
      exec i s = .next (s.takeFault k.core k.ctx 1 0)) ∧
    (w.b ≠ 0#5 ∨ w.c ≠ 0#5 ∨ w.ty ≠ 0#4 → ∀ i ∈ [Instr.addi k w, .xori k w, .lim k w], exec i s = .next (s.takeFault k.core k.ctx 1 0)) ∧
    (w.c ≠ 0#5 ∨ w.imm ≠ 0#24 ∨ w.ty.toNat ∉ [2, 3, 4, 5] → ∀ sc, ∀ i ∈ [Instr.vadd k w sc, .vmulh k w sc, .vsatsub k w sc],
      exec i s = .next (s.takeFault k.core k.ctx 1 0)) ∧
    (k.ctx = .line → s.enabled k w = true → ∀ i ∈ [Instr.waitturn k w, .gcmd k w, .gwait k w, .mvq k w, .chain k w, .mvwait k w, .hpop k w, .tadd k w],
      exec i s = .next (s.takeFault k.core k.ctx 1 0))

/-- A word of memory at the program counter that no table of R165 defines is the illegal-instruction fault, whatever instruction the command names
(R164, R165, log entry 220). -/
def Claim.UndefinedOpcodes : Prop :=
  ∀ (k : Issue) (w : YWord) (s : State), s.issues k = true → k.fetch = .clean → k.upsets = [] → s.pcInRange k = true → s.opDefined k = false →
    ∀ i ∈ [Instr.add k w, .lw k w, .sw k w, .br k w, .halt k w, .nop k w, .vadd k w false, .vld k w, .gcmd k w, .rres k w],
      exec i s = .next (s.takeFault k.core k.ctx 1 0)

/-- A fetch outside the context's range, or of an uncorrectable word, is the fetch fault (R156), for every instruction of a core; the
uncorrectable word is recorded. -/
def Claim.FetchFaults : Prop :=
  ∀ (k : Issue) (w : YWord) (s : State), s.issues k = true → k.upsets = [] →
    ∀ i ∈ [Instr.add k w, .lw k w, .sw k w, .br k w, .halt k w, .nop k w, .vadd k w false, .vld k w, .gcmd k w, .rres k w],
      (k.fetch = .clean → s.pcInRange k = false → exec i s = .next (s.takeFault k.core k.ctx 7 0)) ∧
      (k.fetch = .uncorrectable → exec i s = .next ((s.record 0x04 4 k.core).takeFault k.core k.ctx 7 0))

/-- A context that does not issue does nothing (R157, R181, R182, R421). -/
def Claim.NoIssueNoEffect : Prop :=
  ∀ (k : Issue) (w : YWord) (s : State), s.issues k = false →
    ∀ i ∈ [Instr.add k w, .ld k w, .sd k w, .jal k w, .halt k w, .fence k w, .vadd k w true, .vst k w, .gcmd k w, .mvq k w, .rrel k w, .tadd k w],
      exec i s = .next s

/-- A fault of the line context (R180, R181): the first is latched, the kernel and its commit list are gone, no launch follows in the
round, both loop levels end, registers and the other context are kept. -/
def Claim.LineFaults : Prop :=
  ∀ (n code info : Nat) (s : State), n < 16 → code < 16 →
    let t := s.takeFault n .line code info
    (t.vcore n).lineRun = false ∧ (t.vcore n).lineStop = true ∧ (t.vcore n).commit = [] ∧
    (t.yctx n .line).loop0.count = 0 ∧ (t.yctx n .line).loop1.count = 0 ∧ (t.yctx n .line).wait = none ∧
    (t.yctx n .line).pc = (s.yctx n .line).pc ∧ t.yctx n .batch = s.yctx n .batch ∧ KeepRegs s t ∧ t.mem = s.mem ∧
    (s.scorepad.waiting.length < 62 → s.scorepad.waiting ++ [⟨0x700 + code, n⟩] <+: t.scorepad.waiting)

/-- What VC_n_FAULT and VC_n_FAULT_INFO hold after a fault: the first fault since they were clear (R180). -/
def Claim.FaultLatch : Prop :=
  ∀ (n code info : Nat) (s : State), n < 16 → code < 16 → (s.yctx n .batch).pc < 16384 → (s.vcore n).batchTask = 0 →
    let t := s.takeFault n .batch code info
    (s.flag (F.VC_n_FAULT_VALID n) = false → t.getF (F.VC_n_FAULT_VALID n) = 1 ∧ t.getF (F.VC_n_FAULT_CTX n) = 1 ∧
      t.getF (F.VC_n_FAULT_CODE n) = code ∧ t.getF (F.VC_n_FAULT_PC n) = (s.yctx n .batch).pc ∧
      t.reg (R.VC_n_FAULT_INFO n) = BitVec.ofNat 32 info) ∧
    (s.flag (F.VC_n_FAULT_VALID n) = true → t.reg (R.VC_n_FAULT n) = s.reg (R.VC_n_FAULT n) ∧
      t.reg (R.VC_n_FAULT_INFO n) = s.reg (R.VC_n_FAULT_INFO n)) ∧
    (t.vcore n).batchRun = false ∧ (t.vcore n).batchFault = true ∧ t.yctx n .line = s.yctx n .line ∧ KeepRegs s t ∧ t.mem = s.mem

/-- Faults of the line and of the batch context (R180 to R182). -/
def Obligations.CoreFaults : Prop :=
  Claim.LineFaults ∧ Claim.FaultLatch

/-- An instruction of the batch context counts one issue in its task's slot (R232), and the next issue is at least its distance later. -/
def Claim.IssueBookkeeping : Prop :=
  ∀ (k : Issue) (w : YWord) (s : State), s.ready k → s.enabled k w = true → w.plainRegs →
    (k.ctx = .batch → ∃ t, exec (.add k w) s = .next t ∧
      t.slotField (s.vcore k.core).batchTask 0xA0 8 = (s.slotField (s.vcore k.core).batchTask 0xA0 8 + 1) % 2 ^ 64) ∧
    (∃ t cyc, exec (.mul k w) s = .next t ∧ (s.yctx k.core k.ctx).nextIssue ≤ cyc ∧ (t.yctx k.core k.ctx).nextIssue = cyc + 1 ∧
      (w.d ≠ 0#5 → (t.yctx k.core k.ctx).ready w.d.toNat = cyc + 3)) ∧
    (∃ t cyc, exec (.divS k w) s = .next t ∧ s.divFree k.core ≤ cyc ∧ (t.yctx k.core k.ctx).divFree = cyc + 36 ∧
      (w.d ≠ 0#5 → (t.yctx k.core k.ctx).ready w.d.toNat = cyc + 36))

/-- What decides whether an instruction issues, is disabled, is illegal or faults at its fetch (R156, R164, R166), and the bookkeeping of its issue.
The model's own choices and readings in it: log entries 11, 12, 220. -/
def Obligations.IssueChecks : Prop :=
  Claim.DisabledInstructions ∧ Claim.IllegalWords ∧ Claim.UndefinedOpcodes ∧ Claim.FetchFaults ∧ Claim.NoIssueNoEffect ∧ Claim.IssueBookkeeping

/-! ### The turn sequencer -/

/-- The next move of a turn (R157, R158, R212, R213, R214, R218, R224): the effect of its action and the frame of the state it acts on. A release
ahead of a reservation of its cycle has taken effect before (log entry 219). -/
def Claim.SequencerMoves : Prop :=
  ∀ (i w : Nat) (r : List (Nat × Nat)) (s : State), s.movesLeft = (i, w) :: r → s.sequencing = true →
    let s0 : State := { s with seq := { s.seq with issuedThisTurn := s.seq.issuedThisTurn + 1 } }
    (mvAction w = 1 → let n := mvUnit w
      s.unitUsable n = true → (s.vcore n).lineRun = false → (s.vcore n).lineStop = false →
      ∃ t, exec (.launchMove i) s = .next t ∧ t = { s0 with yu := t.yu } ∧ (t.vcore n).lineRun = true ∧ (t.vcore n).commit = [] ∧
        (t.yctx n .line).pc = bitsOf w 83 70 ∧ (t.yctx n .line).wait = none ∧ (t.yctx n .line).nextIssue = mvCycle w + 2 ∧
        t.sget ⟨n, .line, .clean, []⟩ 30#5 = BitVec.ofNat 64 (bitsOf w 31 0) ∧ KeepS ⟨n, .line, .clean, []⟩ 30#5 s t ∧
        t.yu.vreg = s.yu.vreg ∧ t.yu.preg = s.yu.preg ∧ ∀ m, m ≠ n → t.vcore m = s.vcore m) ∧
    (mvAction w = 1 → (s.vcore (mvUnit w)).lineRun = true → exec (.launchMove i) s = .next (s0.takeFault (mvUnit w) .line 9 0)) ∧
    (mvAction w = 2 → w.testBit 63 = true → s.releasedAhead i = none → s.headReady (bitsOf w 55 48) = false → w.testBit 47 = false →
      ∃ t, exec (.passMove i) s = .next t ∧ t.grid = s.grid ∧ t.mem = s.mem ∧ t.flag F.TT_HOLD_VALID = true) ∧
    (mvAction w = 2 → w.testBit 63 = false → w.testBit 47 = false →
      ∀ s1 ws, s0.readDescriptor (bitsOf w 83 80) (s0.pairOffset (bitsOf w 83 80) (bitsOf w 79 64) * 64) = (s1, ws, false) →
      s1.gridRefusal (s0.passUnit (mvUnit w)) ws (slAddr (dword ws 1)) (slAddr (dword ws 10)) .moveList 0 = 0 →
      let pass : GridPass := { unit := s0.passUnit (mvUnit w), words := ws, issuer := .moveList, task := 0,
                               descAddr := sliceAddr (bitsOf w 83 80) (s0.pairOffset (bitsOf w 83 80) (bitsOf w 79 64) * 64),
                               act := slAddr (dword ws 1), drain := slAddr (dword ws 10), out := none }
      ∃ t, exec (.passMove i) s = .next t ∧ t = s1.placePass pass true) ∧
    (mvAction w = 2 → w.testBit 63 = true → w.testBit 62 = false → w.testBit 47 = false → s.releasedAhead i = none → s.headReady (bitsOf w 55 48) = true →
      ∀ s1 ws, s0.readDescriptor (bitsOf w 83 80) (s0.pairOffset (bitsOf w 83 80) (bitsOf w 79 64) * 64) = (s1, ws, false) →
      let act := (s.ringSlice (bitsOf w 55 48), s.slotOffset (bitsOf w 55 48) (s.ringHead (bitsOf w 55 48)) + (slAddr (dword ws 1)).2)
      s1.gridRefusal (s0.passUnit (mvUnit w)) ws act (slAddr (dword ws 10)) .moveList 0 = 0 →
      let pass : GridPass := { unit := s0.passUnit (mvUnit w), words := ws, issuer := .moveList, task := 0,
                               descAddr := sliceAddr (bitsOf w 83 80) (s0.pairOffset (bitsOf w 83 80) (bitsOf w 79 64) * 64),
                               act := act, drain := slAddr (dword ws 10), out := none }
      ∃ t, exec (.passMove i) s = .next t ∧ t = s1.placePass pass true) ∧
    (mvAction w = 3 → 0x18 ≤ mvUnit w → mvUnit w < 0x28 → w.testBit 63 = false →
      ∀ s1 ws, s0.readDescriptor (bitsOf w 83 80) (bitsOf w 79 64 * 64) = (s1, ws, false) → mSrcRing ws = false → mDstRing ws = false →
      ∃ t d, exec (.moveMove i) s = .next t ∧ (t.mover (mvUnit w - 0x18)).queue = (s1.mover (mvUnit w - 0x18)).queue ++ [d] ∧ d.words = ws ∧
        d.task = 0 ∧ d.issuer = .moveList ∧ t = { s1 with movers := t.movers } ∧
        ∀ m, m ≠ mvUnit w - 0x18 → t.mover m = s1.mover m) ∧
    (mvAction w = 4 → 0 < bitsOf w 23 0 → ∀ h s1, (s0.releasesFirst (mvCycle w) (bitsOf w 71 64)).reserve (bitsOf w 71 64) = some (h, s1) →
      ∃ t, exec (.haloMove i) s = .next t ∧ t = { s1 with rings := { s1.rings with halo := s1.rings.halo ++
        [⟨bitsOf w 71 64, handleSlot h, handleGen h, bitsOf w 83 82, bitsOf w 23 0, 0, !s1.portOpen (bitsOf w 83 82)⟩] } }) ∧
    (mvAction w = 5 → ∃ t, exec (.voidMove i) s = .next t ∧ t = if (s.releasedAhead i).isSome then s0 else s0.release (bitsOf w 71 64))

/-- At the end of a launch's span a kernel that still runs takes the overrun fault, and one that has halted does not (R216); the padding
fill of a slot armed for a lost port sets it ready while its reservation is current (R226). -/
def Claim.SpansAndPadding : Prop :=
  ∀ s : State,
    (∀ n, (s.vcore n).lineRun = true → exec (.spanCheck n) s = .next (s.takeFault n .line 9 0)) ∧
    (∀ n, (s.vcore n).lineRun = false → exec (.spanCheck n) s = .next s) ∧
    (∀ ring slot a, slot < 64 → s.rings.halo.find? (fun a => a.ring == ring && a.slot == slot && a.filling) = some a → s.slotGen ring slot = a.gen →
      ∃ t, exec (.paddingFillComplete ring slot) s = .next t ∧ t.slotReady ring slot = true ∧ a ∉ t.rings.halo ∧
        (∀ r i, i < 64 → r ≠ ring ∨ i ≠ slot → t.slotReady r i = s.slotReady r i) ∧ t.yu = s.yu ∧ t.grid = s.grid)

/-- Every move that selects a turn issues once, by CYCLE and then by unit (R214): a command for any other than the next one of the turn, or for one
with another action, does nothing, as does every move of a repeat round or before the start (R53, R212). -/
def Claim.MovesInOrder : Prop :=
  ∀ (i : Nat) (s : State), ∀ p ∈ ([(.launchMove, 1), (.passMove, 2), (.moveMove, 3), (.haloMove, 4), (.voidMove, 5)] : List ((Nat → Instr) × Nat)),
    (s.movesLeft = [] → exec (p.1 i) s = .next s) ∧
    (∀ j w r, s.movesLeft = (j, w) :: r → (j ≠ i ∨ mvAction w ≠ p.2 ∨ s.sequencing = false) → exec (p.1 i) s = .next s) ∧
    (∀ j w r, s.movesLeft = (j, w) :: r → ∀ m ∈ r, mvCycle w < mvCycle m.2 ∨ (mvCycle w = mvCycle m.2 ∧ mvUnit w ≤ mvUnit m.2))

/-- Moves, span checks and padding fills (R211 to R226).
The model's own choices and readings in it: log entries 44, 219. -/
def Obligations.Sequencer : Prop :=
  Claim.SequencerMoves ∧ Claim.MovesInOrder ∧ Claim.SpansAndPadding

/-! ### Grid, scratchpad, movers, memory and die link -/

/-- The scrub of the accumulator memory (R108): an idle bank that is not in the pass at the head of its unit goes on to its next row; no other
bank's place changes, and nothing happens while the scrub is off and nothing waits to be written back. -/
def Claim.AccumulatorScrub : Prop :=
  ∀ (s : State) (b : Nat), b < 512 → s.grid.accWriteBack = [] →
    (s.flag F.ACC_SCRUB_EN = true → s.bankInPass b = false → ∃ t, exec (.accScrubRead ⟨[b], []⟩) s = .next t ∧ t.mem = s.mem ∧
      t.scrubAt b = s.scrubAt b + 1 ∧ ∀ c, c ≠ b → t.scrubAt c = s.scrubAt c) ∧
    (s.flag F.ACC_SCRUB_EN = false ∨ s.bankInPass b = true → exec (.accScrubRead ⟨[b], []⟩) s = .next s)

/-- Passes of a unit (R93, R101, R104, R107): one that waits enters when the unit has a place and, while the move list issues, the gap holds it;
one that waited to keep a tile of another is refused; the oldest leaves at its end. -/
def Claim.UnitPasses : Prop :=
  ∀ s : State,
    (∀ u p r, (s.gridUnit u).waiting = p :: r → p.unit = u → (s.gridUnit u).passes.length < 2 → (s.lineGrid = false ∨ s.gapFits p = true) →
      let keeps := keepRefused p.words (ownerOf p.issuer p.task) ((s.gridUnit u).prevOwner, (s.gridUnit u).tile.map (fun t => t.shape))
      (keeps = false → ∃ t tile, exec (.gridPassAdmit u) s = .next t ∧ (t.gridUnit u).waiting = r ∧
        (t.gridUnit u).passes = (s.gridUnit u).passes ++ [{ p with tile := tile }] ∧ (t.gridUnit u).prevOwner = some (ownerOf p.issuer p.task) ∧
        (∀ v, v ≠ u → t.gridUnit v = s.gridUnit v) ∧ t.grid.acc = s.grid.acc ∧ t.mem = s.mem) ∧
      (keeps = true → ∃ t, exec (.gridPassAdmit u) s = .next t ∧ t = (s.setGridUnit u { s.gridUnit u with waiting := r }).refuseWaiting p)) ∧
    (∀ u p r, (s.gridUnit u).waiting = p :: r → (2 ≤ (s.gridUnit u).passes.length ∨ (s.lineGrid = true ∧ s.gapFits p = false)) →
      exec (.gridPassAdmit u) s = .next s) ∧
    (∀ u p r, (s.gridUnit u).passes = p :: r → s.pushWaits (p.pushes s) = false → ∃ t, exec (.gridPassComplete u [] []) s = .next t ∧
      (t.gridUnit u).passes = r ∧ (∀ v, v ≠ u → (t.gridUnit v).passes = (s.gridUnit v).passes) ∧ t.yu.sreg = s.yu.sreg)

/-- Passes of a grid unit and the accumulator scrub (R93, R101, R104, R107, R108).
The model's own choices and readings in it: log entries 2, 25, 30, 49, 208, 218. -/
def Obligations.GridEvents : Prop :=
  Claim.UnitPasses ∧ Claim.AccumulatorScrub

/-- A gather-buffer entry that is written to its bank leaves every port's view of every byte as it was (R114), where its entry is the
only one of its block, no word of it is uncorrectable and, for a line kernel's, no other core's access has met its slice. -/
def Claim.GatherEntryReachesBank : Prop :=
  ∀ (s : State) (slice block : Nat) (e : GatherEntry), slice < 16 → block < 65536 →
    s.spad.gather.find? (fun e => e.slice == slice && e.block == block) = some e →
    (∀ x ∈ s.spad.gather, x.slice = slice → x.block = block → x = e) → (∀ c ∈ e.bytes, c.1 < 64) → (e.bytes.map (fun c => c.1)).Nodup →
    (∀ i, i < 8 → s.errAt (firstWord (sliceAddr slice (block * 64)) + i) ≠ 2) →
    (e.line = true → ∀ a ∈ s.spad.slots, a.2.1 = e.core ∨ a.2.2.1 ≠ slice) →
    ∃ t, exec (.gatherEntryWrite slice block) s = .next t ∧ (∀ x ∈ t.spad.gather, x.slice ≠ slice ∨ x.block ≠ block) ∧
      (∀ n o, n < 16 → o < sliceSize → t.sliceByte n o = s.sliceByte n o) ∧ t.yu = s.yu ∧ t.rings = s.rings ∧ t.grid = s.grid

/-- A byte of an uninitialised bank reads zero whatever memory holds, and a write to it changes no byte; each access is counted (R126). -/
def Claim.UninitialisedBanks : Prop :=
  ∀ (s : State) (n off : Nat) (bs : List Byte), n < 16 → off < sliceSize → s.bankInit n (bankOf off) = false →
    s.sliceByte n off = 0#8 ∧
    (bankSpan off bs.length = 1 → (s.writeSlice n off bs).mem = s.mem ∧ (s.writeSlice n off bs).spad.gather = s.spad.gather ∧
      (s.writeSlice n off bs).getF F.SPAD_EVT_UNINIT = min (s.getF F.SPAD_EVT_UNINIT + 1) F.SPAD_EVT_UNINIT.maxVal) ∧
    (∀ a o, a < sliceSize → s.bankInit n (bankOf a) = false → (s.writeSlice n o bs).memByte (sliceAddr n a) = s.memByte (sliceAddr n a)) ∧
    (s.readSlice n off 1).2.1 = [0#8] ∧
    (s.readSlice n off 1).1.getF F.SPAD_EVT_UNINIT = min (s.getF F.SPAD_EVT_UNINIT + 1) F.SPAD_EVT_UNINIT.maxVal

/-- Words of a slice are scrubbed and written back (R121, R123): a scrub never changes a byte, rewrites every correctable word of its row
and moves to the next row; a write-back clears the oldest queued word's error. -/
def Claim.ScratchpadScrub : Prop :=
  ∀ (s : State) (n b : Nat),
    (s.flag F.SPAD_SCRUB_EN = true → s.unitUsable n = true → b < 32 → s.bankOn n b = true → s.bankInit n b = true →
      ∃ t, exec (.spadScrubRead n b []) s = .next t ∧ t.mem = s.mem ∧
        SMap.get (fun _ => 0) t.spad.scrubRow (n * 32 + b) = (SMap.get (fun _ => 0) s.spad.scrubRow (n * 32 + b) + 1) % 256 ∧
        (∀ i, i < 64 → t.errAt (firstWord (sliceAddr n (b * 0x20000 + SMap.get (fun _ => 0) s.spad.scrubRow (n * 32 + b) * 512)) + i) ≠ 1)) ∧
    (∀ w r, SMap.get (fun _ => []) s.spad.writeBack n = w :: r → ∃ t, exec (.eccWriteBack n) s = .next t ∧ t.errAt w = 0 ∧
      SMap.get (fun _ => []) t.spad.writeBack n = r ∧ t.mem = s.mem ∧ ∀ x, x ≠ w → t.errAt x = s.errAt x)

/-- What ports read of a slice across gather-buffer writes, scrubs and uninitialised banks (R114, R121, R123, R126).
The model's own choices and readings in it: log entries 9, 55, 216, 221. -/
def Obligations.ScratchpadContents : Prop :=
  Claim.GatherEntryReachesBank ∧ Claim.UninitialisedBanks ∧ Claim.ScratchpadScrub

/-- Bank power (R124, R125): only the Rulebook's write moves banks; a bank enters retention or off once no write is in flight toward it, and
off loses its contents; a bank that comes on from off is uninitialised.
The model's own choices and readings in it: log entries 56, 57, 58. -/
def Obligations.BankPower : Prop :=
  ∀ (s : State) (n b : Nat), n < 16 → b < 32 →
    (∀ hi v who, who ≠ Requester.rulebook → exec (.spadPwrWrite n hi v who) s = .next (s.recordNoEffect (R.SPAD_n_PWR_LO n))) ∧
    (∀ hi v, badCodes (BitVec.toNat v) = false → ∃ t, exec (.spadPwrWrite n hi v .rulebook) s = .next t ∧
      t = { s with spad := { s.spad with bankMoves := t.spad.bankMoves } } ∧
      ∀ k, k < 16 → bitsOf (BitVec.toNat v) (2 * k + 1) (2 * k) ≠ s.bankCode n ((if hi then 16 else 0) + k) →
        ⟨n, (if hi then 16 else 0) + k, bitsOf (BitVec.toNat v) (2 * k + 1) (2 * k)⟩ ∈ t.spad.bankMoves) ∧
    (∀ m, s.spad.bankMoves.find? (fun m => m.slice == n && m.bank == b && m.target != 0) = some m → m.target < 3 → s.bankBusy n b = false →
      ∃ t, exec (.bankPowerGate n b) s = .next t ∧ t.bankCode n b = m.target ∧ t.bankOn n b = false ∧
        (m.target = 1 → t.mem = s.mem) ∧
        (m.target = 2 → ∀ o, o < 0x20000 → t.memByte (sliceAddr n (b * 0x20000 + o)) = 0#8) ∧
        (∀ a, a < sliceAddr n (b * 0x20000) ∨ sliceAddr n (b * 0x20000) + 0x20000 ≤ a → t.memByte a = s.memByte a)) ∧
    (s.spad.bankMoves.any (fun m => m.slice == n && m.bank == b && m.target == 0) = true →
      (∀ m ∈ s.spad.bankMoves, m.slice = n → m.bank = b → m.target = 0) →
      ∃ t, exec (.bankOnComplete n b) s = .next t ∧ t.bankOn n b = true ∧ (s.bankCode n b = 2 → t.bankInit n b = false) ∧
        (s.bankCode n b ≠ 2 → t.bankInit n b = s.bankInit n b) ∧ t.mem = s.mem)

/-- Remote-write windows are written by their slice's core, the TCC and the Rulebook alone (R120); rings are enabled with three slots or more
that fit a slice that is present, and start empty and not ready with their generations kept (R134); the shared cache is emptied by its
INV bit (R144).
The model's own choices and readings in it: log entry 59. -/
def Obligations.WindowsRingsAndCache : Prop :=
  ∀ s : State,
    (∀ n w v who, n < 16 → w < 32 →
      ((who = Requester.unit n ∨ who = .tcc ∨ who = .rulebook) →
        (∃ t, exec (.windowWrite n w false v who) s = .next t ∧ t = s.setReg (R.SPAD_n_WIN_w n w) v) ∧
        (∃ t, exec (.windowWrite n w true v who) s = .next t ∧ t = s.setReg (R.SPAD_n_WIN_w_MASK n w) (BitVec.ofNat 32 (v.toNat % 2 ^ 21)))) ∧
      (¬(who = Requester.unit n ∨ who = .tcc ∨ who = .rulebook) → ∀ mask,
        exec (.windowWrite n w mask v who) s = .next (s.recordNoEffect (R.SPAD_n_WIN_w n w)))) ∧
    (∀ (r : Nat) (v : Word32), r < 256 → s.flag (F.QUE_RING_r_CFG_EN r) = false → v.toNat % 2 = 1 → 3 ≤ bitsOf v.toNat 27 22 + 1 →
      s.unitUsable (bitsOf v.toNat 31 28) = true →
      bitsOf v.toNat 13 1 * 512 + (bitsOf v.toNat 27 22 + 1) * (bitsOf v.toNat 21 14 + 1) * 512 ≤ sliceSize →
      ∃ t, exec (.ringEnable r v) s = .next t ∧ t.reg (R.QUE_RING_r_CFG r) = v ∧ t.ringHead r = 0 ∧ t.ringTail r = 0 ∧ t.ringUsed r = 0 ∧
        (∀ i, i < 64 → t.slotReady r i = false) ∧ (∀ j i, i < 64 → j ≠ r → t.slotReady j i = s.slotReady j i) ∧ t.rings.gen = s.rings.gen ∧
        t.mem = s.mem) ∧
    (∀ (r : Nat) (v : Word32), r < 256 → s.flag (F.QUE_RING_r_CFG_EN r) = true → (v.toNat % 2 = 1 ∨ s.ringUsed r ≠ 0) →
      exec (.ringEnable r v) s = .next (s.recordNoEffect (R.QUE_RING_r_CFG r))) ∧
    (∃ t, exec .shcInv s = .next t ∧ t.shc.sets = [] ∧ t.getF F.SHC_CTRL_INV = 0 ∧ t.mem = s.mem ∧ ∀ o, o ≠ R.SHC_CTRL → t.reg o = s.reg o)

/-- Movers (R127, R133, R141): the next descriptor in service order starts, a started one completes, and each bucket of the regulator
gains its rate up to its depth. -/
def Claim.MoverEvents : Prop :=
  ∀ s : State,
    (∀ m d wrr, s.pickDesc m = some (d, wrr) → mSrcRing d.words = false → mDstRing d.words = false → mKind d.words ≠ 2 →
      let s1 := s.setMover m { s.mover m with queue := (s.mover m).queue.erase d, wrr := wrr }
      let s2 := bumpInflight true (s1.dstBanks { d with code := 0 }) s1
      let unlim := s2.flag (F.BWR_n_c_UNLIM m (mClass d.words))
      let s3 := if unlim then s2 else s2.setTokens m (mClass d.words) (s2.tokens m (mClass d.words) - tokenCost d.words)
      s1.startCode m d = 0 → d.code = 0 →
      s3.remoteSide { d with banks := s1.dstBanks d } (s3.srcSide { d with banks := s1.dstBanks d }) (mSrcAddr d.words) false = none →
      s3.remoteSide { d with banks := s1.dstBanks d } (s3.dstSide { d with banks := s1.dstBanks d }) (mDstAddr d.words) true = none →
      ∀ fails, ∃ t, exec (.moverDescriptorStart m fails) s = .next t ∧ (t.mover m).queue = (s.mover m).queue.erase d ∧ (t.mover m).wrr = wrr ∧
        (t.mover m).busy = (s.mover m).busy ++
          [{ d with banks := s1.dstBanks d, owed := if unlim then 0 else tokenCost d.words - s2.tokens m (mClass d.words) }] ∧ (∀ k, k ≠ m → t.mover k = s.mover k) ∧ t.bwr = s3.bwr ∧
        t = { s with movers := t.movers, bwr := t.bwr, spad := { s.spad with inflight := t.spad.inflight } }) ∧
    (∀ m cls d, (s.mover m).busy.find? (fun d => servedClass d == cls) = some d → d.outstanding = false → s.owes m d = false → s.retrains d = false →
      let s1 := bumpInflight false d.banks (s.setMover m { s.mover m with busy := (s.mover m).busy.erase d })
      (∀ fails, d.code ≠ 0 → ∃ t, exec (.moverDescriptorComplete m cls [] fails) s = .next t ∧ t = s1.finishDesc m d d.code) ∧
      (∀ fails, d.code = 0 → s.pushWaits (s.pushesTo d) = false → d.remote = none → mKind d.words ≠ 1 → mKind d.words ≠ 2 →
        (∀ p, s1.dstSide d ≠ .halo p) →
        ∃ t, exec (.moverDescriptorComplete m cls [] fails) s = .next t ∧
          t = (s1.transfer m d fails).s.finishDesc m d (s1.transfer m d fails).code)) ∧
    (∃ t, exec .regulatorRefill s = .next t ∧ t = { s with bwr := t.bwr, movers := t.movers } ∧
      ((∀ m d, d ∈ (s.mover m).busy → d.owed = 0) → t.movers = s.movers) ∧ ∀ m c, m < 16 → c < 5 →
      (∀ d, d ∈ (s.mover m).busy → servedClass d = c → d.owed = 0) →
      t.tokens m c = min (s.tokens m c + s.getF (F.BWR_n_c_RATE m c)) (s.getF (F.BWR_n_c_DEPTH m c)))

/-- A chain stage (R138) that is free takes the oldest handle of its queue; one whose queue is empty does nothing. -/
def Claim.ChainStages : Prop :=
  ∀ (s : State) (id i : Nat) (c : Chain) (g : ChainStage), s.tcc.chains.find? (fun c => c.id == id) = some c → c.stages[i]? = some g →
    (s.hqOf g.inQ = [] → exec (.chainStage id i) s = .next s) ∧
    (g.busy = false → 0 < g.left → s.stageRoom g = true → g.last = true → ∀ h s1, s.popHandle g.inQ = some (h, s1) →
      (s1.handleValid h = true → s1.ownsQueue c.task g.inQ = true → ∃ t, exec (.chainStage id i) s = .next t ∧ t = s1.runStage c i g h none) ∧
      (s1.handleValid h = false → ∃ t, exec (.chainStage id i) s = .next t ∧ t = s1.badHandle.stageFails c i g none 9))

/-- Movers, the regulator and chain stages (R127, R133, R138, R141).
The model's own choices and readings in it: log entries 31, 35, 41, 42, 229, 231. -/
def Obligations.MoversAndChains : Prop :=
  Claim.MoverEvents ∧ Claim.ChainStages

/-- Memory channels and the die link (R15, R16, R152): a channel that fails retrains, comes back at a lower rate or goes out of service; a
die-link flit with a bad CRC is replayed; a transfer is delivered with its last flit and lost if one was late.
The model's own choices and readings in it: log entries 60, 63, 195, 196, 197, 209. -/
def Obligations.ChannelsAndDieLink : Prop :=
  ∀ s : State,
    (∀ ch, ch < 16 → s.getF (F.MC_CHc_STAT_STATE ch) = 1 → ∃ t, exec (.channelRetryLimit ch) s = .next t ∧ t.getF (F.MC_CHc_STAT_STATE ch) = 2 ∧
      (s.scorepad.waiting.length < 64 → t.scorepad.waiting = s.scorepad.waiting ++ [⟨0x302, ch⟩]) ∧ t.mem = s.mem) ∧
    (∀ ch rate, ch < 16 → s.getF (F.MC_CHc_STAT_STATE ch) = 2 → 0 < rate → rate < s.getF (F.MC_CHc_STAT_RATE ch) →
      ∃ t, exec (.channelRetrainComplete ch rate) s = .next t ∧ t.getF (F.MC_CHc_STAT_STATE ch) = 1 ∧ t.getF (F.MC_CHc_STAT_RATE ch) = rate ∧ t.mem = s.mem) ∧
    (∀ m dir again ready, s.moduleUp m = true → (SMap.get (fun _ => []) s.raster.dl.replay (m * 2 + dir.toNat)).length < 64 →
      (again = true → SMap.get (fun _ => []) s.raster.dl.replay (m * 2 + dir.toNat) ≠ []) → (again = false → ready ≠ []) →
      ∃ t, exec (.dieLinkFlit m ⟨dir, again, ready, false⟩) s = .next t ∧
        t.getF F.DL_RETRY_REPLAY_CNT = min (s.getF F.DL_RETRY_REPLAY_CNT + 1) F.DL_RETRY_REPLAY_CNT.maxVal ∧ t.mem = s.mem ∧
        t.raster.dl.toRaster = s.raster.dl.toRaster ∧ t.raster.dl.toTensor = s.raster.dl.toTensor ∧
        (again = true → t.raster = s.raster) ∧
        (again = false → ∃ c, c ∈ ready ∧ SMap.get (fun _ => none) t.raster.dl.sent (m * 2 + dir.toNat) = some c ∧
          SMap.get (fun _ => []) t.raster.dl.replay (m * 2 + dir.toNat) = SMap.get (fun _ => []) s.raster.dl.replay (m * 2 + dir.toNat) ++ [c] ∧
          ∀ c', c' ∈ ready → classRank (decide (96 * s.now < SMap.get (fun _ => 0) s.raster.dl.used dir.toNat)) c ≤
            classRank (decide (96 * s.now < SMap.get (fun _ => 0) s.raster.dl.used dir.toNat)) c')) ∧
    (∀ m r a, s.raster.dl.toTensor = m :: r → m.isNotice = false → 1 < m.flits → m.queued ≤ a → SMap.get (fun _ => 0) s.raster.dl.lastAccepted 0 ≤ a →
      s.now ≤ a + 200 → ∃ t, exec (.rasterFlitDelivery false ⟨a, false⟩) s = .next t ∧
      t = { s with now := a + 200 }.setDl { s.raster.dl with
        toTensor := { m with flits := m.flits - 1, accepted := some a } :: r, lastAccepted := SMap.set (fun _ => 0) s.raster.dl.lastAccepted 0 a }) ∧
    (∀ m r a, s.raster.dl.toRaster = m :: r → m.isNotice = false → m.flits = 1 → m.lost = false → m.queued ≤ a →
      SMap.get (fun _ => 0) s.raster.dl.lastAccepted 1 ≤ a → s.now ≤ a + 200 → ∃ t, exec (.rasterFlitDelivery true ⟨a, false⟩) s = .next t ∧
      t = ({ s with now := a + 200 }.setDl { s.raster.dl with toRaster := r, lastAccepted := SMap.set (fun _ => 0) s.raster.dl.lastAccepted 1 a }).deliver
        { m with flits := 0, accepted := some a }) ∧
    (∀ m r a late, s.raster.dl.toRaster = m :: r → m.isNotice = false → m.queued ≤ a → SMap.get (fun _ => 0) s.raster.dl.lastAccepted 1 ≤ a →
      (late = true ∨ a + 200 < s.now) → ∃ t, exec (.rasterFlitDelivery true ⟨a, late⟩) s = .next t ∧
        t.getF F.DL_RETRY_LATE_CNT = min (s.getF F.DL_RETRY_LATE_CNT + 1) F.DL_RETRY_LATE_CNT.maxVal ∧ t.mem = s.mem)

/-- The ends of task barriers (R143, R236, R248, R250): a cancelled task with nothing in flight is CANCELLED, a pausing one PAUSED; a save
whose area is refused or whose sections cannot be read leaves it PAUSED and counted, else it is SAVED; a restored one waits for the next turn. -/
def Claim.TaskBarriers : Prop :=
  ∀ (s : State) (slot : Nat), 0 < slot → slot < 16384 →
    (s.taskState slot = 10 → s.workPending slot = false → bitsOf (s.slotField slot 0 4) 15 12 ≠ 2 →
      ∃ t, exec (.cancelBarrierComplete slot) s = .next t ∧ t.taskState slot = 11 ∧ t.tcc.cancelReq = dropReq slot s.tcc.cancelReq ∧ t.mem = s.mem) ∧
    (s.taskState slot = 3 → s.workPending slot = false → slot ∉ s.tcc.autoResume →
      ∃ t, exec (.pauseBarrierComplete slot) s = .next t ∧ t.taskState slot = 4 ∧ t.tcc.pauseReq = dropReq slot s.tcc.pauseReq ∧ KeepRegs s t) ∧
    (s.taskState slot = 5 → s.saveWaits slot = false →
      (s.saveRefused slot = true → ∃ t, exec (.saveComplete slot [] []) s = .next t ∧ t = s.saveFailed slot (s.saveBase slot)) ∧
      (s.saveRefused slot = false → ∀ s1,
        (∀ a, s.sectionsOf slot = (s1, .error a) → ∃ t, exec (.saveComplete slot [] []) s = .next t ∧ t = s1.saveFailed slot a) ∧
        (∀ l, s.sectionsOf slot = (s1, .ok l) → findReq slot s1.tcc.cancelReq = none → ∃ t, exec (.saveComplete slot [] []) s = .next t ∧
          t.taskState slot = 6 ∧ (t.vcore (t.taskCore slot)).batchTask ≠ slot))) ∧
    (findReq slot s.tcc.cancelReq = none → slot ∉ s.tcc.autoResume → ∀ a, (s.saveFailed slot a).taskState slot = 4 ∧
      (s.saveFailed slot a).getF F.TASK_EVT2_SAVEFAIL = min (s.getF F.TASK_EVT2_SAVEFAIL + 1) F.TASK_EVT2_SAVEFAIL.maxVal ∧
      (s.saveFailed slot a).tcc.saveReq = dropReq slot s.tcc.saveReq ∧ (s.saveFailed slot a).mem = s.mem) ∧
    (s.taskState slot = 7 → slot ∉ s.tcc.restored → s.saveWaits slot = false → s.saveRefused slot = false →
      let s1 := (restoreDirs slot (saveDirs (s.memBytes (s.saveBase slot) 4096)) s).restoreKept slot
      findReq slot s1.tcc.cancelReq = none → s1.taskState slot = 7 → ∃ t, exec (.restoreComplete slot) s = .next t ∧
        t = { s1 with tcc := { s1.tcc with restored := s1.tcc.restored ++ [slot] } })

/-- A task that fails (R256): FAULTED, its core stopped, its code and information in the slot and latched in TASK_FAULT. -/
def Claim.TaskFaults : Prop :=
  ∀ (s : State) (slot code unit info : Nat), 0 < slot → slot < 16384 → code < 16 → unit < 65536 → info < 2 ^ 32 →
    bitsOf (s.slotField slot 0 4) 15 12 ≠ 2 →
    let t := s.faultTask slot code unit info
    t.taskState slot = 9 ∧ t.slotField slot 0xAC 4 = code + unit * 65536 ∧ t.slotField slot 0xB0 4 = info ∧
    (s.flag F.TASK_FAULT_VALID = false → t.getF F.TASK_FAULT_SLOT = slot % 2 ^ (F.TASK_FAULT_SLOT.hi + 1 - F.TASK_FAULT_SLOT.lo) ∧
      t.getF F.TASK_FAULT_CODE = code ∧ t.getF F.TASK_FAULT_VALID = 1) ∧
    (s.flag F.TASK_FAULT_VALID = true → t.reg R.TASK_FAULT = s.reg R.TASK_FAULT) ∧
    t.mem = s.mem ∧ t.yu = s.yu ∧ (∀ other off, off < 256 → other ≠ slot → t.tableByte other off = s.tableByte other off) ∧
    (∃ c, t.host.cpl = s.host.cpl ++ [c] ∧ c.code = 0x0D ∧ c.detail = slot)

/-- Task barriers and task faults (R143, R236, R250, R256).
The model's own choices and readings in it: log entries 50, 205, 207. -/
def Obligations.TaskEnds : Prop :=
  Claim.TaskBarriers ∧ Claim.TaskFaults

/-! ### Host commands -/

/-- HELLO agrees the lower of the levels and lets the other commands be accepted; CAPS writes its 64 bytes to host memory (R375, R383). -/
def Claim.SessionCommands : Prop :=
  ∀ (c : HostCmd) (s : State),
    (s.fronts c 0x01 → ∃ t, exec .hello s = .next t ∧
      Completed c 0 (min (c.arg 0 % 256) 1 + min (c.arg 0 / 256 % 256) 1 * 256 + 2 ^ 16 + 2 ^ 24) s t ∧
      t.getF F.CMD_LEVEL_CMDSET = min (c.arg 0 % 256) 1 ∧ t.getF F.CMD_LEVEL_YUBEN = min (c.arg 0 / 256 % 256) 1 ∧ t.getF F.CMD_LEVEL_AGREED = 1 ∧
      t.mem = s.mem ∧ t.hostMem = s.hostMem) ∧
    (s.fronts c 0x02 → s.flag F.PCI_STATUS_BME = true → ∃ t, exec (.caps false) s = .next t ∧ Completed c 0 0 s t ∧
      t.hostBytes (argAddr c 0) 64 = s.capsBlock ∧ (∀ a, a < argAddr c 0 ∨ argAddr c 0 + 64 ≤ a → t.hostByte a = s.hostByte a) ∧ t.mem = s.mem) ∧
    (s.fronts c 0x02 → ∃ t, exec (.caps true) s = .next t ∧ Completed c ccIo 0 s t ∧ t.hostMem = s.hostMem)

/-- HELLO and CAPS (R375).
The model's own choices and readings in it: log entry 116. -/
def Obligations.SessionCommands : Prop :=
  Claim.SessionCommands

/-- R379: a command with FENCE set that completes with OK writes its value to its fence counter in that tick, as the fence write of R287; no other counter
changes, and with any other code none does. -/
def Obligations.CommandFences : Prop :=
  ∀ (s : State) (c : HostCmd) (code result : Nat), c.fenceK < 64 → c.fenceValue < 2 ^ 32 →
    (code = 0 → c.flags.testBit 3 = true → (s.complete c code result).getF (F.CMP_FENCE_k_VALUE c.fenceK) = c.fenceValue ∧
      (∀ k, k < 64 → k ≠ c.fenceK → (s.complete c code result).getF (F.CMP_FENCE_k_VALUE k) = s.getF (F.CMP_FENCE_k_VALUE k)) ∧
      (s.complete c code result).raster.flips = stampFlips c.fenceK c.fenceValue s.now s.raster.flips) ∧
    (code ≠ 0 ∨ c.flags.testBit 3 = false → ∀ k, k < 64 → (s.complete c code result).getF (F.CMP_FENCE_k_VALUE k) = s.getF (F.CMP_FENCE_k_VALUE k))

/-- Commands with a due round that pass their checks wait for it (R377): UNLOAD, STOP_AT, START_AT and the adaptation commands.
The model's own choices and readings in it: log entry 115. -/
def Obligations.DueCommandsWait : Prop :=
  ∀ (c : HostCmd) (s : State), c.flags.testBit 1 = false →
    (s.fronts c 0x04 → s.seq.bundle.isSome = true → s.admits c 0 → ∃ t, exec .unload s = .next t ∧ WaitsFor c c.due s.leadDom [] s t ∧
      t.getF F.CMD_PEND_DUE = s.host.due.length + 1 ∧ t.seq = s.seq ∧ t.mem = s.mem) ∧
    (s.fronts c 0x05 → (∃ x, (s.setTaken []).startCheck = .ok x) → s.admits c 2 → ∃ t, exec .startAt s = .next t ∧
      WaitsFor c c.due s.leadDom [] s t ∧ t.seq = s.seq ∧ t.mem = s.mem) ∧
    (s.fronts c 0x06 → s.seq.started = true → s.admits c 0 → ∃ t, exec .stopAt s = .next t ∧ WaitsFor c c.due s.leadDom [] s t ∧
      t.seq = s.seq ∧ t.mem = s.mem) ∧
    (s.fronts c 0x0E → s.admits c 0 → ∀ p ∈ ([(1, .adaptCtrlEnable), (2, .adaptCtrlDisable), (3, .adaptCtrlCommit), (4, .adaptCtrlDiscard),
        (5, .adaptCtrlReset)] : List (Nat × Instr)), adSub c = p.1 → ∃ t, exec p.2 s = .next t ∧ WaitsFor c c.due s.leadDom [] s t ∧
      t.adapt = s.adapt ∧ t.mem = s.mem) ∧
    (s.fronts c 0x0E → s.admits c 0 → adSub c = 6 → s.flag F.PCI_STATUS_BME = true → ∃ t, exec (.adaptCtrlExport false) s = .next t ∧
      WaitsFor c c.due s.leadDom [] s t ∧ t.hostMem = s.hostMem) ∧
    (s.fronts c 0x0E → s.admits c 0 → adSub c = 7 → s.seq.bundle.isSome = true → c.arg 5 = setSize s.adaptTable + 4 →
      s.flag F.PCI_STATUS_BME = true → ∃ t, exec (.adaptCtrlImport false) s = .next t ∧
        WaitsFor c c.due s.leadDom (s.hostBytes (argAddr c 3) (c.arg 5)) s t)

/-- Clock, power and bank commands (R124, R424, R429): an ACLK setting of R20's steps, a state and a bank update wait for their due rounds; a
setting outside 300 to 600 MHz in steps of 25 is BAD_FORMAT.
The model's own choices and readings in it: log entry 121. -/
def Obligations.ClockAndPowerCommands : Prop :=
  ∀ (c : HostCmd) (s : State), c.flags.testBit 1 = false →
    (s.fronts c 0x0F → (c.arg 0 < 300 ∨ 600 < c.arg 0 ∨ c.arg 0 % 25 ≠ 0) → ∃ t, exec .setClock s = .next t ∧ Completed c ccFormat 0 s t ∧ t.regs = s.regs) ∧
    (s.fronts c 0x0F → 300 ≤ c.arg 0 → c.arg 0 ≤ 600 → c.arg 0 % 25 = 0 → (∃ x, (s.setTaken []).clockCode (c.arg 0) = .ok x) → s.admits c 1 →
      ∃ t, exec .setClock s = .next t ∧ WaitsFor c c.due s.leadDom [] s t) ∧
    (s.fronts c 0x10 → c.arg 0 = 1 → s.powerSettled 1 = false → s.power.step = .idle → s.pstate = 0 → s.admits c 1 →
      ∃ t, exec .setPowerHold s = .next t ∧ WaitsFor c c.due s.leadDom [] s t ∧ t.power = s.power) ∧
    (s.fronts c 0x10 → c.arg 0 = 2 → s.powerSettled 2 = false → s.power.step = .idle → s.pstate ≠ 2 → s.host.background = [] → s.admits c 1 →
      ∃ t, exec .setPowerStandby s = .next t ∧ WaitsFor c c.due s.leadDom [] s t ∧ t.power = s.power) ∧
    (s.fronts c 0x10 → c.arg 0 = 0 → s.powerSettled 0 = true → c.flags.testBit 3 = false →
      ∃ t, exec .setPowerRun s = .next t ∧ Completed c 0 0 s t ∧ t.power = s.power) ∧
    (s.fronts c 0x10 → c.arg 0 = 0 → s.powerSettled 0 = false → s.power.step = .idle → s.pstate = 1 → s.temp < Int.ofNat s.warnLevel →
      s.admits c 1 → (s.dom s.leadDom).start ≠ s.now → ∃ t, exec .setPowerRun s = .next t ∧ WaitsFor c c.due s.leadDom [] s t ∧ t.power = s.power) ∧
    (s.fronts c 0x10 → (c.arg 0).testBit 8 = true → c.arg 1 < 16 → s.unitUsable (c.arg 1) = true → s.pstate ≠ 2 → s.admits c 1 →
      ∃ t, exec .setPowerBanks s = .next t ∧ WaitsFor c c.due s.leadDom [] s t ∧ t.spad = s.spad)

/-- Task commands (R235, R248, R250, R253, R143): a slot in the state the command asks for is paused, saved, resumed or cancelled; any other
is BAD_STATE. -/
def Claim.TaskCommands : Prop :=
  ∀ (c : HostCmd) (s : State),
    (s.fronts c 0x0A → 0 < c.arg 0 → c.arg 0 < 16384 → s.taskState (c.arg 0) = 2 → findReq (c.arg 0) s.tcc.pauseReq = none → ∃ t, exec .pauseTask s = .next t ∧
      t.tcc = { s.tcc with pauseReq := s.tcc.pauseReq ++ [(c.arg 0, some c)] } ∧ t.host.cpl = s.host.cpl ∧ t.mem = s.mem) ∧
    (s.fronts c 0x0A → 0 < c.arg 0 → c.arg 0 < 16384 → s.taskState (c.arg 0) ≠ 2 → c.flags.testBit 3 = false → ∃ t, exec .pauseTask s = .next t ∧ Completed c ccState 0 s t ∧ t.tcc = s.tcc) ∧
    (s.fronts c 0x0B → 0 < c.arg 0 → c.arg 0 < 16384 → s.taskState (c.arg 0) = 4 → findReq (c.arg 0) s.tcc.resumeReq = none → s.power.stopped = false →
      s.saveFits (c.arg 0) = true → ∃ t, exec .saveTask s = .next t ∧ t.taskState (c.arg 0) = 5 ∧
      t.tcc.saveReq = s.tcc.saveReq ++ [(c.arg 0, some c)] ∧ t.host.cpl = s.host.cpl ∧ t.mem = s.mem) ∧
    (s.fronts c 0x0C → 0 < c.arg 0 → c.arg 0 < 16384 → (s.taskState (c.arg 0) = 4 ∨ s.taskState (c.arg 0) = 6) → findReq (c.arg 0) s.tcc.resumeReq = none →
      ∃ t, exec .resumeTask s = .next t ∧ t.tcc = { s.tcc with resumeReq := s.tcc.resumeReq ++ [(c.arg 0, some c)] } ∧ t.host.cpl = s.host.cpl) ∧
    (s.fronts c 0x0D → c.arg 0 % 4 = 0 → 0 < c.arg 1 → c.arg 1 < 16384 → (s.taskState (c.arg 1) = 2 ∨ s.taskState (c.arg 1) = 4 ∨ s.taskState (c.arg 1) = 6) →
      findReq (c.arg 1) s.tcc.cancelReq = none → ∃ t, exec .cancel s = .next t ∧ t = ((s.setTaken []).beginCancel (c.arg 1) (some c)).settle ∧
        (c.arg 1, some c) ∈ t.tcc.cancelReq) ∧
    (∀ d, s.fronts c 0x0D → c.arg 0 = 1 → c.flags.testBit 3 = false → s.host.due.find? (fun d => d.cmd.seq == c.arg 1 && d.cmd.origin == .host) = some d →
      d.cmd.flags.testBit 3 = false → ∃ t, exec .cancelCommand s = .next t ∧ t.host.due = s.host.due.erase d ∧
        (∃ x y, t.host.cpl = s.host.cpl ++ [x, y] ∧ x.seq = d.cmd.seq ∧ x.code = ccVoided ∧ y.seq = c.seq ∧ y.code = 0))

/-- SUBMIT_TASKS (R231 to R235): every image goes to a free slot as READY with the images' fields, the slot numbers go to host memory, and
the command completes. -/
def Claim.TaskSubmission : Prop :=
  ∀ (c : HostCmd) (s : State), s.fronts c 0x09 → c.flags.testBit 3 = false → 0 < c.arg 2 → c.arg 2 ≤ 64 → s.flag F.PCI_STATUS_BME = true →
    let bs := entriesAt (s.hostBytes (argAddr c 0) (256 * c.arg 2)) 0 256 (c.arg 2)
    let slots := s.freeSlots bs.length 16383 1
    bs.any imageBad = false → groupsBad bs = false → bs.any s.imageRows = false → bs.any s.imageAbsent = false → bs.any s.imageDenied = false →
    bs.any (fun b => imgGroup b != 0 && s.usedSlots.any (fun t => s.slotGroup t == imgGroup b)) = false → slots.length = bs.length → slots.Nodup →
    ∃ t, exec (.submitTasks false) s = .next t ∧ Completed c 0 0 s t ∧
      t.hostBytes (argAddr c 3) (2 * bs.length) = (slots.map (leBytes 2)).flatten ∧
      (∀ (i slot : Nat) (b : List Byte), slots[i]? = some slot → bs[i]? = some b → t.taskState slot = 1 ∧ ∀ o, 1 ≤ o → o < 0x98 → t.tableByte slot o = b.getD o 0#8) ∧
      (∀ slot o, o < 256 → slot ∉ slots → t.tableByte slot o = s.tableByte slot o) ∧ t.mem = s.mem

/-- SUBMIT_TASKS and the commands on a task slot (R231 to R235, R248 to R253).
The model's own choices and readings in it: log entries 52, 118, 119, 204. -/
def Obligations.TaskControl : Prop :=
  Claim.TaskCommands ∧ Claim.TaskSubmission

/-- Security commands (R405, R411, R412, R415): a nonce is drawn and its low bytes returned, an open session is ended, RETIRE without a bundle
retires the part, and PROVISION writes the leaf cache.
The model's own choices and readings in it: log entries 99, 103, 104. -/
def Obligations.SecurityCommands : Prop :=
  ∀ (c : HostCmd) (s : State), c.flags.testBit 3 = false →
    (s.fronts c 0x15 → (c.arg 0).testBit 31 = true → s.flag F.SEC_STATUS_RNG_OK = true → ∃ t n, exec .debugNonceRequest s = .next t ∧
      n = s.drbg 32 ∧ t.sec.nonce = some n ∧ t.freeIdx = s.freeIdx + 1 ∧ Completed c 0 (leNat (n.take 8)) s t ∧ t.mem = s.mem) ∧
    (s.fronts c 0x15 → (c.arg 0).testBit 31 = true → s.flag F.SEC_STATUS_RNG_OK = false → ∃ t, exec .debugNonceRequest s = .next t ∧ Completed c ccState 0 s t ∧
      t.sec = s.sec) ∧
    (s.fronts c 0x15 → (c.arg 0).testBit 31 = false → c.arg 3 = 0 → ∃ t, exec (.debugUnlock false) s = .next t ∧
      t = (((s.setTaken []).unlock (c.arg 0 % 4) none).1.complete c ((s.setTaken []).unlock (c.arg 0 % 4) none).2).settle) ∧
    (s.fronts c 0x16 → s.sec.debug ≠ none → ∃ t, exec .debugEnd s = .next t ∧ t.sec.debug = none ∧ Completed c 0 0 s t) ∧
    (s.fronts c 0x18 → s.seq.bundle = none → s.lc ≠ 3 → s.lc ≠ 2 → s.host.background = [] → c.arg 2 = 0 → ∃ t, exec (.retire false) s = .next t ∧
      t = ((s.setTaken []).retire.complete c 0).settle) ∧
    (s.fronts c 0x17 → s.lc ≠ 3 → (s.lc = 0 ∨ s.provisioned = true) → c.arg 0 = 0 → s.flag F.PCI_STATUS_BME = true → ∀ out,
      out = s.leafCache (if s.flashDir 1 ≠ 0 ∧ s.cacheOk (s.flashBytes (s.flashDir 1) cacheMost) = true then
        cacheCert (s.flashBytes (s.flashDir 1) cacheMost) else []) → out.length ≤ c.arg 3 →
      ∃ t, exec (.provision false) s = .next t ∧ Completed c 0 0 s t ∧ t.hostBytes (argAddr c 1) out.length = out ∧ t.flash = s.flash) ∧
    (s.fronts c 0x14 → (s.lc = 3 ∨ s.provisioned = false) → ∃ t, exec (.attest false 0) s = .next t ∧ Completed c ccState 0 s t ∧ t.sec = s.sec) ∧
    (s.fronts c 0x14 → s.lc ≠ 3 → s.provisioned = true → 3156 ≤ c.arg 4 → s.flag F.PCI_STATUS_BME = true →
      fieldAt (s.hostBytes (argAddr c 0) 48) 36 4 = 0 → fieldAt (s.hostBytes (argAddr c 0) 48) 32 4 < 64 → ∀ a, s.sec.att = some a →
      ∀ out s1, (s.setTaken []).signReport (s.hostBytes (argAddr c 0) 48) a = (out, s1) → s1.flag F.PCI_STATUS_BME = true →
      ∃ t, exec (.attest false 0) s = .next t ∧ t = ((s1.putHost (argAddr c 2) out).complete c 0).settle)

/-! ### Scorepad and check-value engines -/

/-- The recorder (R445, R449): an event that no trigger takes becomes the next record of its class, which keeps every earlier record; a full
class counts it instead. Records are never overwritten. -/
def Obligations.RecordsAreKept : Prop :=
  ∀ (s : State) (ev : RecEvent) (r : List RecEvent), s.scorepad.counted = true → s.scorepad.waiting = ev :: r → s.triggerOf ev.event = none →
    ∃ t, exec .recordWrite s = .next t ∧ t.scorepad.waiting = r ∧ t.mem = s.mem ∧ t.yu = s.yu ∧
      (1 ≤ ev.event / 256 → ev.event / 256 ≤ 5 → t.scorepad.trace = s.scorepad.trace ∧
        (s.scorepad.ledger.length < 2048 → (∃ x, t.scorepad.ledger = s.scorepad.ledger ++ [x] ∧ x.seq = (s.reg R.REC_SEQ).toNat ∧
            x.event = ev.event ∧ x.detail = ev.detail % 65536 ∧ x.trigger = 0xFF) ∧ t.reg R.REC_SEQ = s.reg R.REC_SEQ + 1 ∧
            t.flag F.CMD_IRQ_LEDGER = true) ∧
        (2048 ≤ s.scorepad.ledger.length → t.scorepad.ledger = s.scorepad.ledger ∧ t.reg R.REC_SEQ = s.reg R.REC_SEQ ∧
            t.getF F.REC_OVF_LEDGER = min (s.getF F.REC_OVF_LEDGER + 1) 65535)) ∧
      (ev.event / 256 = 0 ∨ 5 < ev.event / 256 → t.scorepad.ledger = s.scorepad.ledger ∧
        (s.scorepad.trace.length < 6144 → (∃ x, t.scorepad.trace = s.scorepad.trace ++ [x] ∧ x.seq = (s.reg R.REC_SEQ).toNat ∧
            x.event = ev.event ∧ x.hours = 0 ∧ x.minutes = 0) ∧ t.reg R.REC_SEQ = s.reg R.REC_SEQ + 1) ∧
        (6144 ≤ s.scorepad.trace.length → t.scorepad.trace = s.scorepad.trace ∧ t.getF F.REC_OVF_TRACE = min (s.getF F.REC_OVF_TRACE + 1) 65535))

/-- The ledger area, REC_READ and REC_CLEAR (R450 to R452). -/
def Claim.RecordCommands : Prop :=
  ∀ (c : HostCmd) (s : State),
    (s.flashDir 2 ≠ 0 → ∃ t, exec .ledgerEntryTimer s = .next t ∧ t.scorepad.gen = s.scorepad.gen + 1 ∧
      t.scorepad.nextEntry = (s.scorepad.nextEntry + 64) % 65536 ∧
      t.flashBytes (s.flashDir 2 + s.scorepad.nextEntry) 48 = s.entryBody (s.scorepad.gen + 1) ∧ t.mem = s.mem ∧ t.regs = s.regs) ∧
    (s.fronts c 0x11 → c.arg 0 ≤ 1 → c.arg 1 + c.arg 2 ≤ recCapacity (c.arg 0) → s.flag F.PCI_STATUS_BME = true → ∃ t bs,
      exec (.recRead false) s = .next t ∧ bs = ((List.range (c.arg 2)).map (fun i => s.recordBytes (c.arg 0) (c.arg 1 + i))).flatten ∧
      t.hostBytes (argAddr c 3) bs.length = bs ∧ Completed c 0 0 s t ∧ t.scorepad = s.scorepad ∧ t.mem = s.mem) ∧
    (s.fronts c 0x12 → c.arg 0 = 1 → ∃ t, exec .recClear s = .next t ∧ t.scorepad.trace = [] ∧ t.scorepad.ledger = s.scorepad.ledger ∧
      t.getF F.REC_OVF_TRACE = 0 ∧ t.reg R.REC_SEQ = s.reg R.REC_SEQ ∧ (s.scorepad.waiting.length < 64 → Completed c 0 0 s t)) ∧
    (s.fronts c 0x12 → c.arg 0 = 0 → s.lc = 2 → s.debugLevel < 2 → c.flags.testBit 3 = false → ∃ t, exec .recClear s = .next t ∧
      Completed c ccDenied 0 s t ∧ t.scorepad = s.scorepad) ∧
    (s.fronts c 0x12 → c.arg 0 = 0 → s.lc ≠ 2 → ∃ t x, exec .recClear s = .next t ∧ t.scorepad.ledger = [x] ∧ x.event = 0x180 ∧
      t.scorepad.trace = s.scorepad.trace ∧ Completed c 0 0 s t)

/-- The check-value engines (R453 to R455): a start, a stop, a CRC_SCAN, and the end of a scan that met no error. -/
def Claim.CheckValueEngines : Prop :=
  ∀ (s : State) (e : Nat), e < 8 →
    (∀ v : Word32, s.flag (F.CRC_e_CTRL_OWNED e) = false → s.flag (F.CRC_e_CTRL_BUSY e) = false → ∃ t, exec (.crcStart e v) s = .next t ∧
      t.getF (F.CRC_e_CTRL_BUSY e) = 1 ∧ t.getF (F.CRC_e_CTRL_OWNED e) = 0 ∧ t.getF (F.CRC_e_CTRL_ERR e) = 0 ∧
      t.getF (F.CRC_e_CTRL_POLY e) = bitsOf v.toNat 26 25 ∧ t.crcAddr e = s.crcAddr e ∧ t.crcLen e = s.crcLen e ∧ t.mem = s.mem ∧
      (v.toNat.testBit 24 = true → t.crcVal e = s.crcVal e) ∧
      (v.toNat.testBit 24 = false → t.crcVal e = (polyInit (bitsOf v.toNat 26 25) ^^^ polyFinal (bitsOf v.toNat 26 25)) % 2 ^ polyWidth (bitsOf v.toNat 26 25))) ∧
    (∀ v : Word32, s.flag (F.CRC_e_CTRL_OWNED e) = true → ∃ t, exec (.crcStart e v) s = .next t ∧ t.getF (F.CRC_e_CTRL_ERR e) = 4 ∧ t.crcVal e = s.crcVal e) ∧
    (s.flag (F.CRC_e_CTRL_OWNED e) = false → s.flag (F.CRC_e_CTRL_BUSY e) = true → ∃ t, exec (.crcStop e) s = .next t ∧
      t.getF (F.CRC_e_CTRL_STOP e) = 1 ∧ t.mem = s.mem) ∧
    (∀ c : HostCmd, s.fronts c 0x13 → c.arg 0 = e → argAddr c 1 + argAddr c 3 ≤ 2 ^ 48 → argAddr c 1 < 2 ^ 64 → s.host.background = [] →
      s.flag (F.CRC_e_CTRL_BUSY e) = false → ∃ t, exec .crcScan s = .next t ∧ t.getF (F.CRC_e_CTRL_BUSY e) = 1 ∧ t.getF (F.CRC_e_CTRL_OWNED e) = 1 ∧
        t.crcAddr e = argAddr c 1 ∧ t.crcLen e = argAddr c 3 ∧ t.host.background = [c] ∧ t.host.cpl = s.host.cpl ∧ t.mem = s.mem) ∧
    (s.flag (F.CRC_e_CTRL_BUSY e) = true → s.flag (F.CRC_e_CTRL_STOP e) = false → s.flag (F.CRC_e_CTRL_OWNED e) = false → ∀ s1 stop v,
      scanRange (s.getF (F.CRC_e_CTRL_POLY e)) (s.crcLen e / 8 + 2) (s.crcAddr e) (s.crcLen e) (s.crcVal e) s = (s1, stop, v, 0) → v < 2 ^ 64 →
      ∃ t, exec (.crcScanEnd e 0) s = .next t ∧ t.crcVal e = v ∧ t.getF (F.CRC_e_CTRL_BUSY e) = 0 ∧ t.mem = s1.mem)

/-- The ledger area, REC_READ, REC_CLEAR and the check-value engines (R450 to R455).
The model's own choices and readings in it: log entries 150, 151, 152. -/
def Obligations.RecordAndScanCommands : Prop :=
  Claim.RecordCommands ∧ Claim.CheckValueEngines


/-! ### The fabric -/

/-- What every flit meets first (R333, R335): the next in order with a good CRC is taken and acknowledges flits; one with a bad CRC, or out of
order, delivers nothing; one whose class is not its type's is dropped and counted. -/
def Claim.FlitAcceptance : Prop :=
  ∀ (f : FlitIn) (s : State), f.port < 4 → s.portUp f.port = true →
    (f.crcOk = true → f.nak = false → f.seq = ((s.fport f.port).rxSeq + 1) % 4096 → (s.fport f.port).rxSeq < 4096 →
      ∃ r, s.receiveFlit f = (r, true) ∧ (r.fport f.port).rxSeq = f.seq ∧ (r.fport f.port).nak = false ∧ r.regs = s.regs ∧ r.mem = s.mem ∧
        ((s.fport f.port).tx = [] → (r.fport f.port).replay = ackReplay f.ack (s.fport f.port).replay) ∧
        exec (.idle f) s = .next (if f.cls = 2 then r else r.dropFlit)) ∧
    (f.crcOk = false → ∃ r, s.receiveFlit f = (r, false) ∧ r.fport f.port = { s.fport f.port with nak := true } ∧ r.mem = s.mem ∧
      r.getF (F.FAB_Pp_ERR_CRC f.port) = min (s.getF (F.FAB_Pp_ERR_CRC f.port) + 1) 65535) ∧
    (f.crcOk = true → f.nak = false → f.seq < 4096 → (s.fport f.port).rxSeq < 4096 → f.seq ≠ ((s.fport f.port).rxSeq + 1) % 4096 →
      ∃ r, s.receiveFlit f = (r, false) ∧ (r.fport f.port).rxSeq = (s.fport f.port).rxSeq ∧ r.regs = s.regs ∧ r.mem = s.mem) ∧
    (∀ r pp rx tx wall, ∀ p ∈ ([(.delayRequest f rx tx, 0), (.delayResponse f rx, 0), (.haloWrite f, 1), (.fabricHello f, 2), (.offer f pp, 2),
        (.accept f wall, 2), (.fabricCommand f, 2), (.fabricCompletion f, 2), (.fenceWrite f, 2), (.readyFlag f, 2), (.bootRequest f, 2),
        (.idle f, 2), (.pixelData f, 3), (.bulkWrite f, 4), (.readRequest f, 4), (.readResponse f, 4), (.writeAcknowledgement f, 4),
        (.bootImage f tx, 4)] :
        List (Instr × Nat)),
      (s.receiveFlit f = (r, false) → exec p.1 s = .next r) ∧
      (s.receiveFlit f = (r, true) → f.cls ≠ p.2 → exec p.1 s = .next r.dropFlit)) ∧
    (∀ r tick frac wall, tick ≤ s.now → (s.receiveFlit f = (r, false) → exec (.beacon f tick frac wall) s = .next r) ∧
      (s.receiveFlit f = (r, true) → f.cls ≠ 0 → exec (.beacon f tick frac wall) s = .next r.dropFlit))

/-- Links (R330, R335): training brings a port up at its lanes, a retrain stops sending and ends at fewer lanes, a replay counts, and
a silent port sends an idle flit. -/
def Claim.LinkEvents : Prop :=
  ∀ (p : Nat) (s : State), p < 4 →
    (∀ lanes version, (s.getF F.FAB_CTRL_PORT_EN).testBit p = true → s.portUp p = false → version ≠ 0 → (lanes = 1 ∨ lanes = 2 ∨ lanes = 4) →
      s.getF F.PWR_BOOT_STEP ≠ 7 → ∃ t, exec (.linkTrained p lanes version) s = .next t ∧ t.portUp p = true ∧
        t.getF (F.FAB_Pp_STATUS_LANES p) = lanes ∧ t.flag (F.FAB_Pp_STATUS_MISWIRED p) = false ∧ t.portEdge p = s.flag F.FAB_STATUS_JOINED ∧
        t.fport p = {} ∧ FabricOnly s t ∧ ∀ q, q ≠ p → t.fport q = s.fport q) ∧
    (∀ lanes, (s.getF F.FAB_CTRL_PORT_EN).testBit p = true → s.portUp p = false → ∃ t, exec (.linkTrained p lanes 0) s = .next t ∧
      t.getF (F.FAB_Pp_LOSS_CAUSE p) = 5 ∧ t.portUp p = false ∧ FabricOnly s t) ∧
    (∀ lanes, s.portUp p = true → ∃ t, exec (.laneRetrain p lanes false) s = .next t ∧ (t.fport p).retrain = true ∧ t.portUp p = true ∧
      (t.fport p).tx = (s.fport p).tx ∧ (t.fport p).replay = (s.fport p).replay ∧ FabricOnly s t ∧ t.regs = s.regs) ∧
    (∀ lanes, s.portUp p = true → (s.fport p).retrain = true → (lanes = 1 ∨ lanes = 2) → lanes < s.getF (F.FAB_Pp_STATUS_LANES p) →
      ∃ t, exec (.laneRetrain p lanes true) s = .next t ∧ (t.fport p).retrain = false ∧ t.getF (F.FAB_Pp_STATUS_LANES p) = lanes ∧
        t.portUp p = true ∧ t.mem = s.mem) ∧
    (s.portUp p = true → (s.fport p).replay ≠ [] → (s.fport p).retrain = false → (s.fport p).tries < 8 →
      ∃ t, exec (.replayTimeout p) s = .next t ∧ t.fport p = { s.fport p with tries := (s.fport p).tries + 1 } ∧
        t.getF (F.FAB_Pp_ERR_REPLAY p) = min (s.getF (F.FAB_Pp_ERR_REPLAY p) + 1) 65535 ∧ FabricOnly s t ∧ ∀ q, q ≠ p → t.fport q = s.fport q) ∧
    (s.portUp p = true → ∃ t, exec (.idleSend p) s = .next t ∧ t.queued p (s.peerFlit 2 0x1F 0 []) ∧ FabricOnly s t ∧ t.regs = s.regs ∧
      ∀ q, q ≠ p → t.fport q = s.fport q)

/-- Lost ports, parents and walls (R336, R356, R357, R360): a lost port is down with its cause, its flits are dropped and counted, it is an
edge, and the host is told; DETACH drops every link; an abandoned parent leaves the device without one. -/
def Claim.LostPorts : Prop :=
  ∀ s : State,
    (∀ p cause, p < 4 → cause < 8 → s.portUp p = true → ∃ t, exec (.portLost p cause) s = .next t ∧ t.portUp p = false ∧
      t.getF (F.FAB_Pp_STATUS_LANES p) = 0 ∧ t.getF (F.FAB_Pp_LOSS_CAUSE p) = cause ∧
      t.getF (F.FAB_Pp_LOSS_COUNT p) = min (s.getF (F.FAB_Pp_LOSS_COUNT p) + 1) 65535 ∧
      t.getF F.FAB_EVT_DROP = min (s.getF F.FAB_EVT_DROP + ((s.fport p).tx.length + (s.fport p).replay.length)) 65535 ∧ t.fport p = {} ∧
      (∀ q, q ≠ p → t.fport q = s.fport q) ∧ t.mem = s.mem ∧ t.flag F.CMD_IRQ_FAB = true ∧
      ((s.dom s.leadDom).run = true → p ∈ t.fab.edgeNext) ∧ ((s.dom s.leadDom).run = false → t.portEdge p = true) ∧
      (s.flag F.FAB_PARENT_VALID = true → s.getF F.FAB_PARENT_PORT = p → t.flag F.FAB_PARENT_VALID = false ∧ t.fab.orphan = true)) ∧
    (∀ p, p < 4 → s.portUp p = true → (s.fport p).replay ≠ [] → (s.fport p).retrain = false → 8 ≤ (s.fport p).tries →
      ∃ t, exec (.replayTimeout p) s = .next t ∧ t.portUp p = false ∧ t.getF (F.FAB_Pp_LOSS_CAUSE p) = 3 ∧ t.fport p = {}) ∧
    (s.fab.disc = .joined → s.flag F.FAB_STATUS_ORIGIN = false → s.beaconPort ≠ none → ∃ t, exec .parentAbandon s = .next t ∧
      t.flag F.FAB_PARENT_VALID = false ∧ t.fab.orphan = true ∧ t.beaconPort = none ∧ FabricOnly s t) ∧
    (s.flag F.FAB_STATUS_JOINED = true → s.flag F.FAB_STATUS_ORIGIN = false → ∃ t, exec .detach s = .next t ∧
      t.flag F.FAB_STATUS_DETACHED = true ∧ t.flag F.FAB_STATUS_JOINED = false ∧ t.flag F.FAB_TIME_LOCK = false ∧
      t.flag F.FAB_PARENT_VALID = false ∧ t.fab.disc = .unjoined ∧ t.upPorts = [] ∧ t.mem = s.mem ∧ t.flag F.CMD_IRQ_FAB = true)

/-- Flits, links and lost ports (R330 to R336, R356, R357, R360).
The model's own choices and readings in it: log entry 135. -/
def Obligations.FlitsLinksAndPorts : Prop :=
  Claim.FlitAcceptance ∧ Claim.LinkEvents ∧ Claim.LostPorts

/-- Flits of discovery (R337 to R340): a better key is passed on; the first offer gives the coordinates, a differing one makes its port an edge, and
one from the wrong port is miswired; accepts note children and their counts, and a complete subtree is reported to the parent. -/
def Claim.DiscoveryFlits : Prop :=
  ∀ (f : FlitIn) (s r : State), s.accepts f 2 r →
    (r.anyDomain = false → r.fab.disc = .electing → fieldAt f.payload 33 1 * 2 ^ 128 + fieldAt f.payload 17 16 < r.fab.best →
      ∃ t, exec (.fabricHello f) s = .next t ∧ t.fab.best = fieldAt f.payload 33 1 * 2 ^ 128 + fieldAt f.payload 17 16 ∧
        (∀ p ∈ r.upPorts, p ≠ f.port → t.queued p t.hello) ∧ t.fab.disc = .electing ∧ FabricOnly r t ∧ t.regs = r.regs) ∧
    (r.anyDomain = true → ∃ t, exec (.fabricHello f) s = .next t ∧ t = r.losePort f.port 6) ∧
    (∀ pp, pp ≠ opposite f.port → ∃ t, exec (.offer f pp) s = .next t ∧ t.flag (F.FAB_Pp_STATUS_MISWIRED f.port) = true ∧ t.fab = r.fab ∧ FabricOnly r t) ∧
    (∀ x y, x = fieldAt f.payload 0 1 % 64 → y = fieldAt f.payload 1 1 % 64 → r.fab.disc = .waiting → inRange (impliedAt f.port x y) = true →
      ∃ t, exec (.offer f (opposite f.port)) s = .next t ∧ t.fab.disc = .offered ∧ coord t.ownX = (impliedAt f.port x y).1 ∧
        coord t.ownY = (impliedAt f.port x y).2 ∧ t.fab.offers = r.fab.offers ++ [(f.port, x, y, fieldAt f.payload 2 1)] ∧
        t.getF (F.FAB_Pp_STATUS_PEER_X f.port) = x ∧ t.getF (F.FAB_Pp_STATUS_PEER_Y f.port) = y ∧ FabricOnly r t) ∧
    (∀ x y, x = fieldAt f.payload 0 1 % 64 → y = fieldAt f.payload 1 1 % 64 → r.fab.disc = .offered →
      ∃ t, exec (.offer f (opposite f.port)) s = .next t ∧ FabricOnly r t ∧ t.reg R.FAB_COORD = r.reg R.FAB_COORD ∧
        (impliedAt f.port x y = (coord r.ownX, coord r.ownY) → t.fab.offers = r.fab.offers ++ [(f.port, x, y, fieldAt f.payload 2 1)]) ∧
        (impliedAt f.port x y ≠ (coord r.ownX, coord r.ownY) → t.portEdge f.port = true ∧ t.fab.offers = r.fab.offers)) ∧
    (∀ wall, fieldAt f.payload 0 1 = 1 → r.fab.join = false → ∃ t, exec (.accept f wall) s = .next t ∧ f.port ∈ t.fab.children ∧ FabricOnly r t ∧
      t.regs = r.regs) ∧
    (∀ wall r', fieldAt f.payload 0 1 = 2 → r.fab.reported = false → r.fab.disc = .joined → r.flag F.FAB_STATUS_ORIGIN = false →
      r' = r.setFab { r.fab with counts := (r.fab.counts.filter (fun c => c.1 != f.port)) ++ [(f.port, fieldAt f.payload 4 2)] } → r'.subtreeDone = true →
      ∃ t, exec (.accept f wall) s = .next t ∧ t.fab.reported = true ∧
        t.queued (r.getF F.FAB_PARENT_PORT) (r.acceptFlit 2 (1 + countSum r'.fab.counts)) ∧ FabricOnly r t)

/-- The timers of discovery (R337 to R340): the election ends, the offer window fixes parent and depth, or no offer comes. -/
def Claim.DiscoveryTimers : Prop :=
  ∀ s : State,
    (s.fab.disc = .electing → s.fab.best / 2 ^ 128 = 2 → ∃ t, exec .discoverySettle s = .next t ∧ t.fab.disc = .failed ∧ t.mem = s.mem) ∧
    (s.fab.disc = .electing → s.fab.best / 2 ^ 128 ≠ 2 → s.fab.best = s.ownKey → ∃ t, exec .discoverySettle s = .next t ∧
      t.flag F.FAB_STATUS_ORIGIN = true ∧ t.fab.disc = .joined ∧ (∀ p ∈ s.upPorts, t.queued p s.offer) ∧ t.mem = s.mem) ∧
    (s.fab.disc = .electing → s.fab.best / 2 ^ 128 ≠ 2 → s.fab.best ≠ s.ownKey → ∃ t, exec .discoverySettle s = .next t ∧
      t.fab.disc = .waiting ∧ FabricOnly s t ∧ t.regs = s.regs) ∧
    (∀ depth p, s.fab.disc = .offered → bestOffer (s.fab.offers.filter (fun o => s.portOpen o.1)) = some (depth, p) → p < 4 → depth < 127 →
      ∃ t, exec .offerWindowEnd s = .next t ∧ t.fab.disc = .joined ∧ t.flag F.FAB_PARENT_VALID = true ∧ t.getF F.FAB_PARENT_PORT = p ∧
        t.getF F.FAB_STATUS_DEPTH = depth + 1 ∧ t.queued p (s.acceptFlit 1 0) ∧ t.mem = s.mem) ∧
    (∀ c : HostCmd, s.fab.disc = .waiting → s.host.background = [c] → c.opcode = 0x19 → c.origin = .host → ∃ t x, exec .noOfferTimeout s = .next t ∧
      t.fab.disc = .unjoined ∧ t.host.background = [] ∧ t.host.cpl = s.host.cpl ++ [x] ∧ x.seq = c.seq ∧ x.code = ccUnreachable ∧ t.mem = s.mem)

/-- FABRIC_DISCOVER (R337, R340): FULL clears the wall and begins the election on every port, unless a domain is enabled; JOIN outside a wall waits
for an offer, and in a wall waits for its round. -/
def Claim.DiscoverCommands : Prop :=
  ∀ (c : HostCmd) (s : State), s.fronts c 0x19 →
    (c.arg 0 = 0 → s.anyDomain = true → ∃ t, exec .fabricDiscoverFull s = .next t ∧ Completed c ccState 0 s t ∧ t.regs = s.regs ∧ t.fab = s.fab) ∧
    (c.arg 0 = 0 → s.anyDomain = false → s.host.background = [] → ∃ t, exec .fabricDiscoverFull s = .next t ∧ t.fab.disc = .electing ∧
      t.fab.best = s.ownKey ∧ t.reg R.FAB_STATUS = 0#32 ∧ t.reg R.FAB_COORD = 0#32 ∧ t.reg R.FAB_WALL = 0#32 ∧ t.reg R.FAB_PARENT = 0#32 ∧
      t.host.background = [c] ∧ t.host.cpl = s.host.cpl ∧ (∀ p ∈ s.upPorts, t.queued p t.hello) ∧ t.mem = s.mem) ∧
    (c.arg 0 = 1 → s.flag F.FAB_STATUS_JOINED = false → s.anyDomain = false → c.flags.testBit 0 = false → s.host.background = [] →
      ∃ t, exec .fabricDiscoverJoin s = .next t ∧ t.fab.disc = .waiting ∧ t.fab.join = true ∧ t.host.background = [c] ∧ t.host.cpl = s.host.cpl ∧
        t.mem = s.mem) ∧
    (c.arg 0 = 1 → s.flag F.FAB_STATUS_JOINED = true → c.flags.testBit 1 = false → s.admits c 2 → ∃ t, exec .fabricDiscoverJoin s = .next t ∧
      WaitsFor c c.due s.leadDom [] s t ∧ t.fab.join = true ∧ (∀ p ∈ s.upPorts, s.portEdge p = true → t.queued p s.offer))

/-- Discovery (R337 to R340).
The model's own choices and readings in it: log entries 127, 128, 130, 133. -/
def Obligations.Discovery : Prop :=
  Claim.DiscoveryFlits ∧ Claim.DiscoveryTimers ∧ Claim.DiscoverCommands

/-- Beacons (R349 to R352, R355): the time source sends them every 1,024 ticks; an accepted one is relayed, its offset shown, and steers the clock within
the range of R351, or steps the counter once. -/
def Claim.Beacons : Prop :=
  (∀ (tick : Nat) (s : State), s.flag F.FAB_STATUS_ORIGIN = true → s.flag F.FAB_STATUS_JOINED = true → tick % 1024 = 0 → s.now ≤ tick →
    ∃ t b, exec (.beaconSend tick) s = .next t ∧ t.now = tick ∧ t.fab.bseq = s.fab.bseq + 1 ∧ t.fab.last = some b ∧ b.bseq = s.fab.bseq + 1 ∧
      b.hops = 0 ∧ b.announce = s.fab.announce ∧ (∀ p ∈ s.openPorts, t.queued p (s.peerFlit 0 0x00 0 (b.bytes tick 0))) ∧ t.regs = s.regs ∧ t.mem = s.mem) ∧
  (∀ (f : FlitIn) (tick frac : Nat) (s r : State), tick ≤ s.now → s.accepts f 0 r → r.fab.disc = .joined → r.flag F.FAB_STATUS_ORIGIN = false →
    r.portOpen f.port = true →
    (r.beaconPort = some f.port → ∃ t, exec (.beacon f tick frac []) s = .next t ∧ t.fab.bseq = fieldAt f.payload 0 8 ∧ t.flag F.TB_STATUS_FAB_TIME = true ∧
      (signedOf 16 (t.getF F.FAB_TIME_STEER)).natAbs ≤ 25600 ∧ t.mem = s.mem ∧
      (r.fab.stepNext = false → t.now = r.now ∧ ∀ diff : Int,
        diff = Int.ofNat (r.now * 16 + frac % 16) - Int.ofNat (fieldAt f.payload 8 8 * 16 + fieldAt f.payload 16 4 + r.getF (F.FAB_Pp_DELAY_DELAY f.port)) →
          t.getF F.FAB_TIME_OFS_OFFSET = wrapTo 32 diff ∧ (diff.natAbs ≤ 2 → t.fab.good = r.fab.good + 1 ∧ (15 ≤ r.fab.good → t.flag F.FAB_TIME_LOCK = true)) ∧
          (2 < diff.natAbs → t.fab.good = 0) ∧ (1024 < diff.natAbs → t.flag F.FAB_TIME_LOCK = false)) ∧
      (r.fab.stepNext = true → r.anyDomain = false → t.fab.stepNext = false ∧ t.getF F.FAB_TIME_OFS_OFFSET = 0 ∧
        t.now = (fieldAt f.payload 8 8 * 16 + fieldAt f.payload 16 4 + r.getF (F.FAB_Pp_DELAY_DELAY f.port)) / 16) ∧
      (∃ b resides, t.fab.last = some b ∧ resides ≤ 1600 ∧ b.hops = r.getF F.FAB_STATUS_DEPTH ∧ ∀ p ∈ r.openPorts, p ≠ f.port →
        t.queued p (r.peerFlit 0 0x00 0 (b.bytes (fieldAt f.payload 8 8) (fieldAt f.payload 16 4 + r.getF (F.FAB_Pp_DELAY_DELAY f.port) + resides))))) ∧
    (r.beaconPort = none → r.fab.orphan = true → r.fab.bseq < fieldAt f.payload 0 8 → (r.dom r.leadDom).run = false →
      ∃ t, exec (.beacon f tick frac []) s = .next t ∧ t.fab.orphan = false ∧ t.flag F.FAB_PARENT_VALID = true ∧ t.getF F.FAB_PARENT_PORT = f.port ∧
        t.getF F.FAB_TIME_CNT_SWITCH = min (r.getF F.FAB_TIME_CNT_SWITCH + 1) 65535 ∧ t.fab.bseq = fieldAt f.payload 0 8 ∧ t.mem = s.mem))

/-- Link delays (R350): a request is answered at once; sixteen exchanges give a delay between the least and the greatest of them. -/
def Claim.LinkDelays : Prop :=
  ∀ (f : FlitIn) (s r : State), s.accepts f 0 r →
    (∀ rx tx, rx ≤ tx → ∃ t, exec (.delayRequest f rx tx) s = .next t ∧
      t.queued f.port (r.peerFlit 0 0x02 0 (f.payload.take 8 ++ leBytes 8 rx ++ leBytes 8 tx)) ∧ FabricOnly r t ∧ t.regs = r.regs) ∧
    (∀ rx x, x = ((rx - fieldAt f.payload 0 8) - (fieldAt f.payload 16 8 - fieldAt f.payload 8 8)) / 2 →
      ((r.fport f.port).samples.length < 15 → ∃ t, exec (.delayResponse f rx) s = .next t ∧
        (t.fport f.port).samples = (r.fport f.port).samples ++ [x] ∧ FabricOnly r t ∧ t.regs = r.regs) ∧
      ((r.fport f.port).samples.length = 15 → ∃ t, exec (.delayResponse f rx) s = .next t ∧ (t.fport f.port).samples = [] ∧
        (∀ lo hi, hi < 2 ^ 32 → (∀ y ∈ (r.fport f.port).samples ++ [x], lo ≤ y ∧ y ≤ hi) →
          lo ≤ t.getF (F.FAB_Pp_DELAY_DELAY f.port) ∧ t.getF (F.FAB_Pp_DELAY_DELAY f.port) ≤ hi)))

/-- Fabric time (R349 to R356).
The model's own choices and readings in it: log entries 131, 132. -/
def Obligations.FabricTime : Prop :=
  Claim.Beacons ∧ Claim.LinkDelays

/-- Data flits (R344, R345, R348): a halo write from the neighbour lands under its window, a write and a read through the exported window act on its
address, a refused write is counted, and a pixel flit waits in its line. -/
def Claim.DataFlits : Prop :=
  ∀ (f : FlitIn) (s r : State),
    (s.accepts f 1 r → ∀ n off, n = bitsOf f.arg 24 21 → off = bitsOf f.arg 20 5 * 64 → f.payload.length = 64 → r.portOpen f.port = true →
      f.dx % 64 = r.ownX → f.dy % 64 = r.ownY → f.sx % 64 = r.getF (F.FAB_Pp_STATUS_PEER_X f.port) → f.sy % 64 = r.getF (F.FAB_Pp_STATUS_PEER_Y f.port) →
      r.power.tensorOff = false → r.unitUsable n = true → r.banksOn n off 64 = true → r.windowOpen n (16 + f.port) off (off + 64) = true →
      r.bankInit n (bankOf off) = true → ∃ t, exec (.haloWrite f) s = .next t ∧ t.memBytes (sliceAddr n off) 64 = f.payload ∧
        ∀ a, a < sliceAddr n off ∨ sliceAddr n off + 64 ≤ a → t.memByte a = r.memByte a) ∧
    (s.accepts f 1 r → (f.sx % 64 ≠ r.getF (F.FAB_Pp_STATUS_PEER_X f.port) ∨ f.dx % 64 ≠ r.ownX) → ∃ t, exec (.haloWrite f) s = .next t ∧
      t.getF F.FAB_EVT_DROP = min (r.getF F.FAB_EVT_DROP + 1) 65535 ∧ t.mem = r.mem ∧ t.rings = r.rings) ∧
    (s.acceptsHere f 4 r → r.exportRefuses f.arg true = false → f.arg.testBit 22 = false → f.payload.length = 64 → ∃ t, exec (.bulkWrite f) s = .next t ∧
      t.memBytes (r.exportAddr f.arg) f.payload.length = f.payload ∧
      ∀ a, a < r.exportAddr f.arg ∨ r.exportAddr f.arg + f.payload.length ≤ a → t.memByte a = r.memByte a) ∧
    (s.acceptsHere f 4 r → r.exportRefuses f.arg true = true → f.arg.testBit 22 = false → ∃ t, exec (.bulkWrite f) s = .next t ∧
      t.getF F.FAB_EVT_REFUSED = min (r.getF F.FAB_EVT_REFUSED + 1) 65535 ∧ t.mem = r.mem) ∧
    (s.acceptsHere f 4 r → ∀ q s1 bs bad, r.exportRefuses (bitsOf f.arg 21 0) false = false → fieldAt f.payload 0 1 = 1 →
      r.readDram (r.exportAddr (bitsOf f.arg 21 0)) 64 = (s1, bs, bad) → q = r.routePort f.sx f.sy → r.portOpen q = true →
      ∃ t, exec (.readRequest f) s = .next t ∧ t.queued q (r.ownFlit 4 0x1A f.sx f.sy (bitsOf f.arg 21 0 + errBit bad) bs) ∧ t.mem = s1.mem) ∧
    (s.acceptsHere f 3 r → r.isCapture (bitsOf f.arg 24 19) = false → ∃ t, exec (.pixelData f) s = .next t ∧
      t.getF F.FAB_EVT_DROP = min (r.getF F.FAB_EVT_DROP + 1) 65535 ∧ t.mem = r.mem) ∧
    (s.acceptsHere f 3 r → ∀ n, n = bitsOf f.arg 24 19 → r.isCapture n = true → r.getF (F.STR_n_FRM_CFG_SRC n) = 2 → r.flag (F.STR_n_STATUS_SHED n) = false →
      (r.strm n).sender = some (f.sy % 64 * 64 + f.sx % 64) → f.arg.testBit 4 = false → f.arg.testBit 3 = false →
      ∃ t, exec (.pixelData f) s = .next t ∧ (t.strm n).part = (r.strm n).part ++ f.payload ∧ t.mem = r.mem ∧ t.regs = r.regs)

/-- Answers to a mover's remote accesses (R344): a block read is gathered, an acknowledgement noted, an error bit or a timeout fails the transfer. -/
def Claim.RemoteAnswers : Prop :=
  ∀ (m : Nat) (d : MoverDesc) (x : Remote) (r : State), m < 16 → (r.mover m).busy = [d] → (∀ j, j < m → (r.mover j).busy = []) → d.remote = some x →
    mKind d.words ≠ 2 → (∀ j e y, e ∈ (r.mover j).busy → e.remote = some y → y.later = []) →
    (∀ (f : FlitIn) (s : State), s.acceptsHere f 4 r → x.dev = flitDev f → x.failed = false →
      (windowAddr (flitDev f) (bitsOf f.arg 21 0) ∈ x.need → ∃ t y, exec (.readResponse f) s = .next t ∧
        (t.mover m).busy = [{ d with remote := some y }] ∧ y.need = x.need.erase (windowAddr (flitDev f) (bitsOf f.arg 21 0)) ∧
        y.failed = f.arg.testBit 22 ∧ (f.arg.testBit 22 = false → y.got = mergeBytes x.got (windowAddr (flitDev f) (bitsOf f.arg 21 0)) f.payload) ∧
        (∀ j, j ≠ m → t.mover j = r.mover j) ∧ t.mem = r.mem ∧ t.regs = r.regs) ∧
      (x.ack = true → ∃ t, exec (.writeAcknowledgement f) s = .next t ∧
        (t.mover m).busy = [{ d with remote := some { x with ack := false, failed := f.arg.testBit 22 } }] ∧
        (∀ j, j ≠ m → t.mover j = r.mover j) ∧ t.mem = r.mem ∧ t.regs = r.regs)) ∧
    (d.outstanding = true → ∃ t, exec (.fabricResponseTimeout m) r = .next t ∧ (t.mover m).busy = [{ d with remote := some { x with failed := true } }] ∧
      (∀ j, j ≠ m → t.mover j = r.mover j) ∧ t.mem = r.mem ∧ t.regs = r.regs)

/-- Halos, remote accesses and pixels over the fabric (R344, R345, R348).
The model's own choices and readings in it: log entries 40, 126. -/
def Obligations.FabricData : Prop :=
  Claim.DataFlits ∧ Claim.RemoteAnswers

/-- Control flits (R347, R359, R376): a slot waits for the next poll point, a fence write sets its counter, a ready flag is kept by the time source. -/
def Claim.ControlFlits : Prop :=
  ∀ (f : FlitIn) (s r : State), s.acceptsHere f 2 r →
    (∃ t, exec (.fabricCommand f) s = .next t ∧ t.host.flitSlots = r.host.flitSlots ++
        [slotCmd f.payload (.fabric (f.sx % 64) (f.sy % 64) (fieldAt f.payload 0x10 4))] ∧ t.host.taken = r.host.taken ∧ t.regs = r.regs ∧ t.mem = r.mem) ∧
    (∃ t, exec (.fenceWrite f) s = .next t ∧ t.getF (F.CMP_FENCE_k_VALUE (f.arg % 64)) = fieldAt f.payload 0 4 ∧
      (∀ k, k < 64 → k ≠ f.arg % 64 → t.getF (F.CMP_FENCE_k_VALUE k) = r.getF (F.CMP_FENCE_k_VALUE k)) ∧
      t.raster.flips = stampFlips (f.arg % 64) (fieldAt f.payload 0 4) r.now r.raster.flips ∧ t.mem = r.mem ∧ t.host = r.host) ∧
    (r.flag F.FAB_STATUS_ORIGIN = true → ∃ t, exec (.readyFlag f) s = .next t ∧
      t.fab.ready = r.fab.ready ++ [(flitDev f, fieldAt f.payload 0 6, fieldAt f.payload 6 1 % 4)] ∧ FabricOnly r t ∧ t.regs = r.regs) ∧
    (∀ w : Forward, (fieldAt f.payload 6 1).testBit 1 = false → r.host.forwards = [w] → w.dev = flitDev f → w.tag = fieldAt f.payload 8 4 →
      (fieldAt f.payload 4 1 = 0x1B → w.taken = false → w.cmd.origin = .host → w.cmd.flags.testBit 3 = false → ∃ t x, exec (.fabricCompletion f) s = .next t ∧
        t.host.forwards = [{ w with taken := true }] ∧ t.host.cpl = r.host.cpl ++ [x] ∧ x.seq = w.cmd.seq ∧ x.code = 0 ∧ t.mem = r.mem) ∧
      (fieldAt f.payload 4 1 ≠ 0x1B → w.taken = true → w.opcode = fieldAt f.payload 4 1 → ∃ t x, exec (.fabricCompletion f) s = .next t ∧
        t.host.forwards = [] ∧ t.host.cpl = r.host.cpl ++ [x] ∧ x.seq = w.cmd.seq ∧ x.code = fieldAt f.payload 5 1 ∧ x.vec = w.vec ∧
        x.result = fieldAt f.payload 0x18 8 ∧ t.mem = r.mem))

/-- Forwarding and routes (R342, R347): FABRIC_FORWARD sends its slot toward the target and completes when the target has taken it, or with UNREACHABLE;
ROUTE_SET waits for its round with the entries it has read; a fence write by the host sets its counter. -/
def Claim.ForwardsAndRoutes : Prop :=
  ∀ (c : HostCmd) (s : State),
    (s.fronts c 0x1B → c.arg 0 < 16384 → (c.arg 0).testBit 6 = false → (c.arg 0).testBit 7 = false → ∀ x y, x = c.arg 0 % 64 → y = c.arg 0 / 256 →
      (x ≠ s.ownX ∨ y ≠ s.ownY) → s.flag F.PCI_STATUS_BME = true → ∃ t w, exec (.fabricForward false) s = .next t ∧
        t.host.forwards = s.host.forwards ++ [w] ∧ w.cmd = c ∧ w.dev = y * 64 + x ∧ w.taken = false ∧ t.host.cpl = s.host.cpl ∧ t.host.taken = [] ∧
        (s.portOpen (s.routePort x y) = true → t.queued (s.routePort x y) (s.ownFlit 2 0x0B x y 0 (s.hostBytes (argAddr c 1) 64))) ∧ t.mem = s.mem) ∧
    (s.fronts c 0x1B → c.arg 0 = s.ownY * 256 + s.ownX → ∃ t, exec (.fabricForward false) s = .next t ∧ Completed c ccFormat 0 s t ∧
      t.host.forwards = s.host.forwards) ∧
    (∀ w : Forward, s.host.forwards = [w] → w.taken = false → w.cmd.origin = .host → ∃ t x, exec (.forwardTimeout w.cmd.seq) s = .next t ∧
      t.host.forwards = [] ∧ t.host.cpl = s.host.cpl ++ [x] ∧ x.seq = w.cmd.seq ∧ x.code = ccUnreachable ∧ t.mem = s.mem ∧ t.regs = s.regs) ∧
    (s.fronts c 0x1A → (c.arg 1 = 0 ∨ 64 < c.arg 0 + c.arg 1) → ∃ t, exec (.routeSet false) s = .next t ∧ Completed c ccFormat 0 s t ∧ t.regs = s.regs) ∧
    (s.fronts c 0x1A → 0 < c.arg 1 → c.arg 0 + c.arg 1 ≤ 64 → s.flag F.PCI_STATUS_BME = true → c.flags.testBit 1 = false → s.admits c 1 →
      ∀ b, b = s.hostBytes (argAddr c 2) (8 * c.arg 1) → routesBad b (c.arg 1) = false →
        ∃ t, exec (.routeSet false) s = .next t ∧ WaitsFor c c.due s.leadDom b s t ∧ t.mem = s.mem) ∧
    (∀ (k : Nat) (v : Word32), k < 64 → ∃ t, exec (.cmpFenceWrite k v .host) s = .next t ∧ t.getF (F.CMP_FENCE_k_VALUE k) = v.toNat ∧
      (∀ j, j < 64 → j ≠ k → t.getF (F.CMP_FENCE_k_VALUE j) = s.getF (F.CMP_FENCE_k_VALUE j)) ∧
      t.raster.flips = stampFlips k v.toNat s.now s.raster.flips ∧ t.mem = s.mem ∧ t.host = s.host) ∧
    (∀ (k : Nat) (v : Word32) (who : Requester), k < 64 → who ≠ .host → who ≠ .rulebook → ∃ t, exec (.cmpFenceWrite k v who) s = .next t ∧ t = s)

/-- Commands, fences and flags over the fabric (R342, R347, R359, R376).
The model's own choices and readings in it: log entries 109, 122, 125. -/
def Obligations.FabricControl : Prop :=
  Claim.ControlFlits ∧ Claim.ForwardsAndRoutes


/-! ### Domains, turns and rounds -/

/-- Triggers (R45, R46, R300): software triggers and sync edges are stamped for the running domains whose source they are, the phase pin stamps every running domain,
and the panel sync monitor counts an edge within its lines. -/
def Claim.Triggers : Prop :=
  ∀ s : State,
    (∀ v : Word32, ∃ t, exec (.tbSwtrig v) s = .next t ∧ t.regs = s.regs ∧ t.mem = s.mem ∧ ∀ n, n < 4 → t.dom n =
      if (s.dom n).on = true ∧ (s.dom n).set.src = 9 ∧ v.toNat.testBit n = true then { s.dom n with trigs := (s.dom n).trigs ++ [s.now] } else s.dom n) ∧
    (∀ rising tick, ∃ t, exec (.syncPinEdge 1 rising tick) s = .next t ∧ t.now = max s.now tick ∧ t.regs = s.regs ∧ t.mem = s.mem ∧
      ∀ n, n < 4 → t.dom n = if (s.dom n).on = true then { s.dom n with lphase := some tick } else s.dom n) ∧
    (∀ rising tick, ∃ t, exec (.syncPinEdge 0 rising tick) s = .next t ∧ t.now = max s.now tick ∧ t.regs = s.regs ∧ t.mem = s.mem ∧
      ∀ n, n < 4 → t.dom n = if (s.dom n).on = true ∧ (s.dom n).set.src = 1 ∧ (s.dom n).set.edge ≠ rising then
        { s.dom n with trigs := (s.dom n).trigs ++ [tick] } else s.dom n) ∧
    (∀ pin rising tick, 2 ≤ pin → pin < 6 → ∃ t, exec (.syncPinEdge pin rising tick) s = .next t ∧ t.now = max s.now tick ∧ t.mem = s.mem ∧
      ∀ n, n < 4 → t.dom n = (if (s.dom n).on = true ∧ (s.dom n).set.src = pin + 2 ∧ (s.dom n).set.edge ≠ rising then
          { s.dom n with trigs := (s.dom n).trigs ++ [tick] } else s.dom n) ∧
        t.getF (F.TB_Dn_TEAR_COUNT n) = if s.flag (F.TB_Dn_PSMON_EN n) = true ∧ s.getF (F.TB_Dn_PSMON_PIN n) = pin - 2 ∧ s.flag (F.TB_Dn_PSMON_EDGE n) ≠ rising ∧
            (s.dom n).run = true ∧ (s.dom n).start + s.getF (F.TB_Dn_VSCAN_V_START n) * s.turnLen n ≤ tick ∧
            tick < (s.dom n).start + s.getF (F.TB_Dn_VSCAN_V_START n) * s.turnLen n + s.getF (F.TB_Dn_PSMON_LINES n) * s.turnLen n
          then min (s.getF (F.TB_Dn_TEAR_COUNT n) + 1) (2 ^ 32 - 1) else s.getF (F.TB_Dn_TEAR_COUNT n))

/-- The frame-start decision (R43 to R47): with fixed cadence every boundary starts a round, with a trigger the earliest stamped by the decision tick does, at
the last boundary a repeat does, and otherwise the next boundary is looked at. -/
def Claim.FrameStarts : Prop :=
  ∀ (n : Nat) (s : State), n < 4 → (s.dom n).on = true → (s.dom n).decided = none →
    ((s.dom n).set.src = 0 → ∃ t, exec (.decisionTick n) s = .next t ∧ t.dom n = { s.dom n with decided := some ⟨(s.dom n).cand, false, none⟩ } ∧
      (∀ m, m ≠ n → t.dom m = s.dom m) ∧ t.regs = s.regs ∧ t.mem = s.mem) ∧
    (∀ stamp, (s.dom n).set.src ≠ 0 → (s.dom n).set.src ≠ 8 → earliest (s.decisionTick n) (s.dom n).trigs = some stamp →
      ∃ t, exec (.decisionTick n) s = .next t ∧ t.dom n = { s.dom n with decided := some ⟨(s.dom n).cand, false, some stamp⟩ } ∧
        (∀ m, m ≠ n → t.dom m = s.dom m) ∧ t.regs = s.regs ∧ t.mem = s.mem) ∧
    ((s.dom n).set.src ≠ 0 → (s.dom n).set.src ≠ 8 → earliest (s.decisionTick n) (s.dom n).trigs = none → ∃ t, exec (.decisionTick n) s = .next t ∧
      t.dom n = (if (s.dom n).run = true ∧ (s.dom n).start + ((s.dom n).set.vtMax + 1) * s.turnLen n ≤ (s.dom n).cand
        then { s.dom n with decided := some ⟨(s.dom n).cand, true, none⟩ } else { s.dom n with cand := (s.dom n).cand + s.turnLen n }) ∧
      (∀ m, m ≠ n → t.dom m = s.dom m) ∧ t.regs = s.regs ∧ t.mem = s.mem) ∧
    (∀ a, (s.dom n).set.src = 8 → (s.dom n).announced.find? (fun a => a.start == (s.dom n).cand) = some a → ∃ t, exec (.decisionTick n) s = .next t ∧
      t.dom n = { s.dom n with decided := some ⟨(s.dom n).cand, a.isRepeat, none⟩ } ∧ t.regs = s.regs ∧ t.mem = s.mem)

/-- A boundary of the turn grid (R36, R39): the turn counts on, from 0 at a round's first boundary, and in the lead domain its mark goes to the tensor side; a
domain that is not enabled has none. -/
def Claim.Turns : Prop :=
  ∀ (n : Nat) (lost : List Nat) (ups : List (Nat × Bool)) (fl : List (Nat × Nat)) (s : State),
    ((s.dom n).on = false → ∃ t, exec (.rasterTurnBoundary n lost ups fl) s = .next t ∧ t = (s.strike ups).strikeCv fl) ∧
    ((s.dom n).on = true → (s.dom n).run = false → (s.dom n).decided = none → (s.dom n).next < (s.dom n).cand →
      ∃ t, exec (.rasterTurnBoundary n lost ups fl) s = .next t ∧ t.dom n = { s.dom n with next := (s.dom n).next + s.turnLen n } ∧
        t.now = max s.now (s.dom n).next ∧ t.regs = s.regs ∧ t.mem = s.mem) ∧
    ((s.dom n).on = true → (s.dom n).run = true →
      ((s.dom n).fresh = true ∨ ((s.dom n).decided = none ∧ (s.dom n).next < (s.dom n).cand) ∨ ∃ x, (s.dom n).decided = some x ∧ (s.dom n).next < x.at_) →
      ∃ t, exec (.rasterTurnBoundary n lost ups fl) s = .next t ∧
        t.dom n = { s.dom n with next := (s.dom n).next + s.turnLen n, turn := if (s.dom n).fresh = true then 0 else (s.dom n).turn + 1,
                                 turnStart := (s.dom n).next, fresh := false, inTurn := true } ∧
        t.now = max s.now (s.dom n).next ∧ (∀ m, m ≠ n → t.dom m = s.dom m) ∧
        (n = s.leadDom → s.getF F.PWR_STATE_STATE ≠ 2 → t.tt.marks = s.tt.marks ++
          [⟨(s.dom n).round, if (s.dom n).fresh = true then 0 else (s.dom n).turn + 1, (s.dom n).isRepeat, (s.dom n).next + s.turnLen n⟩]))

/-- Triggers, decisions and turns (R36 to R47, R300).
The model's own choices and readings in it: log entry 137. -/
def Obligations.TurnsAndDecisions : Prop :=
  Claim.Triggers ∧ Claim.FrameStarts ∧ Claim.Turns

/-- A round boundary (R40 to R42, R47, R50, R472): the decided round begins with the settings that the registers give, its earliest end follows, and the
finished round is reported; a domain that was stopped ends there. -/
def Claim.RoundStarts : Prop :=
  ∀ (n : Nat) (s : State) (x : Decision), (s.dom n).on = true → (s.dom n).decided = some x → x.at_ = (s.dom n).next → (s.dom n).fresh = false →
    ((s.getF F.TB_CTRL_DOM_EN).testBit n = false → ∃ t, exec (.roundBoundary n) s = .next t ∧ (t.dom n).on = false ∧ (t.dom n).run = false ∧
      (t.dom n).decided = none ∧ (t.dom n).nextRound = (s.dom n).afterStop ∧ (∀ m, m ≠ n → t.dom m = s.dom m) ∧
      (n = s.leadDom → t.tt.running = false ∧ t.tt.marks = [])) ∧
    ((s.getF F.TB_CTRL_DOM_EN).testBit n = true → (s.dom n).set.src ≠ 8 → ∃ t, exec (.roundBoundary n) s = .next t ∧ (t.dom n).on = true ∧ (t.dom n).run = true ∧
      (t.dom n).fresh = true ∧ (t.dom n).round = (s.dom n).following ∧ (t.dom n).isRepeat = x.isRepeat ∧ (t.dom n).start = x.at_ ∧ (t.dom n).set = s.domSet n ∧
      (t.dom n).bmin = x.at_ + ((s.domSet n).vtMin + 1) * s.turnLen n ∧ (t.dom n).cand = (t.dom n).bmin ∧ (t.dom n).decided = none ∧
      (t.dom n).flipsDecided = false ∧ (∀ m, m ≠ n → t.dom m = s.dom m) ∧
      (n < 4 → n ≠ s.leadDom → s.host.due = [] → s.raster.staged = [] → s.raster.flips = [] → (s.dom n).run = true →
        t.getF (F.TB_Dn_LAST_TURNS n) = (s.dom n).turn % 16384 ∧ t.flag (F.TB_Dn_LAST_REPEAT n) = (s.dom n).isRepeat ∧
        t.getF (F.TB_Dn_COUNT_REPEAT n) = if (s.dom n).isRepeat = true then min (s.getF (F.TB_Dn_COUNT_REPEAT n) + 1) (2 ^ 32 - 1)
          else s.getF (F.TB_Dn_COUNT_REPEAT n)))

/-- Flip decisions (R289) and layer fetches (R283): at the tick the sets whose fences are stamped by it are decided; a fetch reads its line and
sends it to the raster die, in the order of its lines, and not before its tick. -/
def Claim.FlipsAndFetches : Prop :=
  (∀ (n : Nat) (s : State), n < 4 → (s.dom n).run = true → (s.dom n).flipsDecided = false → ∃ t, exec (.flipDecision n) s = .next t ∧
    t.dom n = { s.dom n with flipsDecided := true } ∧ t.now = max s.now ((s.dom n).bmin - 18 * s.turnLen n) ∧ t.regs = s.regs ∧ t.mem = s.mem ∧
    t.raster.flips.length = s.raster.flips.length ∧ ∀ (i : Nat) f g, s.raster.flips[i]? = some f → t.raster.flips[i]? = some g →
      g = match f.stamp with
        | some k => if f.dom = n ∧ k ≤ (s.dom n).bmin - 18 * s.turnLen n then { f with decided := true } else f
        | none => f) ∧
  (∀ (n l round line : Nat) (s : State), n < 64 → l < 9 → s.isOutput n = true → (s.dom (s.strDom n)).run = true → s.isShed n = false → s.pstate ≠ 2 →
    (s.strm n).fetchAt.any (fun c => c.1 == l) = true → SMap.get (fun _ => (0, 0)) (s.strm n).fetchAt l = (round, line) → round = (s.dom (s.strDom n)).round →
    line < s.fetchLines n l → (l = 8 ∨ s.layerSrc n l ≠ 1) → s.fetches n l = true → s.bufferedLines n l < 19 →
    s.stripesWait (s.lineSpan n l line none).1 (s.lineSpan n l line none).2 = false →
    (s.now < s.fetchTick n l line (s.dom (s.strDom n)).bmin0 → ∃ t, exec (.layerFetchIssue n l) s = .next t ∧ t = s) ∧
    (s.fetchTick n l line (s.dom (s.strDom n)).bmin0 ≤ s.now →
      (∀ s1 bs bad, s.readLayerLine n l line none = some (s1, bs, bad) → ∃ t, exec (.layerFetchIssue n l) s = .next t ∧ t.mem = s1.mem ∧
        SMap.get (fun _ => (0, 0)) (t.strm n).fetchAt l = (round, line + 1) ∧
        t.raster.dl.toRaster = s1.raster.dl.toRaster ++ [⟨.layerLine round n l line none bs bad, flitsOf bs.length, false, s1.now, none⟩]) ∧
      (s.readLayerLine n l line none = none → ∃ t, exec (.layerFetchIssue n l) s = .next t ∧
        SMap.get (fun _ => (0, 0)) (t.strm n).fetchAt l = (round, line + 1) ∧ t.raster.dl = s.raster.dl ∧ t.mem = s.mem ∧ t.regs = s.regs)))

/-- Round boundaries, flip decisions and layer fetches (R40 to R50, R283, R289).
The model's own choices and readings in it: log entries 136, 142, 206. -/
def Obligations.RoundBoundaries : Prop :=
  Claim.RoundStarts ∧ Claim.FlipsAndFetches

/-- A delivered mark starts its turn; one that no module delivered is counted, and the turn it was assumed for starts unmarked; a mark that
does not follow the assumed turn stops the round's moves and is counted (R39, R53). -/
def Claim.MarkActions : Prop :=
  ∀ (lost : List Nat) (s : State) (m : Mark) (r : List Mark), s.tt.marks = m :: r → s.adapt.pend = none →
    (((s.moduleUp 0 = true ∧ 0 ∉ lost) ∨ (s.moduleUp 1 = true ∧ 1 ∉ lost)) → (s.tt.running = true → s.tt.marked = true) →
      ∃ t, exec (.markAction ⟨lost, []⟩) s = .next t ∧ t.tt.marks = r ∧ t.tt.round = m.round ∧ t.tt.turn = m.turn ∧ t.tt.isRepeat = m.isRepeat ∧
        t.tt.marked = true ∧ t.tt.running = true ∧ t.tt.last = some m ∧ t.tt.ordinal = s.tt.ordinal + 1 ∧
        t.tt.runRound = (m.round + 2 ^ 48 - s.seq.startRound) % 2 ^ 48 ∧ t.now = max s.now (m.next - s.turnLen s.leadDom + 80)) ∧
    (((s.moduleUp 0 = true ∧ 0 ∉ lost) ∨ (s.moduleUp 1 = true ∧ 1 ∉ lost)) → s.tt.running = true → s.tt.marked = false → s.markMatches m = false →
      ∃ t, exec (.markAction ⟨lost, []⟩) s = .next t ∧ t.tt.round = m.round ∧ t.tt.turn = m.turn ∧ t.tt.marked = true ∧ t.seq.stopRound = true) ∧
    (¬((s.moduleUp 0 = true ∧ 0 ∉ lost) ∨ (s.moduleUp 1 = true ∧ 1 ∉ lost)) →
      (s.tt.last = none → ∃ t, exec (.markAction ⟨lost, []⟩) s = .next t ∧ t.tt.marks = r ∧ t.tt.running = s.tt.running ∧
        t.getF F.TT_MARK_MISS = min (s.getF F.TT_MARK_MISS + 1) 65535) ∧
      (∀ l, s.tt.last = some l → ∃ t, exec (.markAction ⟨lost, []⟩) s = .next t ∧ t.tt.marks = r ∧ t.tt.marked = false ∧ t.tt.running = true ∧
        t.tt.last = some { l with next := m.next } ∧
        (t.tt.round, t.tt.turn, t.tt.isRepeat) = if s.tt.vtMax < s.tt.turn + 1 then ((s.tt.round + 1) % 2 ^ 48, 0, true)
          else (s.tt.round, s.tt.turn + 1, s.tt.isRepeat)))

/-- A word that is found uncorrectable in the turn that a mark starts (R440), against the same mark without it: a bad move is noted and does not
issue in its round, a word of slot 0 refuses the line-mode accesses of the turn, a task whose slot is bad is cancelled as by CANCEL after its
save or restore, or at once; the TCC's memory leads to a tensor-die reset and the HCC's to a warm reset. -/
def Claim.MarkWords : Prop :=
  ∀ (lost : List Nat) (i : Nat) (s : State) (m : Mark) (r : List Mark), s.tt.marks = m :: r → ∃ u, exec (.markAction ⟨lost, []⟩) s = .next u ∧
    (∃ t, exec (.markAction ⟨lost, [(6, i)]⟩) s = .next t ∧ t.seq = { u.seq with badMoves := u.seq.badMoves ++ [i] } ∧ t.tcc = u.tcc ∧ t.mem = u.mem ∧
      t.yu = u.yu) ∧
    (∃ t, exec (.markAction ⟨lost, [(7, 0)]⟩) s = .next t ∧ t.tcc = { u.tcc with slot0Bad := true } ∧ t.seq = u.seq ∧ t.mem = u.mem ∧ t.yu = u.yu) ∧
    (i ≠ 0 → (u.taskState i = 5 ∨ u.taskState i = 7) → findReq i u.tcc.cancelReq = none → ∃ t, exec (.markAction ⟨lost, [(7, i)]⟩) s = .next t ∧
      t.tcc = { u.tcc with cancelReq := u.tcc.cancelReq ++ [(i, none)] } ∧ t.mem = u.mem ∧ t.yu = u.yu) ∧
    (i ≠ 0 → u.taskState i ∈ [1, 2, 3, 4, 6] → ∃ t v, exec (.markAction ⟨lost, [(7, i)]⟩) s = .next t ∧ v = u.record 0x04 7 ∧ t = v.beginCancel i none) ∧
    (∃ t, exec (.markAction ⟨lost, [(8, i)]⟩) s = .next t ∧ t = (u.record 0x04 8).tensorReset ∧ t.getF F.PWR_CAUSE_LAST = 4) ∧
    (∃ t, exec (.markAction ⟨lost, [(9, i)]⟩) s = .next t ∧ t.getF F.PWR_BOOT_STEP = 3 ∧ (t.getF F.PWR_CAUSE_LAST = 2 ∨ t.getF F.PWR_CAUSE_LAST = 3) ∧
      t.mem = u.mem ∧ t.flash = u.flash ∧ t.sec.otp = u.sec.otp) ∧
    (∀ q : Nat × Nat, q.1 < 6 ∨ 9 < q.1 → exec (.markAction ⟨lost, [q]⟩) s = .next u) ∧
    (u.scorepad.waiting.length < 64 → ∀ item, item = 6 ∨ (item = 7 ∧ i = 0) → ∃ t, exec (.markAction ⟨lost, [(item, i)]⟩) s = .next t ∧
      t.scorepad.waiting = u.scorepad.waiting ++ [⟨0x400 + item, 0⟩])

/-- The tensor-side timebase and the words that a turn finds uncorrectable (R39, R53, R440).
The model's own choices and readings in it: log entries 143, 145, 226. -/
def Obligations.TensorTimebase : Prop :=
  Claim.MarkActions ∧ Claim.MarkWords

/-! ### Capture and ports -/

/-- Captured lines (R45, R291, R322): line 0 begins a frame in the next buffer that no round has bound, a line in order waits for its write, and a line of an
input that is not trained goes nowhere; content-ready triggers are stamped. -/
def Claim.CapturedLines : Prop :=
  ∀ (port sub line tick depth : Nat) (comps : List Nat) (s : State),
    ((2 ≤ port ∨ s.flag (F.DPI_p_CFG_EN port) = false ∨ s.flag (F.DPI_p_STATUS_TRAINED port) = false) →
      ∃ t, exec (.dprxLineReceived port sub line tick depth comps) s = .next t ∧ t = { s with now := max s.now tick }) ∧
    (port < 2 → s.flag (F.DPI_p_CFG_EN port) = true → s.flag (F.DPI_p_STATUS_TRAINED port) = true →
      (∃ t, exec (.dprxLineReceived port sub line tick depth comps) s = .next t ∧ t.mem = s.mem ∧ ∀ d, d < 4 → t.dom d =
        if (s.dom d).on = true ∧ (s.dom d).set.src = 2 + port ∧ s.getF (F.TB_Dn_CONTENT_LINE d) = line ∧ s.getF (F.TB_Dn_CONTENT_SUB d) = sub then
          { s.dom d with trigs := (s.dom d).trigs ++ [tick] } else s.dom d) ∧
      (∀ n, s.captureOf port sub = [n] → 3 * s.strW n ≤ comps.length → line < s.strH n → ∀ bs, bs = inputBytes (s.getF (F.STR_n_FRM_CFG_FMT n)) depth (s.strW n) comps →
        (∀ f, line ≠ 0 → (s.strm n).openFrame = some f → f.received = line → ∃ t, exec (.dprxLineReceived port sub line tick depth comps) s = .next t ∧
          (t.strm n).writes = (s.strm n).writes ++ [⟨f.id, line, bs⟩] ∧ (t.strm n).openFrame = some { f with received := line + 1 } ∧
          t.getF (F.STR_n_STATUS_LINE n) = line % 16384) ∧
        (∀ b, line = 0 → s.nextBuffer n = some b → ∃ t, exec (.dprxLineReceived port sub line tick depth comps) s = .next t ∧
          (t.strm n).writes = (s.strm n).writes ++ [⟨(s.strm n).nextFrame, 0, bs⟩] ∧ (t.strm n).lastBuf = some b ∧
          (t.strm n).openFrame = some { id := (s.strm n).nextFrame, buf := b, start := tick, received := 1 } ∧ t.getF (F.STR_n_STATUS_LINE n) = 0)))

/-- Line writes and their notices (R223, R291): the oldest waiting line reaches its frame in memory and its notice goes out, the last one makes its frame the newest
complete one, a lost one is not written, one for a channel that retrains waits; a notice counts on the tensor side unless it is late. -/
def Claim.CaptureWrites : Prop :=
  ∀ (n : Nat) (s : State),
    (∀ w r f, n < 64 → (s.strm n).writes = w :: r → (s.strm n).frame? w.frame = some f → s.stripesLost (s.frameLine n f.buf w.line) w.bytes.length = false →
      s.stripesWait (s.frameLine n f.buf w.line) w.bytes.length = false →
      ∃ t, exec (.captureLineWritten n false) s = .next t ∧ t.memBytes (s.frameLine n f.buf w.line) w.bytes.length = w.bytes ∧
        (∀ a, a < s.frameLine n f.buf w.line ∨ s.frameLine n f.buf w.line + w.bytes.length ≤ a → t.memByte a = s.memByte a) ∧ (t.strm n).writes = r ∧
        (t.strm n).frame? w.frame = some { f with lines := f.lines ++ [w.line] } ∧
        t.raster.dl.toTensor = s.raster.dl.toTensor ++ [⟨.notice n w.frame, 1, false, s.now, none⟩] ∧
        (f.lines.length + 1 = s.strH n → t.getF (F.STR_n_FRM_LAST_BUF n) = f.buf % 4 ∧
          t.getF (F.STR_n_FRM_LAST_FRAME n) = (s.getF (F.STR_n_FRM_LAST_FRAME n) + 1) % 2 ^ 30) ∧
        (f.lines.length + 1 ≠ s.strH n → t.reg (R.STR_n_FRM_LAST n) = s.reg (R.STR_n_FRM_LAST n))) ∧
    (∀ w r f, (s.strm n).writes = w :: r → (s.strm n).frame? w.frame = some f → s.stripesWait (s.frameLine n f.buf w.line) w.bytes.length = true →
      ∃ t, exec (.captureLineWritten n false) s = .next t ∧ (t.strm n).writes = w :: r ∧ (t.strm n).frames = (s.strm n).frames ∧ t.mem = s.mem ∧
        t.raster.dl = s.raster.dl) ∧
    (∀ w r, (s.strm n).writes = w :: r → (s.strm n).frame? w.frame ≠ none → ∃ t, exec (.captureLineWritten n true) s = .next t ∧ (t.strm n).writes = r ∧ (t.strm n).frames = (s.strm n).frames ∧
      t.mem = s.mem ∧ t.getF F.DL_RETRY_LATE_CNT = min (s.getF F.DL_RETRY_LATE_CNT + 1) F.DL_RETRY_LATE_CNT.maxVal ∧ t.raster.dl = s.raster.dl) ∧
    (∀ f q a, popNotice s.raster.dl.toTensor = some ((n, f, a), q) →
      (∃ t, exec (.captureNotice true) s = .next t ∧ t.raster.dl.toTensor = q ∧ t.getF F.DL_RETRY_LATE_CNT = min (s.getF F.DL_RETRY_LATE_CNT + 1) F.DL_RETRY_LATE_CNT.maxVal ∧
        t.strm n = s.strm n ∧ t.mem = s.mem) ∧
      (∀ g, (s.strm n).frame? f = some g → s.now ≤ a + 200 → ∃ t, exec (.captureNotice false) s = .next t ∧ t.raster.dl.toTensor = q ∧ t.now = a + 200 ∧
        (t.strm n).frame? f = some { g with noticed := g.noticed + 1 } ∧ t.mem = s.mem ∧ t.regs = s.regs))

/-- The colour-volume scrub (R308): it goes on to the next entry; one that fails parity is counted, and where a cube in use holds it latched, and
repaired from its volume image. -/
def Claim.ColourScrub : Prop :=
  ∀ s : State, s.flag F.FIN_SCRUB_EN = true → s.raster.cvScrub < 531441 →
    (cvOk (s.cvEntry s.raster.cvScrub) = true → ∃ t, exec (.cvScrubCheck []) s = .next t ∧
      t = { s with raster := { s.raster with cvScrub := (s.raster.cvScrub + 1) % 531441 } }) ∧
    (cvOk (s.cvEntry s.raster.cvScrub) = false → ∃ t, exec (.cvScrubCheck []) s = .next t ∧ t.raster.cvScrub = (s.raster.cvScrub + 1) % 531441 ∧
      t.getF F.FIN_CV_CNT_PERR = min (s.getF F.FIN_CV_CNT_PERR + 1) 65535 ∧ t.mem = s.mem ∧
      ((s.cubeOwner s.raster.cvScrub).isSome = true → t.flag F.FIN_CV_ERR_VALID = true) ∧
      ((s.cubeOwner s.raster.cvScrub).isSome = true → s.flag F.FIN_CV_ERR_VALID = false → t.flag F.FIN_CV_ERR_SCRUB = true ∧ t.getF F.FIN_CV_ERR_ENTRY = s.raster.cvScrub) ∧
      (s.cubeOwner s.raster.cvScrub = none → t.cvEntry s.raster.cvScrub = s.cvEntry s.raster.cvScrub ∧ t.reg R.FIN_CV_ERR = s.reg R.FIN_CV_ERR ∧
        t.scorepad = s.scorepad) ∧
      (∀ n, s.cubeOwner s.raster.cvScrub = some n → ∀ a, a = s.getF (F.FIN_n_VIMG_BASE n) * 65536 + 8 * (s.raster.cvScrub - s.getF (F.FIN_n_CV_BASE n)) →
        (s.readDram a 8).2.2 = false → t.cvEntry s.raster.cvScrub = cvWord (leNat (s.memBytes a 8)) ∧
          t.getF F.FIN_CV_CNT_REPAIR = min (s.getF F.FIN_CV_CNT_REPAIR + 1) 65535))

/-- Captures, their notices and the colour-volume scrub (R223, R291, R308, R322).
The model's own choices and readings in it: log entries 68, 73, 206. -/
def Obligations.CapturesAndScrub : Prop :=
  Claim.CapturedLines ∧ Claim.CaptureWrites ∧ Claim.ColourScrub

/-- DisplayPort links (R316, R321 to R324): HPD and a failed link start training on an enabled port, training ends at what was agreed or is counted as lost, a lost
link sends no more; a receive port reports its link, and one that is lost ends its frames.
The model's own choices and readings in it: log entry 75. -/
def Obligations.DisplayPorts : Prop :=
  ∀ (p : Nat) (s : State),
    (p < 4 → s.flag (F.DPO_p_CFG_EN p) = true → ∃ t, exec (.dptxHpd p false) s = .next t ∧ t.flag (F.DPO_p_STATUS_HPD p) = true ∧
      t.flag (F.DPO_p_STATUS_TRAINED p) = false ∧ t.getF (F.DPO_p_STATUS_RATE p) = 0 ∧ t.getF (F.DPO_p_STATUS_LANES p) = 0 ∧
      t.flag (F.DPO_p_STATUS_VIDEO p) = false ∧ t.raster.video = s.raster.video.filter (fun v => v.1 != p) ∧ t.mem = s.mem) ∧
    (p < 4 → s.flag (F.DPO_p_CFG_EN p) = false → ∃ t, exec (.dptxHpd p false) s = .next t ∧ t.flag (F.DPO_p_STATUS_HPD p) = true ∧
      t.flag (F.DPO_p_STATUS_TRAINED p) = s.flag (F.DPO_p_STATUS_TRAINED p) ∧ t.raster = s.raster ∧ t.mem = s.mem) ∧
    (∀ rate lanes dsc async mst, p < 4 → s.flag (F.DPO_p_CFG_EN p) = true → s.flag (F.DPO_p_STATUS_HPD p) = true → rate ≤ s.getF (F.DPO_p_CFG_RATE p) →
      lanes ≤ s.getF (F.DPO_p_CFG_LANES p) →
      (rate ≠ 0 → lanes ≠ 0 → ∃ t, exec (.dptxTrainingComplete p rate lanes dsc async mst) s = .next t ∧ t.flag (F.DPO_p_STATUS_TRAINED p) = true ∧
        t.getF (F.DPO_p_STATUS_RATE p) = rate ∧ t.getF (F.DPO_p_STATUS_LANES p) = lanes ∧ t.flag (F.DPO_p_STATUS_SINK_DSC p) = dsc ∧
        t.flag (F.DPO_p_STATUS_SINK_ASYNC p) = async ∧ (p ∈ t.raster.txMst ↔ mst = true) ∧ t.flag (F.DPO_p_STATUS_VIDEO p) = false ∧ t.mem = s.mem) ∧
      (rate = 0 → ∃ t, exec (.dptxTrainingComplete p rate lanes dsc async mst) s = .next t ∧ t.flag (F.DPO_p_STATUS_TRAINED p) = false ∧
        t.getF (F.DPO_p_STATUS_LOSS p) = min (s.getF (F.DPO_p_STATUS_LOSS p) + 1) 255 ∧ t.mem = s.mem)) ∧
    (∀ unplugged, p < 4 → s.flag (F.DPO_p_STATUS_TRAINED p) = true → ∃ t, exec (.dptxLinkLoss p unplugged) s = .next t ∧
      t.flag (F.DPO_p_STATUS_TRAINED p) = false ∧ t.flag (F.DPO_p_STATUS_VIDEO p) = false ∧
      t.getF (F.DPO_p_STATUS_LOSS p) = min (s.getF (F.DPO_p_STATUS_LOSS p) + 1) 255 ∧
      t.flag (F.DPO_p_STATUS_HPD p) = (!unplugged && s.flag (F.DPO_p_STATUS_HPD p)) ∧ t.mem = s.mem) ∧
    (p < 2 → ∃ t, exec (.dprxLinkLoss p none) s = .next t ∧ t.flag (F.DPI_p_STATUS_TRAINED p) = false ∧ t.getF (F.DPI_p_STATUS_SUBS p) = 0 ∧
      t.getF (F.DPI_p_STATUS_RATE p) = 0 ∧ t.getF (F.DPI_p_STATUS_LANES p) = 0 ∧ t.mem = s.mem ∧
      ∀ n, n < 64 → s.isCapture n = true → s.getF (F.STR_n_FRM_CFG_SRC n) = p → (t.strm n).openFrame = none) ∧
    (∀ k, p < 2 → 0 < s.getF (F.DPI_p_STATUS_SUBS p) → ∃ t, exec (.dprxLinkLoss p (some k)) s = .next t ∧
      t.getF (F.DPI_p_STATUS_SUBS p) = s.getF (F.DPI_p_STATUS_SUBS p) - 1 ∧ t.flag (F.DPI_p_STATUS_TRAINED p) = s.flag (F.DPI_p_STATUS_TRAINED p) ∧ t.mem = s.mem ∧
      (∀ n, n < 64 → s.isCapture n = true → s.getF (F.STR_n_FRM_CFG_SRC n) = p → s.getF (F.STR_n_FRM_CFG_SUB n) = k → (t.strm n).openFrame = none) ∧
      (∀ n, n < 64 → s.getF (F.STR_n_FRM_CFG_SUB n) ≠ k → t.strm n = s.strm n)) ∧
    (∀ rate lanes subs mst dsc, p < 2 → s.flag (F.DPI_p_CFG_EN p) = true → 1 ≤ rate → rate ≤ s.getF (F.DPI_p_CFG_RATE p) → (lanes = 1 ∨ lanes = 2 ∨ lanes = 4) →
      lanes ≤ s.getF (F.DPI_p_CFG_LANES p) → subs ≤ 16 → (mst = true → s.flag (F.DPI_p_CFG_MST p) = true) → (dsc = true → s.flag (F.DPI_p_CFG_DSC p) = true) →
      ∃ t, exec (.dprxLinkTrained p rate lanes subs mst dsc) s = .next t ∧ t.flag (F.DPI_p_STATUS_TRAINED p) = true ∧ t.getF (F.DPI_p_STATUS_RATE p) = rate ∧
        t.getF (F.DPI_p_STATUS_LANES p) = lanes ∧ t.getF (F.DPI_p_STATUS_SUBS p) = subs ∧ t.flag (F.DPI_p_STATUS_MST p) = mst ∧
        t.flag (F.DPI_p_STATUS_DSC p) = dsc ∧ t.mem = s.mem)

/-! ### Bundles, streams and the command page -/

/-- LOAD_BUNDLE (R390): with a bundle loaded it is BAD_STATE, an image that fails a step completes with that step's code, one that passes is in place. -/
def Claim.BundleLoad : Prop :=
  ∀ (c : HostCmd) (s : State), s.fronts c 0x03 →
    (s.seq.bundle.isSome = true → ∃ t, exec (.loadBundle false) s = .next t ∧ Completed c ccState 0 s t ∧ t.seq = s.seq ∧ t.mem = s.mem) ∧
    (s.seq.bundle = none → bitsOf (c.arg 3) 31 2 = 0 → s.flag F.PCI_STATUS_BME = false → ∃ t, exec (.loadBundle false) s = .next t ∧
      Completed c ccIo 0 s t ∧ t.seq = s.seq ∧ t.mem = s.mem) ∧
    (s.seq.bundle = none → bitsOf (c.arg 3) 31 2 = 0 → s.flag F.PCI_STATUS_BME = true → ∀ img, img = s.hostBytes (argAddr c 0) (c.arg 2) →
      (∀ k, (s.setTaken []).checkImage c img = .error k → ∃ t, exec (.loadBundle false) s = .next t ∧ Completed c k 0 s t ∧ t.seq = s.seq ∧ t.mem = s.mem) ∧
      (∀ b i l secs, (s.setTaken []).checkImage c img = .ok (b, i, l, secs) → ∃ t, exec (.loadBundle false) s = .next t ∧ Completed c 0 0 s t ∧
        t.seq.bundle = some b ∧ t.seq.list = l ∧ t.seq.listIndex = i ∧ t.sec.conf = s.sec.conf ++ b.conf ∧
        t.mem = ((s.setTaken []).putBundle b i l secs (bSigned img)).mem))

/-- SET_STREAM (R384): a block that breaks a rule completes with its code, one that passes waits for its boundary; where the lead domain does not
run, its cube and hold buffer are written at once, and it takes effect then or at a boundary of another domain that runs. -/
def Claim.StreamSettings : Prop :=
  ∀ (c : HostCmd) (s : State), s.fronts c 0x07 →
    (c.arg 2 ≠ 2048 → ∃ t, exec (.setStream false) s = .next t ∧ Completed c ccFormat 0 s t ∧ t.regs = s.regs) ∧
    (c.arg 2 = 2048 → s.flag F.PCI_STATUS_BME = true → ∀ b s1 k, b = s.hostBytes (argAddr c 0) 2048 → s1 = s.setTaken [] →
      k = (s1.putWaiting (s1.dueRound c 2)).streamCode (s1.putWaiting (s1.dueRound c 2)) b →
      (k ≠ 0 → ∃ t, exec (.setStream false) s = .next t ∧ Completed c k 0 s t ∧ t.regs = s.regs) ∧
      (k = 0 → c.flags.testBit 1 = false → s.admits c 2 → ∃ t, exec (.setStream false) s = .next t ∧ WaitsFor c c.due (s1.blockDom b) b s t ∧ t.mem = s.mem) ∧
      (k = 0 → s1.streamCode s1.withStaged b = 0 → (s.dom s.leadDom).on = false → c.flags.testBit 0 = false →
        ∃ t, exec (.setStream false) s = .next t ∧ (∃ v, v = (s1.takeCube b).prepareHold b ∧ t = ((if s1.blockDom b = s1.leadDom then v.applyStream b
          else { v with raster := { v.raster with staged := v.raster.staged ++ [⟨c, s1.dueRound c 2, s1.blockDom b, b⟩] } }).complete c ccOk).settle)) ∧
      (k = 0 → s1.streamCode s1.withStaged b ≠ 0 → (s.dom s.leadDom).on = false → c.flags.testBit 0 = false →
        ∃ t, exec (.setStream false) s = .next t ∧ Completed c (s1.streamCode s1.withStaged b) 0 s t ∧ t.regs = s.regs))

/-- FLIP_SET (R288, R289, R385): an accepted set is pending, stamped at once where its fence is reached; a deadline that has passed completes with EXPIRED, a
full list with NO_SPACE. -/
def Claim.FlipSets : Prop :=
  ∀ (c : HostCmd) (s : State), s.fronts c 0x08 → c.arg 2 < 64 → argAddr c 4 < 2 ^ 48 → s.flag F.PCI_STATUS_BME = true →
    ∀ n b es d, n = fieldAt (s.hostBytes (argAddr c 0) 32) 0 1 → n ≤ 16 → b = s.hostBytes (argAddr c 0) (32 + 32 * n) → flipEntries b = some es →
      d = s.strDom ((es.head?.map (fun e => e.stream)).getD 0) → (∀ e ∈ es, s.strDom e.stream = d ∧ (s.putFlips es).flipBad e = false) →
      (s.flipTooLate d (argAddr c 4) = true → ∃ t, exec (.flipSet false) s = .next t ∧ Completed c ccExpired 0 s t ∧ t.raster.flips = s.raster.flips ∧
        t.getF F.CMP_FLIP_CNT_EXPIRED = min (s.getF F.CMP_FLIP_CNT_EXPIRED + 1) 65535) ∧
      (s.flipTooLate d (argAddr c 4) = false → 32 ≤ s.raster.flips.length → ∃ t, exec (.flipSet false) s = .next t ∧ Completed c ccNoSpace 0 s t ∧
        t.raster.flips = s.raster.flips) ∧
      (s.flipTooLate d (argAddr c 4) = false → s.raster.flips.length < 32 → ∃ t f, exec (.flipSet false) s = .next t ∧ t.raster.flips = s.raster.flips ++ [f] ∧
        f.cmd = c ∧ f.dom = d ∧ f.fence = c.arg 2 ∧ f.target = c.arg 3 ∧ f.deadline = argAddr c 4 ∧ f.entries = es ∧ f.decided = false ∧
        f.stamp = (if fenceReached (s.getF (F.CMP_FENCE_k_VALUE (c.arg 2))) (c.arg 3) = true then some s.now else none) ∧
        t.getF F.CMP_FLIP_STAT_PEND = s.raster.flips.length + 1 ∧ t.host.cpl = s.host.cpl ∧ t.host.taken = [] ∧ t.mem = s.mem)

/-- Bundles and stream settings (R288, R289, R384, R385, R390).
The model's own choices and readings in it: log entries 86, 89, 90, 113, 117. -/
def Obligations.BundlesAndStreams : Prop :=
  Claim.BundleLoad ∧ Claim.StreamSettings ∧ Claim.FlipSets

/-- Poll points (R373 to R376): the slot whose SEQ is next is taken with its tick and first round, and the next SEQ follows; a malformed one completes at
once; with the page off nothing is taken. -/
def Claim.PollPoints : Prop :=
  ∀ s : State,
    (s.flag F.CMD_CTRL_EN = false → ∃ t, exec .commandPoll s = .next t ∧ t = s) ∧
    (∀ q c, s.flag F.CMD_CTRL_EN = true → s.host.flitSlots = [] → s.host.taken = [] → q = (s.reg R.CMD_NEXT).toNat → q < 2 ^ 32 - 1 →
      c = slotCmd (s.pageBytes (q % 256)) .host → c.seq = q → (slotCmd (s.pageBytes (nextSeq q % 256)) .host).seq ≠ nextSeq q →
      (c.malformed = false → s.gated c = false → ∃ t, exec .commandPoll s = .next t ∧ t.host.taken = [{ c with accepted := s.now, first := s.firstRound }] ∧
        (t.reg R.CMD_NEXT).toNat = nextSeq q ∧ t.host.cpl = s.host.cpl ∧ t.mem = s.mem) ∧
      (c.malformed = true → ∃ t x, exec .commandPoll s = .next t ∧ t.host.taken = [] ∧ t.host.cpl = s.host.cpl ++ [x] ∧ x.seq = q ∧ x.code = ccFormat ∧
        (t.reg R.CMD_NEXT).toNat = nextSeq q ∧ t.mem = s.mem)) ∧
    (∀ c x y tag, s.flag F.CMD_CTRL_EN = true → s.host.flitSlots = [c] → c.origin = .fabric x y tag → s.host.taken = [] → c.malformed = false → s.gated c = false →
      (slotCmd (s.pageBytes ((s.reg R.CMD_NEXT).toNat % 256)) .host).seq ≠ (s.reg R.CMD_NEXT).toNat → ∃ t, exec .commandPoll s = .next t ∧
        t.host.flitSlots = [] ∧ t.host.taken = [{ c with accepted := s.now, first := s.firstRound }] ∧ t.mem = s.mem ∧
        (s.portOpen (s.routePort x y) = true → t.queued (s.routePort x y)
          (s.ownFlit 2 0x0C x y 0 ((⟨0, 0x1B, ccOk, 1, tag, 0, s.leadRound, 0, none, c.origin⟩ : Cpl).bytes ++ List.replicate 32 0#8)))) ∧
    (s.flag F.CMD_CTRL_EN = true → (slotCmd (s.pageBytes ((s.reg R.CMD_NEXT).toNat % 256)) .host).seq ≠ (s.reg R.CMD_NEXT).toNat → s.host.flitSlots = [] →
      s.host.taken = [] → ∃ t, exec .commandPoll s = .next t ∧ t.host = s.host ∧ t.regs = s.regs ∧ t.mem = s.mem)

/-- Completion records (R380, R381): the oldest goes into its slot of the mirror and, where the ring is in use, of host memory with the count behind it; a full ring,
D3, or a ring that the function may not write makes it wait; a record for another device leaves in a flit. -/
def Claim.CompletionRecords : Prop :=
  ∀ (s : State) (c : Cpl) (r : List Cpl), s.host.cpl = c :: r → c.flags.testBit 1 = false →
    ((∀ x y tag, c.origin ≠ .fabric x y tag) → (s.host.cplNext - 1 + 2 ^ 32 - (s.reg R.CMD_CPL_ACK).toNat) % 2 ^ 32 < 256 → s.flag F.PCI_STATUS_D3 = false →
      (s.flag F.CMD_CPL_LO_EN = false → c.vec = none → ∃ t, exec .completionWrite s = .next t ∧ t.host.cpl = r ∧ t.host.cplNext = s.host.cplNext + 1 ∧
        (t.reg R.CMD_CPL_WR).toNat = s.host.cplNext % 2 ^ 32 ∧ (∀ i, i < 32 → SMap.get zeroByte t.host.mirror (s.host.cplNext % 256 * 32 + i) = c.bytes.getD i 0#8) ∧
        t.hostMem = s.hostMem ∧ t.mem = s.mem) ∧
      (s.flag F.CMD_CPL_LO_EN = true → s.flag F.PCI_STATUS_BME = true → c.vec = none → ∃ t, exec .completionWrite s = .next t ∧ t.host.cpl = r ∧
        t.host.cplNext = s.host.cplNext + 1 ∧ t.hostBytes s.cntAddr 8 = leBytes 8 s.host.cplNext ∧
        (s.cntAddr + 8 ≤ s.cplAddr ∨ s.cplAddr + 8192 ≤ s.cntAddr →
          t.hostBytes (s.cplAddr + s.host.cplNext % 256 * 32) 32 = c.bytes) ∧ t.mem = s.mem) ∧
      (s.flag F.CMD_CPL_LO_EN = true → s.flag F.PCI_STATUS_BME = false → ∃ t, exec .completionWrite s = .next t ∧ t = s)) ∧
    ((∀ x y tag, c.origin ≠ .fabric x y tag) → (256 ≤ (s.host.cplNext - 1 + 2 ^ 32 - (s.reg R.CMD_CPL_ACK).toNat) % 2 ^ 32 ∨ s.flag F.PCI_STATUS_D3 = true) →
      ∃ t, exec .completionWrite s = .next t ∧ t = s) ∧
    (∀ x y tag p, c.origin = .fabric x y tag → p = s.routePort x y → s.portOpen p = true → ∃ t, exec .completionWrite s = .next t ∧ t.host.cpl = r ∧
      t.queued p (s.ownFlit 2 0x0C x y 0 (c.bytes ++ List.replicate 32 0#8)) ∧ t.mem = s.mem)

/-- The command page and the completion ring (R373 to R381).
The model's own choices and readings in it: log entries 108, 109, 125. -/
def Obligations.CommandPage : Prop :=
  Claim.PollPoints ∧ Claim.CompletionRecords


/-! ### Power, resets and boot -/

/-- Entry and wake (R424 to R428, R435): the clocks stop once every save and descriptor has completed, a STANDBY entry drops the tensor die, a wake ends in HOLD
or, without a module, in STANDBY. The command that asked completes then. -/
def Claim.PowerTransitions : Prop :=
  ∀ (s : State) (c : HostCmd), s.power.cmd = some c → c.origin = .host →
    (s.power.step = .draining → s.drained = true → s.getF F.PWR_STATE_TARGET ≠ 2 → ∃ t x, exec .holdClocksStopped s = .next t ∧ t.power.stopped = true ∧
      t.power.step = .idle ∧ t.flag F.PWR_STATE_BUSY = false ∧ t.host.cpl = s.host.cpl ++ [x] ∧ x.seq = c.seq ∧ x.code = 0 ∧ t.mem = s.mem) ∧
    (s.power.step = .draining → s.drained = true → s.getF F.PWR_STATE_TARGET = 2 → ∃ t, exec .holdClocksStopped s = .next t ∧ t.power.stopped = true ∧
      t.power.step = .entering ∧ t.host.cpl = s.host.cpl ∧ t.mem = s.mem) ∧
    (s.power.step = .draining → s.drained = false → ∃ t, exec .holdClocksStopped s = .next t ∧ t = s) ∧
    (s.power.step = .entering → ∃ t x, exec .standbyEntryComplete s = .next t ∧ t.pstate = 2 ∧ t.power.step = .idle ∧ t.power.tensorOff = true ∧
      t.power.tpwrEn = false ∧ t.power.stopped = true ∧ t.moduleUp 0 = false ∧ t.moduleUp 1 = false ∧ t.flag F.PWR_STATE_BUSY = false ∧
      (∀ a, isSlice a = true → t.memByte a = 0#8) ∧ t.host.cpl = s.host.cpl ++ [x] ∧ x.seq = c.seq ∧ x.code = 0) ∧
    (∀ cores quarters modules channels, s.power.step = .waking → s.power.tpwrOk = true →
      (clearMask s.power.modules modules % 4 = 0 → ∃ t x, exec (.wakeComplete cores quarters modules channels) s = .next t ∧ t.pstate = s.pstate ∧
        t.power.step = .idle ∧ t.power.tpwrEn = false ∧ t.host.cpl = s.host.cpl ++ [x] ∧ x.seq = c.seq ∧ x.code = ccState ∧ t.mem = s.mem) ∧
      (clearMask s.power.modules modules % 4 ≠ 0 → (s.dom s.leadDom).on = true → ∃ t, exec (.wakeComplete cores quarters modules channels) s = .next t ∧
        t.power.step = .woken ∧ t.power.tensorOff = false) ∧
      (clearMask s.power.modules modules % 4 ≠ 0 → (s.dom s.leadDom).on = false → s.power.thenRun = false → s.seq.bundle = none →
        ∃ t x, exec (.wakeComplete cores quarters modules channels) s = .next t ∧ t.pstate = 1 ∧ t.power.step = .idle ∧ t.power.stopped = true ∧
          t.power.tensorOff = false ∧ t.flag F.PWR_STATE_BUSY = false ∧ t.host.cpl = s.host.cpl ++ [x] ∧ x.seq = c.seq ∧ x.code = 0)) ∧
    (s.getF F.PWR_BOOT_STEP ≠ 4 → s.power.step = .waking → s.power.tpwrOk = false → ∃ t x, exec .tpwrOkTimeout s = .next t ∧ t.power.step = .idle ∧
      t.power.tpwrEn = false ∧ t.pstate = s.pstate ∧ t.host.cpl = s.host.cpl ++ [x] ∧ x.seq = c.seq ∧ x.code = ccState ∧ t.mem = s.mem)

/-- Thermal levels and power-good (R430, R435, R465): TEMP and MAX follow the readings, a rise to WARN raises its interrupt, 110 °C leads to HOLD at the next boundary
or at once, and the trip leaves both dies in their reset state; the rails' power-good locks ACLK, and its loss is a tensor-die reset. -/
def Claim.ThermalAndRails : Prop :=
  ∀ s : State,
    (∀ x : Int, -128 ≤ x → x ≤ 127 → ∃ t, exec (.thermalWarning x) s = .next t ∧ t.temp = x ∧
      signedOf 8 (t.getF F.PWR_THERM_MAX) = max (signedOf 8 (s.getF F.PWR_THERM_MAX)) x ∧ t.power = s.power ∧ t.mem = s.mem ∧
      (s.temp < Int.ofNat s.warnLevel → Int.ofNat s.warnLevel ≤ x → t.flag F.CMD_IRQ_THERM = true) ∧
      (x < Int.ofNat s.warnLevel → t.reg R.CMD_IRQ = s.reg R.CMD_IRQ)) ∧
    (s.pstate = 0 → (s.dom s.leadDom).on = true → ∃ t, exec .thermalCritical s = .next t ∧ t.temp = max s.temp 110 ∧ t.pstate = 0 ∧
      t.power = { s.power with critical := true } ∧ t.mem = s.mem) ∧
    (s.pstate = 0 → (s.dom s.leadDom).on = false → ∃ t, exec .thermalCritical s = .next t ∧ t.pstate = 1 ∧ t.flag F.PWR_STATE_THERM_HOLD = true ∧
      t.power.step = .draining) ∧
    (s.pstate ≠ 0 → s.power.step ≠ .restarting → ∃ t, exec .thermalCritical s = .next t ∧ t.temp = max s.temp 110 ∧ t.pstate = s.pstate ∧ t.power = s.power ∧
      t.mem = s.mem) ∧
    (∃ t, exec .thermalTrip s = .next t ∧ t.power.tripped = true ∧ t.power.stopped = true ∧ t.getF F.PWR_CAUSE_LAST = 5 ∧ t.sec.otp = s.sec.otp ∧
      (∀ off, off ≠ R.PWR_CAUSE → t.reg off = regDefault off) ∧ t.pending = s.pending) ∧
    (s.power.tpwrEn = true → ∃ t, exec .tpwrOkRise s = .next t ∧ t.power = { s.power with tpwrOk := true } ∧ t.flag F.HUB_ACLK_LOCK = true ∧ t.mem = s.mem) ∧
    (s.power.tpwrEn = false → ∃ t, exec .tpwrOkRise s = .next t ∧ t = s) ∧
    ((s.power.tpwrEn = false ∨ s.power.tpwrOk = false) → ∃ t, exec .tpwrOkFall s = .next t ∧ t = s) ∧
    (s.power.tpwrEn = true → s.power.tpwrOk = true → ∃ t, exec .tpwrOkFall s = .next t ∧ t.getF F.PWR_CAUSE_LAST = 4 ∧ t.pstate = 1 ∧ t.seq.bundle = none ∧
      t.power.step = .idle ∧ t.power.stopped = true ∧ t.power.tensorOff = false)

/-- Power transitions, thermal levels and the tensor rails (R424 to R430, R435, R465).
The model's own choices and readings in it: log entries 154, 156, 157, 159, 160, 161, 163. -/
def Obligations.PowerEvents : Prop :=
  Claim.PowerTransitions ∧ Claim.ThermalAndRails

/-- Resets (R431, R432, R465): a cold reset leaves OTP, and with the island's power the confidential list, and latches the straps; a warm reset leaves the records and
continues boot at step 3; PWR_RESET needs its key, and WARM takes precedence. -/
def Claim.Resets : Prop :=
  ∀ s : State,
    (∀ straps fuse, ∃ t, exec (.coldReset straps fuse) s = .next t ∧
      t.getF F.PWR_CAUSE_LAST = (if s.power.tripped = true ∧ s.getF F.PWR_CAUSE_LAST = 5 then 5 else 1) ∧ t.getF F.PWR_CAUSE_BOOTSEL = straps % 4 ∧
      t.flag F.PWR_CAUSE_ORIGIN = straps.testBit 2 ∧ t.flag F.PWR_CAUSE_TESTMODE = straps.testBit 3 ∧ t.flag F.SEC_STATUS_FUSE_PWR = fuse ∧
      t.getF F.PWR_BOOT_STEP = 1 ∧ t.sec.otp = s.sec.otp ∧ t.sec.conf = s.sec.conf ∧ t.flash = s.flash ∧ t.pending = s.pending ∧
      (∀ off, off ≠ R.PWR_CAUSE → off ≠ R.SEC_STATUS → off ≠ R.TB_STATUS → off ≠ R.PWR_BOOT → t.reg off = regDefault off)) ∧
    (∀ straps fuse, ∃ t, exec (.vddAonLoss straps fuse) s = .next t ∧ t.getF F.PWR_CAUSE_LAST = 0 ∧ t.getF F.PWR_CAUSE_BOOTSEL = straps % 4 ∧
      t.getF F.PWR_BOOT_STEP = 1 ∧ t.sec.otp = s.sec.otp ∧ t.sec.conf = [] ∧ t.flash = s.flash ∧
      (∀ off, off ≠ R.PWR_CAUSE → off ≠ R.SEC_STATUS → off ≠ R.TB_STATUS → off ≠ R.PWR_BOOT → t.reg off = regDefault off)) ∧
    (∀ v : Word32, ∀ p ∈ ([(.watchdogExpiry, 3, s.power.tripped = false),
        (.pwrResetWarm v, 2, bitsOf v.toNat 31 16 = 0xC0DE ∧ v.toNat.testBit 0 = true)] : List (Instr × Nat × Prop)), p.2.2 →
      ∃ t, exec p.1 s = .next t ∧ t.getF F.PWR_CAUSE_LAST = p.2.1 ∧ t.getF F.PWR_BOOT_STEP = 3 ∧ t.flag F.PWR_BOOT_DONE = false ∧ t.pstate = 0 ∧
        t.reg R.CMD_NEXT = 1#32 ∧ t.flag F.CMD_CTRL_EN = false ∧ t.host.taken = [] ∧ t.host.due = [] ∧ t.host.cpl = [] ∧ t.sec.debug = none ∧ t.sec.nonce = none ∧
        t.sec.otp = s.sec.otp ∧ t.sec.conf = s.sec.conf ∧ t.mem = s.mem ∧ t.flash = s.flash ∧ t.scorepad.ledger = s.scorepad.ledger ∧
        t.scorepad.trace = s.scorepad.trace ∧ t.seq = State.reset.seq ∧ t.yu = State.reset.yu ∧ t.tcc = State.reset.tcc ∧ t.raster = State.reset.raster ∧
        t.grid = State.reset.grid ∧ t.rings = State.reset.rings) ∧
    (∀ v : Word32, bitsOf v.toNat 31 16 = 0xC0DE → v.toNat.testBit 0 = false → v.toNat.testBit 1 = true → ∃ t, exec (.pwrResetTensor v) s = .next t ∧
      t.getF F.PWR_CAUSE_LAST = 4 ∧ t.pstate = 1 ∧ t.seq.bundle = none ∧ t.power.step = .idle ∧ t.power.stopped = true ∧ t.power.tensorOff = false) ∧
    (∀ v : Word32, bitsOf v.toNat 31 16 ≠ 0xC0DE → s.scorepad.waiting.length < 64 → ∀ i ∈ ([.pwrResetWarm v, .pwrResetTensor v] : List Instr),
      ∃ t, exec i s = .next t ∧ t = { s with scorepad := { s.scorepad with waiting := s.scorepad.waiting ++ [⟨0x800 + blockNumber R.PWR_RESET % 256, 0⟩] } })

/-- Boot (R433, R434): each step goes to the next with what it found; it stops at the die link without a module; the last one opens the command page. -/
def Claim.BootSteps : Prop :=
  ∀ (f : BootFind) (s : State), s.power.tripped = false → s.flag F.PWR_BOOT_DONE = false →
    (∀ n, n = 1 ∨ n = 8 → s.getF F.PWR_BOOT_STEP = n → ∃ t, exec (.bootStep f) s = .next t ∧ t.getF F.PWR_BOOT_STEP = n + 1 ∧ t.mem = s.mem) ∧
    (s.getF F.PWR_BOOT_STEP = 2 → f.rngOk = true → s.flag F.PWR_CAUSE_TESTMODE = false → s.lcOfOtp ≠ 3 → ∃ t, exec (.bootStep f) s = .next t ∧
      t.getF F.PWR_BOOT_STEP = 3 ∧ t.lc = s.lcOfOtp ∧ t.flag F.SEC_STATUS_RNG_OK = true ∧ t.sec.otp = s.sec.otp) ∧
    (s.getF F.PWR_BOOT_STEP = 2 → s.flag F.PWR_CAUSE_TESTMODE = true → s.lcOfOtp ≠ 3 → s.lcOfOtp ≠ 0 → ∃ t, exec (.bootStep f) s = .next t ∧
      t.getF F.PWR_BOOT_STEP = 2 ∧ t.getF F.PWR_BOOT_ERR = 7 ∧ t.power.tripped = true) ∧
    (s.getF F.PWR_BOOT_STEP = 3 → f.pcieWidth < 16 → f.pcieGen < 16 → ∃ t, exec (.bootStep f) s = .next t ∧ t.getF F.PWR_BOOT_STEP = 4 ∧ t.power.tpwrEn = true ∧
      t.getF F.PCI_STATUS_WIDTH = f.pcieWidth ∧ t.getF F.PCI_STATUS_GEN = f.pcieGen ∧ t.mem = s.mem) ∧
    (s.getF F.PWR_BOOT_STEP = 4 → s.getF F.PWR_BOOT_ERR ≠ 1 → s.power.tpwrOk = true →
      (f.modules % 4 ≠ 0 → ∃ t, exec (.bootStep f) s = .next t ∧ t.getF F.PWR_BOOT_STEP = 5 ∧ t.power.tensorOff = false ∧ t.power.stopped = false ∧
        t.moduleUp 0 = f.modules.testBit 0 ∧ t.moduleUp 1 = f.modules.testBit 1 ∧ t.mem = s.mem) ∧
      (f.modules % 4 = 0 → ∃ t, exec (.bootStep f) s = .next t ∧ t.getF F.PWR_BOOT_STEP = 4 ∧ t.getF F.PWR_BOOT_ERR = 1 ∧ t.flag F.CMD_CTRL_EN = true)) ∧
    (s.getF F.PWR_BOOT_STEP = 5 → ∃ t, exec (.bootStep f) s = .next t ∧ t.getF F.PWR_BOOT_STEP = 6 ∧ t.mem = [] ∧ t.memErr = [] ∧ t.sec.conf = [] ∧
      ((partFound f).channels ≠ 0 → f.rate ≠ 0 → t.mc.mapping = (List.range 16).filter (fun c => (partFound f).channels.testBit c) ∧
        ∀ c, c < 16 → (partFound f).channels.testBit c = true → t.getF (F.MC_CHc_STAT_STATE c) = 1)) ∧
    (s.getF F.PWR_BOOT_STEP = 6 → ∃ t, exec (.bootStep f) s = .next t ∧ t.getF F.PWR_BOOT_STEP = 7 ∧ t.flag F.HUB_CAP3_DONE = true ∧
      t.getF F.HUB_CAPGEN_GEN = 1 ∧ t.getF F.HUB_CAP0_VC_MASK = (partFound f).cores ∧ t.getF F.HUB_CAP0_Q_MASK = (partFound f).quarters ∧ t.flag F.CMD_IRQ_CAP = true ∧
      (f.variantC = true → t.getF F.HUB_CAP0_VC_MASK < 2 ^ 12 ∧ t.getF F.HUB_CAP0_Q_MASK < 15 ∧ t.flag F.HUB_CAP0_WHOLE = false ∧ t.flag F.GRID_CTRL_QUARTER = true)) ∧
    (s.getF F.PWR_BOOT_STEP = 7 → ∃ t, exec (.bootStep f) s = .next t ∧ t.getF F.PWR_BOOT_STEP = 8 ∧ t.fab.disc = .electing ∧
      (s.fabricBoots = true → t.getF F.PWR_BOOT_ERR = 5) ∧ t.mem = s.mem) ∧
    (∀ c r, s.getF F.PWR_BOOT_STEP = 9 → s.power.bootFail = false → s.power.bootSlots = c :: r → s.host.taken = [] → c.malformed = false → s.gated c = false →
      ∃ t, exec (.bootStep f) s = .next t ∧ t.power.bootSlots = r ∧ t.host.taken = [{ c with accepted := s.now, first := s.firstRound }] ∧
        t.getF F.PWR_BOOT_CMD = min (s.getF F.PWR_BOOT_CMD + 1) 65535 ∧ t.mem = s.mem) ∧
    (s.getF F.PWR_BOOT_STEP = 9 → s.power.bootFail = true → ∃ t, exec (.bootStep f) s = .next t ∧ t.getF F.PWR_BOOT_ERR = 6 ∧ t.power.bootSlots = [] ∧
      t.power.bootFail = false) ∧
    (s.getF F.PWR_BOOT_STEP = 9 → s.power.bootFail = false → s.power.bootSlots = [] → (∀ c ∈ s.host.taken, c.origin ≠ .boot) → ∃ t, exec (.bootStep f) s = .next t ∧
      t.getF F.PWR_BOOT_STEP = 10 ∧ t.flag F.PWR_BOOT_DONE = true ∧ t.flag F.CMD_CTRL_EN = true ∧ t.flag F.TASK_CTRL_SCHED_EN = true ∧
      t.power.bootImage = none ∧ t.mem = s.mem)

/-- Boot over the fabric (R362, R434), and boot step 4 without power-good: a device that may serve sends its image, another answers nothing; a whole valid image is
copied to DRAM; blocks of one that is not whole wait. -/
def Claim.BootImages : Prop :=
  (∀ s : State, s.getF F.PWR_BOOT_STEP = 4 → s.power.tpwrEn = true → s.power.tpwrOk = false → s.getF F.PWR_BOOT_ERR = 0 → ∃ t, exec .tpwrOkTimeout s = .next t ∧
    t.getF F.PWR_BOOT_ERR = 1 ∧ t.power.tpwrEn = false ∧ t.flag F.CMD_CTRL_EN = true) ∧
  (∀ (f : FlitIn) (s r : State), s.accepts f 2 r →
    ((r.flag F.FAB_CTRL_BOOT_SERVE = false ∨ r.flag F.PWR_BOOT_DONE = false ∨ r.getF F.PWR_BOOT_SRC = 0) → ∃ t, exec (.bootRequest f) s = .next t ∧ t = r) ∧
    (r.flag F.FAB_CTRL_BOOT_SERVE = true → r.flag F.PWR_BOOT_DONE = true → r.getF F.PWR_BOOT_SRC = 2 → ∃ t, exec (.bootRequest f) s = .next t ∧ FabricOnly r t ∧
      ∀ n, 64 * n < r.power.bootKept.length →
        t.queued f.port (r.peerFlit 4 0x1C n (((r.power.bootKept.drop (64 * n)).take 64 ++ List.replicate 64 0#8).take 64)))) ∧
  (∀ (f : FlitIn) (tick : Nat) (s r : State), s.accepts f 4 r →
    (r.fabricBoots = false → ∃ t, exec (.bootImage f tick) s = .next t ∧ t = r) ∧
    (r.fabricBoots = true → r.power.bootFailed = [] → r.power.bootPorts = [] → r.power.bootBlocks = [] → r.power.bootBytes = [] → f.payload.length = 64 →
      (f.arg % 2 ^ 22 ≠ 0 → ∃ t, exec (.bootImage f tick) s = .next t ∧ t.power.bootBlocks = [f.port * 2 ^ 32 + f.arg % 2 ^ 22 * 64] ∧
        t.power.bootImage = none ∧ t.regs = r.regs ∧ t.mem = r.mem) ∧
      (f.arg % 2 ^ 22 = 0 → fieldAt f.payload 8 8 = 64 → r.bootCheck f.payload = 0 → ∃ t b, exec (.bootImage f tick) s = .next t ∧
        b = (r.dramEnd - 64) / 2 ^ 20 * 2 ^ 20 ∧ t.power.bootImage = some (b, 64) ∧ t.memBytes b 64 = f.payload ∧ t.getF F.PWR_BOOT_SRC = 2)))

/-- Resets and boot (R362, R431 to R434).
The model's own choices and readings in it: log entries 161, 162, 163, 164, 165, 166, 167, 168, 169, 170, 171, 172, 201. -/
def Obligations.ResetsAndBoot : Prop :=
  Claim.Resets ∧ Claim.BootSteps ∧ Claim.BootImages

/-! ### The host link and registers -/

/-- The host interface (R364, R366, R369, R371): a function-level or interface reset leaves the engines running and the page, the ring and the messages as at reset;
D3 and bus mastering hold messages back; BAR2 reads and writes DRAM within its window and refuses what lies beyond, or meets a confidential region.
The model's own choices and readings in it: log entries 64, 173, 176, 206. -/
def Obligations.HostLink : Prop :=
  ∀ s : State,
    (∀ i ∈ ([.functionLevelReset, .perstN] : List Instr), s.power.tripped = false → ∃ t, exec i s = .next t ∧ t.getF F.PWR_CAUSE_LAST = 6 ∧
      t.getF F.PCI_EVT_FLR = min (s.getF F.PCI_EVT_FLR + 1) 65535 ∧ t.reg R.CMD_NEXT = 1#32 ∧ t.flag F.CMD_LEVEL_AGREED = false ∧ t.host.page = [] ∧
      t.host.cplNext = 1 ∧ t.host.msixEn = false ∧ t.host.msixPend = [] ∧ t.host.bar2 = 0 ∧ t.host.taken = s.host.taken.map HostCmd.orphan ∧
      t.host.cpl = s.host.cpl.filter (fun c => !c.toHost) ∧ t.mem = s.mem ∧ t.hostMem = s.hostMem ∧ t.seq = s.seq ∧ t.yu = s.yu) ∧
    (∀ width gen, (width = 0 ∧ gen = 0) ∨ ((width = 1 ∨ width = 2 ∨ width = 4 ∨ width = 8) ∧ 1 ≤ gen ∧ gen ≤ 4) → ∃ t, exec (.pcieRetrain width gen) s = .next t ∧
      t.getF F.PCI_STATUS_WIDTH = width ∧ t.getF F.PCI_STATUS_GEN = gen ∧ t.mem = s.mem) ∧
    (∃ t, exec (.dStateChange true) s = .next t ∧ t.flag F.PCI_STATUS_D3 = true ∧ t = { s with regs := t.regs } ∧
      ∀ off, off ≠ R.PCI_STATUS → t.reg off = s.reg off) ∧
    (s.host.msixPend = [] → ∃ t, exec (.dStateChange false) s = .next t ∧ t.flag F.PCI_STATUS_D3 = false ∧ t = { s with regs := t.regs }) ∧
    (∀ v, s.host.msixEn = true → s.host.msixMask = false → s.host.msixPend = [v] → s.msixWord v 3 % 2 = 0 →
      (s.flag F.PCI_STATUS_BME = true → ∃ t, exec (.dStateChange false) s = .next t ∧ t.host.msixPend = [] ∧ t.mem = s.mem ∧
        t.hostBytes (s.msixWord v 0 + s.msixWord v 1 * 2 ^ 32) 4 = leBytes 4 (s.msixWord v 2)) ∧
      (s.flag F.PCI_STATUS_D3 = false → ∃ t, exec (.pcieConfigurationWrite (.busMaster true)) s = .next t ∧ t.flag F.PCI_STATUS_BME = true ∧
        t.host.msixPend = [] ∧ t.hostBytes (s.msixWord v 0 + s.msixWord v 1 * 2 ^ 32) 4 = leBytes 4 (s.msixWord v 2))) ∧
    (∃ t, exec (.pcieConfigurationWrite (.busMaster false)) s = .next t ∧ t.flag F.PCI_STATUS_BME = false ∧ t = { s with regs := t.regs }) ∧
    (∀ k, ∃ t, exec (.pcieConfigurationWrite (.bar2Size k)) s = .next t ∧ t.host.bar2 = (if k ≤ 6 then k else s.host.bar2) ∧ t.regs = s.regs ∧ t.mem = s.mem) ∧
    (∀ mask, ∃ t, exec (.pcieConfigurationWrite (.msix false mask)) s = .next t ∧ t = { s with host := { s.host with msixEn := false, msixMask := mask } }) ∧
    (∀ o len write data poisoned, s.flag F.PCI_STATUS_D3 = true → ∃ t, exec (.bar2Access o len write data poisoned) s = .next t ∧ t.mem = s.mem ∧ t.regs = s.regs ∧
      ((if write = true then data.length else len) ≠ 0 → t.host.reply = none)) ∧
    (∀ o len a, s.flag F.PCI_STATUS_D3 = false → len ≠ 0 → a = s.getF F.PCI_BAR2_WIN_BASE * 2 ^ 30 + o →
      ((o + len ≤ 2 ^ (30 + s.host.bar2) → a + len ≤ s.dramEnd → s.confMeets a len = false → (s.moduleUp 0 = true ∨ s.moduleUp 1 = true) →
        (s.stripesWait a len = true → exec (.bar2Access o len false [] false) s = .next s) ∧ (s.stripesWait a len = false → ∃ t,
        exec (.bar2Access o len false [] false) s = .next t ∧ t.mem = s.mem ∧
          t.host.reply = if (s.readDram a len).2.2 = true then none else some (leNat (s.memBytes a len)))) ∧
      ((2 ^ (30 + s.host.bar2) < o + len ∨ s.dramEnd < a + len ∨ s.confMeets a len = true) → ∃ t, exec (.bar2Access o len false [] false) s = .next t ∧
        t.host.reply = none ∧ t.getF F.PCI_EVT_REFUSED = min (s.getF F.PCI_EVT_REFUSED + 1) 65535 ∧ t.mem = s.mem))) ∧
    (∀ o data a, s.flag F.PCI_STATUS_D3 = false → data ≠ [] → a = s.getF F.PCI_BAR2_WIN_BASE * 2 ^ 30 + o →
      (∃ t, exec (.bar2Access o 0 true data true) s = .next t ∧ t.mem = s.mem) ∧
      (o + data.length ≤ 2 ^ (30 + s.host.bar2) → a + data.length ≤ s.dramEnd → s.confMeets a data.length = false → (s.moduleUp 0 = true ∨ s.moduleUp 1 = true) →
        s.stripesLost a data.length = false → s.stripesWait a data.length = false → ∃ t, exec (.bar2Access o 0 true data false) s = .next t ∧ t.memBytes a data.length = data ∧
          ∀ b, b < a ∨ a + data.length ≤ b → t.memByte b = s.memByte b))

/-- Register accesses by BAR0 offset (R8 to R10, R365): a plain write puts the RW bits, clears the W1C bits and sets the W1S bits it names, a read returns the value
and clears the RC bits, offsets between registers read zero, misaligned accesses are refused, and the command page takes writes. -/
def Claim.PlainRegisters : Prop :=
  ∀ (b : Nat) (data : List Byte) (s : State), s.flag F.PCI_STATUS_D3 = false →
    (∀ off v, b < 0x2000000 → b % 4 = 0 → isMsixTable b = false → barReg b = some off → data.length = 4 → v = leNat data → (regRow? off).isSome = true →
      s.pstate ≠ 2 → pictureReg off = false → ruleReg off = false → s.ownWrite off v .host = none → off ≠ R.DBG_MEM_DATA_HI → off ≠ R.MC_RSV → off < 0x10F8000 →
      (off < 0x120000 ∨ 0x130000 ≤ off) → windowOf off = none → ∃ t, exec (.registerWrite .host b data false) s = .next t ∧ t = { s with regs := t.regs } ∧
        (∀ o, o ≠ off → t.reg o = s.reg o) ∧ ∀ i, i < 32 → (t.reg off).toNat.testBit i =
          ((((if (accMask off .rw).testBit i then v.testBit i else (s.reg off).toNat.testBit i) && !(v.testBit i && (accMask off .w1c).testBit i))) ||
            (v.testBit i && (accMask off .w1s).testBit i))) ∧
    (∀ off, b < 0x2000000 → b % 4 = 0 → isMsixTable b = false → isPba b = false → barReg b = some off → s.regAnswers off = true → off ≠ R.DBG_MEM_DATA_LO →
      s.latchGroup off = s → ∃ t, exec (.registerRead .host b 4) s = .next t ∧ t.host.reply = some (s.liveReg off) ∧ (∀ o, o ≠ off → t.reg o = s.reg o) ∧
        (∀ i, i < 32 → (t.reg off).toNat.testBit i = ((s.reg off).toNat.testBit i && !(accMask off .rc).testBit i)) ∧ t.mem = s.mem) ∧
    (∀ off, b < 0x2000000 → b % 4 = 0 → isMsixTable b = false → isPba b = false → barReg b = some off → (regRow? off).isNone = true → s.pstate ≠ 2 →
      ∃ t, exec (.registerRead .host b 4) s = .next t ∧ t = { s with host := { s.host with reply := some 0 } }) ∧
    (b < 0x2000000 → b % 4 ≠ 0 → ∃ t, exec (.registerRead .host b 4) s = .next t ∧ t.host.reply = none ∧
      t.getF F.PCI_EVT_REFUSED = min (s.getF F.PCI_EVT_REFUSED + 1) 65535 ∧ t.mem = s.mem) ∧
    (∀ o, b = 0x2000000 + o → o % 4 = 0 → data.length % 4 = 0 → 4 ≤ data.length → data.length ≤ 64 → o + data.length ≤ 0x4000 →
      ∃ t, exec (.registerWrite .host b data false) s = .next t ∧ (∀ i, i < data.length → SMap.get zeroByte t.host.page (o + i) = data.getD i 0#8) ∧
        (∀ a, a < o ∨ o + data.length ≤ a → SMap.get zeroByte t.host.page a = SMap.get zeroByte s.host.page a) ∧ t.regs = s.regs ∧ t.mem = s.mem) ∧
    (∀ off who, barReg b = some off → who ≠ .host → who ≠ .rulebook → pictureReg off = true → (regRow? off).isSome = true → b % 4 = 0 → data.length = 4 →
      s.scorepad.waiting.length < 64 → ∃ t, exec (.registerWrite who b data false) s = .next t ∧ t.regs = s.regs ∧ t.raster = s.raster ∧
        t.scorepad.waiting = s.scorepad.waiting ++ [⟨0x800 + blockNumber off % 256, 0⟩])

/-- Writes of the domain registers (R40 to R44, R472): an enable starts the turn grid at this tick, a stop takes effect at the end of a running round, the lead
domain changes while no bundle is started, settings that a rule forbids have no effect. -/
def Claim.DomainWrites : Prop :=
  ∀ (n : Nat) (v : Word32) (s : State), n < 4 →
    (s.getF F.TB_CTRL_DOM_EN = 0 → (∀ m, m < 4 → (s.dom m).on = false) → v.toNat % 4 = s.leadDom → bitsOf v.toNat 7 4 = 2 ^ n → s.domOk n = true →
      s.getF (F.TB_Dn_CFG_TRIG_SRC n) ≠ 8 → ∃ t, exec (.domainEnable v) s = .next t ∧ t.getF F.TB_CTRL_DOM_EN = 2 ^ n ∧ (t.dom n).on = true ∧
        (t.dom n).run = false ∧ (t.dom n).next = s.now ∧ (t.dom n).cand = s.now + s.getF (F.TB_Dn_CFG_ANNOUNCE n) * s.turnLen n ∧ (t.dom n).set = s.domSet n ∧
        (t.dom n).trigs = [] ∧ (∀ m, m ≠ n → t.dom m = s.dom m) ∧ t.leadDom = s.leadDom ∧ t.mem = s.mem) ∧
    (s.getF F.TB_CTRL_DOM_EN = 2 ^ n → (∀ m, m < 4 → m ≠ n → (s.dom m).on = false) → (s.dom n).on = true → v.toNat % 4 = s.leadDom → bitsOf v.toNat 7 4 = 0 →
      ∃ t, exec (.domainStop v) s = .next t ∧ t.getF F.TB_CTRL_DOM_EN = 0 ∧ ((s.dom n).run = true → t.dom n = s.dom n) ∧
        ((s.dom n).run = false → (t.dom n).on = false) ∧ (∀ m, m ≠ n → t.dom m = s.dom m) ∧ t.mem = s.mem) ∧
    (s.getF F.TB_CTRL_DOM_EN = 0 → (∀ m, m < 4 → (s.dom m).on = false) → v.toNat % 4 ≠ s.leadDom → bitsOf v.toNat 7 4 = 0 →
      (s.seq.started = false → s.turnLen (v.toNat % 4) ≤ 109225 → ∃ t, exec (.leadWrite v) s = .next t ∧ t.leadDom = v.toNat % 4 ∧ t.tt.running = false ∧
        t.tt.marks = [] ∧ t.mem = s.mem) ∧
      (s.seq.started = true → ∃ t, exec (.leadWrite v) s = .next t ∧ t.reg R.TB_CTRL = s.reg R.TB_CTRL ∧ t.tt = s.tt ∧ t.raster = s.raster)) ∧
    ((s.dom n).on = false → ∃ t, exec (.tbDnCfgWrite n v) s = .next t ∧ t.getF (F.TB_Dn_CFG_TRIG_SRC n) = v.toNat % 16 ∧
      t.getF (F.TB_Dn_CFG_ANNOUNCE n) = bitsOf v.toNat 21 16 ∧ t.flag (F.TB_Dn_CFG_EDGE n) = v.toNat.testBit 8 ∧ t = { s with regs := t.regs }) ∧
    ((s.dom n).on = true → 9 < v.toNat % 16 → ∃ t, exec (.tbDnCfgWrite n v) s = .next t ∧ t.reg (R.TB_Dn_CFG n) = s.reg (R.TB_Dn_CFG n) ∧ t.raster = s.raster) ∧
    ((s.dom n).on = false → n ≠ s.leadDom → bitsOf v.toNat 13 0 ≤ bitsOf v.toNat 29 16 → ∃ t, exec (.tbDnVtotWrite n v) s = .next t ∧
      t.vtMin n = bitsOf v.toNat 13 0 ∧ t.getF (F.TB_Dn_VTOT_VT_MAX n) = bitsOf v.toNat 29 16 ∧ t = { s with regs := t.regs }) ∧
    (bitsOf v.toNat 29 16 < bitsOf v.toNat 13 0 → ∃ t, exec (.tbDnVtotWrite n v) s = .next t ∧ t.reg (R.TB_Dn_VTOT n) = s.reg (R.TB_Dn_VTOT n) ∧ t.raster = s.raster) ∧
    (∀ hi, (s.dom n).on = true → ∃ t, exec (.tbDnRoundWrite n hi v) s = .next t ∧ t = s) ∧
    ((s.dom n).on = false → ∃ t, exec (.tbDnRoundWrite n false v) s = .next t ∧ t.regs = s.regs ∧
      t.dom n = { s.dom n with written := true, nextRound := (s.dom n).shown / 2 ^ 32 * 2 ^ 32 + v.toNat }) ∧
    ((s.dom n).on = false → (s.dom n).shown < 2 ^ 48 → ∃ t, exec (.tbDnRoundWrite n true v) s = .next t ∧ t.regs = s.regs ∧
      t.dom n = { s.dom n with written := true, nextRound := v.toNat % 65536 * 2 ^ 32 + (s.dom n).shown % 2 ^ 32 })

/-- Reads that latch (R35, R183, R454): the first word of a group answers with its low half and latches the rest at that tick. -/
def Claim.LatchingReads : Prop :=
  ∀ s : State,
    (s.regAnswers R.TB_NOW_LO = true → ∃ t, exec .tbNowLoRead s = .next t ∧ t.host.reply = some (s.now % 2 ^ 32) ∧
      t.latchedWord R.TB_NOW_HI = s.now / 2 ^ 32 % 2 ^ 32 ∧ t.regs = s.regs ∧ t.mem = s.mem) ∧
    (∀ n, n < 4 → s.regAnswers (R.TB_Dn_ROUND_LO n) = true → ∃ t, exec (.tbDnRoundLoRead n) s = .next t ∧ t.host.reply = some ((s.dom n).shown % 2 ^ 32) ∧
      t.latchedWord (R.TB_Dn_ROUND_HI n) = (s.dom n).shown / 2 ^ 32 % 2 ^ 16 ∧ t.latchedWord (R.TB_Dn_POS n) = s.posNow n % 2 ^ 32 ∧
      t.latchedWord (R.TB_Dn_TICK n) = s.tickNow n ∧ t.regs = s.regs ∧ t.mem = s.mem) ∧
    (s.regAnswers R.TT_ROUND_LO = true → ∃ t, exec .ttRoundLoRead s = .next t ∧ t.host.reply = some (s.tt.round % 2 ^ 32) ∧
      t.latchedWord R.TT_ROUND_HI = s.tt.round / 2 ^ 32 % 2 ^ 16 ∧ t.latchedWord R.TT_POS = s.ttPos % 2 ^ 32 ∧ t.regs = s.regs ∧ t.mem = s.mem) ∧
    (s.regAnswers R.GRID_OCC_LO = true → ∃ t, exec .gridOccLoRead s = .next t ∧ t.host.reply = some (s.grid.occupancy % 2 ^ 32) ∧
      t.latchedWord R.GRID_OCC_HI = s.grid.occupancy / 2 ^ 32 % 2 ^ 32 ∧ t.regs = s.regs ∧ t.mem = s.mem) ∧
    (∀ n, n < 16 → s.regAnswers (R.VC_n_IDATA_LO n) = true → ∃ t, exec (.vcIdataLoRead n) s = .next t ∧ t.host.reply = some (s.instrWord n % 2 ^ 32) ∧
      t.latchedWord (R.VC_n_IDATA_HI n) = s.instrWord n / 2 ^ 32 ∧ t.regs = s.regs ∧ t.mem = s.mem) ∧
    (∀ e, e < 8 → s.regAnswers (R.CRC_e_VAL_LO e) = true → ∃ t, exec (.crcValLoRead e) s = .next t ∧ t.host.reply = some (s.reg (R.CRC_e_VAL_LO e)).toNat ∧
      t.latchedWord (R.CRC_e_VAL_HI e) = (s.reg (R.CRC_e_VAL_HI e)).toNat ∧ t.regs = s.regs ∧ t.mem = s.mem)

/-- Register reads and writes (R8 to R10, R35, R40 to R44, R365).
The model's own choices and readings in it: log entries 149, 175, 180, 181, 182. -/
def Obligations.RegisterAccess : Prop :=
  Claim.PlainRegisters ∧ Claim.DomainWrites ∧ Claim.LatchingReads

/-- Writes of the grid, accumulator, instruction-memory and tally registers (R91, R109, R111, R183, R203): what they change, and that one without its right or in a
forbidden state has no effect. -/
def Claim.DiagnosticWrites : Prop :=
  ∀ (v : Word32) (s : State),
    (s.seq.started = false → s.gridIdle = true → v.toNat.testBit 0 = true → ∃ t, exec (.gridCtrlWrite v) s = .next t ∧ t.flag F.GRID_CTRL_QUARTER = true ∧ t.mem = s.mem) ∧
    ((s.seq.started = true ∨ s.gridIdle = false) → ∃ t, exec (.gridCtrlWrite v) s = .next t ∧ t.reg R.GRID_CTRL = s.reg R.GRID_CTRL ∧ t.grid = s.grid) ∧
    ((s.lc ≠ 2 ∨ s.debugPerm 5 = true) → ∃ t, exec (.accInjectWrite v) s = .next t ∧ t = s.putRw R.ACC_INJECT v.toNat) ∧
    (s.lc = 2 → s.debugPerm 5 = false → ∃ t, exec (.accInjectWrite v) s = .next t ∧ t.reg R.ACC_INJECT = s.reg R.ACC_INJECT ∧ t.grid = s.grid) ∧
    (∀ row col, s.accPresent row col = false → ∃ t, exec (.accDiagnosticAccess row col 0 16 false [] []) s = .next t ∧ t.host.reply = none ∧ t.grid = s.grid) ∧
    (∀ row col off len write, ∀ data : List Byte, s.accPresent row col = true → s.sec.conf = [] → s.passHolds (row * 512 + col) = true →
      accForm off len = true → (write = true → data.length = len) → ∃ t, exec (.accDiagnosticAccess row col off len write data []) s = .next t ∧ t = s) ∧
    (∀ row col, s.accPresent row col = true → s.sec.conf = [] → s.passHolds (row * 512 + col) = false →
      (∀ s1 x, s.readAcc (row * 512 + col) = (s1, x) → ∃ t, exec (.accDiagnosticAccess row col 0 16 false [] []) s = .next t ∧
        t.host.reply = some (s.accWord (row * 512 + col)).toNat ∧ t.grid = s1.grid ∧ t.regs = s1.regs) ∧
      (∀ s1 x off, s.readAcc (row * 512 + col) = (s1, x) → off < 16 → off % 4 = 0 → ∃ t, exec (.accDiagnosticAccess row col off 4 false [] []) s = .next t ∧
        t.host.reply = x.map (fun w => w.toNat / 2 ^ (8 * off) % 2 ^ 32) ∧ t.grid = s1.grid ∧ t.regs = s1.regs) ∧
      (∀ s1 off, ∀ data : List Byte, data.length = 4 → s.readAcc (row * 512 + col) = (s1, none) → off < 16 → off % 4 = 0 →
        ∃ t, exec (.accDiagnosticAccess row col off 4 true data []) s = .next t ∧ t = s1) ∧
      (∀ s1 w off, ∀ data : List Byte, data.length = 4 → s.readAcc (row * 512 + col) = (s1, some w) → off < 16 → off % 4 = 0 →
        ∃ t, exec (.accDiagnosticAccess row col off 4 true data []) s = .next t ∧ t = s1.writeAcc (row * 512 + col)
          (AccParts.ofWord (BitVec.ofNat 128 (leNat ((leBytes 16 w.toNat).take off ++ data ++ (leBytes 16 w.toNat).drop (off + 4)))))) ∧
      (∀ data : List Byte, data.length = 16 → ∃ t, exec (.accDiagnosticAccess row col 0 16 true data []) s = .next t ∧
        t = s.writeAcc (row * 512 + col) (AccParts.ofWord (BitVec.ofNat 128 (leNat data))))) ∧
    (∀ n who i, n < 16 → i = s.getF (F.VC_n_IADDR_INDEX n) →
      (s.mayWriteCode who = true → s.codeFree n = true → ∃ t, exec (.vcIdataHiWrite n v who) s = .next t ∧
        SMap.get (fun _ => 0#64) t.yu.imem (n * 16384 + i) = BitVec.ofNat 64 ((SMap.get (fun _ => 0#32) s.yu.idataLo n).toNat + v.toNat * 2 ^ 32) ∧
        (∀ j, j ≠ n * 16384 + i → SMap.get (fun _ => 0#64) t.yu.imem j = SMap.get (fun _ => 0#64) s.yu.imem j) ∧
        t.getF (F.VC_n_IADDR_INDEX n) = (i + 1) % 16384 ∧ t.mem = s.mem) ∧
      ((s.mayWriteCode who = false ∨ s.codeFree n = false) → ∃ t, exec (.vcIdataHiWrite n v who) s = .next t ∧ t.yu = s.yu ∧
        t.reg (R.VC_n_IADDR n) = s.reg (R.VC_n_IADDR n))) ∧
    (∀ i, i < 64 → ∃ t, exec (.queTallyWrite i v) s = .next t ∧ t.getF (F.QUE_TALLY_i_VALUE i) = v.toNat ∧
      (∀ j, j < 64 → j ≠ i → t.getF (F.QUE_TALLY_i_VALUE j) = s.getF (F.QUE_TALLY_i_VALUE j)) ∧ t = { s with regs := t.regs })

/-- Debug registers (R408, R420): with its permission a session halts and steps usable cores, reads and writes memory in its scope eight bytes at a time, and its
address advances; without it nothing changes and the write is recorded. -/
def Claim.DebugRegisters : Prop :=
  ∀ (v : Word32) (s : State),
    (∀ i ∈ ([.dbgHalt v, .dbgStep v] : List Instr),
      (s.regAnswers R.DBG_CTRL = true → s.debugPerm 0 = true → ∃ t, exec i s = .next t ∧ t.getF F.DBG_CTRL_HALT = bitsOf v.toNat 31 16 ∧
        t.getF F.DBG_STATUS_HALTED = bitsOf v.toNat 31 16 &&& s.getF F.HUB_CAP0_VC_MASK ∧ t.mem = s.mem ∧
        ∀ n, n < 16 → t.vcore n = if s.unitUsable n = true then
            { s.vcore n with dbgHalted := v.toNat.testBit (16 + n), dbgStep := v.toNat.testBit (16 + n) && ((s.vcore n).dbgStep || v.toNat.testBit n) }
          else s.vcore n) ∧
      ((s.regAnswers R.DBG_CTRL = false ∨ s.debugPerm 0 = false) → ∃ t, exec i s = .next t ∧ t.yu = s.yu ∧ t.reg R.DBG_CTRL = s.reg R.DBG_CTRL)) ∧
    (s.debugWaits = true → (∃ t, exec .dbgMemDataLoRead s = .next t ∧ t = s) ∧
      (s.regAnswers R.DBG_CTRL = true → ∃ t, exec (.dbgMemDataHiWrite v) s = .next t ∧ t = s)) ∧
    (∀ s1 x, s.debugWaits = false → s.regAnswers R.DBG_MEM_DATA_LO = true → s.debugPerm 2 = true → s.debugRead = (s1, some x) → s.debugAddr + 8 < 2 ^ 48 → x < 2 ^ 64 →
      ∃ t, exec .dbgMemDataLoRead s = .next t ∧ t.host.reply = some (x % 2 ^ 32) ∧ t.latchedWord R.DBG_MEM_DATA_HI = x / 2 ^ 32 ∧
        t.debugAddr = s.debugAddr + 8 ∧ t.mem = s1.mem) ∧
    (s.debugWaits = false → s.regAnswers R.DBG_MEM_DATA_LO = true → s.debugPerm 2 = false → ∃ t, exec .dbgMemDataLoRead s = .next t ∧ t.host.reply = some 0 ∧
      t.flag F.DBG_STATUS_MEM_ERR = true ∧ t.mem = s.mem) ∧
    (∀ a, s.regAnswers R.DBG_CTRL = true → s.debugPerm 3 = true → s.debugScope = true → a = s.debugAddr → s.confMeets a 8 = false → isHostWindow a = true →
      s.flag F.PCI_STATUS_BME = true → ∃ t, exec (.dbgMemDataHiWrite v) s = .next t ∧
        t.hostBytes (s.host.hwin + (a - 0x2000000000)) 8 = leBytes 4 (s.reg R.DBG_MEM_DATA_LO).toNat ++ leBytes 4 v.toNat ∧ t.mem = s.mem) ∧
    (∀ a, s.debugWaits = false → s.regAnswers R.DBG_CTRL = true → s.debugPerm 3 = true → 2 ≤ s.debugLevel → s.debugScope = true → a = s.debugAddr →
      s.confMeets a 8 = false → isCvAddr a = true → isHostWindow a = false → isRegAddr a = false → isAccAddr a = false →
      ∃ t, exec (.dbgMemDataHiWrite v) s = .next t ∧ t.cvEntry ((a - 0x1104000000) / 8) =
        (s.setCv ((a - 0x1104000000) / 8) ((s.reg R.DBG_MEM_DATA_LO).toNat + v.toNat * 2 ^ 32)).cvEntry ((a - 0x1104000000) / 8) ∧ t.mem = s.mem) ∧
    (s.debugWaits = false → s.regAnswers R.DBG_CTRL = true → 2 ≤ s.debugLevel → s.debugPerm 3 = false → ∃ t, exec (.dbgMemDataHiWrite v) s = .next t ∧
      t.flag F.DBG_STATUS_MEM_ERR = true ∧ t.mem = s.mem ∧ t.hostMem = s.hostMem)

/-- Diagnostic and debug registers (R91, R109, R111, R183, R203, R408, R420).
The model's own choices and readings in it: log entries 177, 178, 179, 202, 203. -/
def Obligations.DiagnosticRegisters : Prop :=
  Claim.DiagnosticWrites ∧ Claim.DebugRegisters

/-- OTP, entropy and sessions (R392 to R396, R399, R412): a READ answers with the word, a PROGRAM or GENSECRET is refused with its code or begins, one that reads back
good has blown its bits and no other, health tests follow, and a session ends at its time.
The model's own choices and readings in it: log entries 99, 100. -/
def Obligations.FusesAndSessions : Prop :=
  ∀ s : State,
    (s.otpOpen = true → ∃ t, exec .secOtpRead s = .next t ∧ (t.reg R.SEC_OTP_DATA).toNat = s.otpRead (s.getF F.SEC_OTP_ADDR_WORD * 4) % 2 ^ 32 ∧
      t.getF F.SEC_OTP_CMD_ERR = 0 ∧ t.sec = s.sec ∧ t.mem = s.mem) ∧
    (∀ i ∈ ([.secOtpRead, .secOtpProgram, .secOtpGensecret] : List Instr),
      (2 ≤ s.lc → s.scorepad.waiting.length < 64 → ∃ t, exec i s = .next t ∧
        t = { s with scorepad := { s.scorepad with waiting := s.scorepad.waiting ++ [⟨0x800 + blockNumber R.SEC_OTP_CMD % 256, 0⟩] } }) ∧
      (s.lc < 2 → s.flag F.SEC_OTP_CMD_BUSY = true → ∃ t, exec i s = .next t ∧ t = s)) ∧
    (∀ a data, s.otpOpen = true → a = s.getF F.SEC_OTP_ADDR_WORD * 4 → data = (s.reg R.SEC_OTP_DATA).toNat →
      (s.otpRefusal a data ≠ 0 → ∃ t, exec .secOtpProgram s = .next t ∧ t.getF F.SEC_OTP_CMD_ERR = s.otpRefusal a data ∧ t.flag F.SEC_OTP_CMD_BUSY = false ∧
        t.sec.otp = s.sec.otp) ∧
      (s.otpRefusal a data = 0 → ∃ t, exec .secOtpProgram s = .next t ∧ t.flag F.SEC_OTP_CMD_BUSY = true ∧ t.sec = { s.sec with otpCmd := some (2, a, data) })) ∧
    (∀ k, s.otpOpen = true →
      k = (if s.lc ≠ 0 then 1 else if s.anyBlown 0x100 32 = true then 2 else if s.flag F.SEC_STATUS_FUSE_PWR = false then 3
        else if s.flag F.SEC_STATUS_RNG_OK = false then 5 else 0) →
      (k ≠ 0 → ∃ t, exec .secOtpGensecret s = .next t ∧ t.getF F.SEC_OTP_CMD_ERR = k ∧ t.flag F.SEC_OTP_CMD_BUSY = false ∧ t.sec.otp = s.sec.otp) ∧
      (k = 0 → ∃ t, exec .secOtpGensecret s = .next t ∧ t.flag F.SEC_OTP_CMD_BUSY = true ∧ t.sec = { s.sec with otpCmd := some (3, 0x100, 0) })) ∧
    (∀ a data, s.sec.otpCmd = some (2, a, data) → ∃ t, exec (.otpCommandComplete [] []) s = .next t ∧ t.getF F.SEC_OTP_CMD_ERR = 0 ∧
      t.flag F.SEC_OTP_CMD_BUSY = false ∧ t.sec.otpCmd = none ∧ (∀ i, i < 4 → t.otpByte (a + i) = s.otpByte (a + i) ||| data / 256 ^ i % 256) ∧
      (∀ b, b < a ∨ a + 4 ≤ b → t.otpByte b = s.otpByte b)) ∧
    (s.sec.otpCmd = some (3, 0x100, 0) → ∃ t, exec (.otpCommandComplete [] []) s = .next t ∧ t.getF F.SEC_OTP_CMD_ERR = 0 ∧ t.freeIdx = s.freeIdx + 1 ∧
      (∀ i, i < 32 → t.otpByte (0x100 + i) = s.otpByte (0x100 + i) ||| ((s.drbg 32).getD i 0#8).toNat) ∧
      (∀ b, b < 0x100 ∨ 0x120 ≤ b → t.otpByte b = s.otpByte b)) ∧
    (∃ t, exec .rngTestFail s = .next t ∧ t.flag F.SEC_STATUS_RNG_OK = false ∧ t.sec = s.sec ∧ t.mem = s.mem) ∧
    (∃ t, exec .rngTestPass s = .next t ∧ t.flag F.SEC_STATUS_RNG_OK = true ∧ t = { s with regs := t.regs }) ∧
    (∀ d, s.sec.debug = some d →
      (∀ e, d.ends = some e → ∃ t, exec .debugSessionExpiry s = .next t ∧ t.sec.debug = none ∧ t.reg R.DBG_CTRL = 0#32 ∧ t.debugLevel = 0 ∧ t.now = max s.now e ∧
        t.mem = s.mem) ∧
      (d.ends = none → ∃ t, exec .debugSessionExpiry s = .next t ∧ t = s))

/-- R38: an enable of a domain whose turn length is below 834 ticks (the field's 20 bits hold none above 1,048,575) leaves its bit of DOM_EN 0 and the domain without a turn grid, and is recorded. -/
def Obligations.TurnLengthRange : Prop :=
  ∀ (n : Nat) (v : Word32) (s : State), n < 4 → v.toNat % 4 = s.leadDom → v.toNat.testBit (4 + n) = true → (s.dom n).on = false →
    (s.getF F.TB_CTRL_DOM_EN).testBit n = false → s.turnLen n < 834 → s.scorepad.waiting.length ≤ 60 →
    ∃ t, exec (.domainEnable v) s = .next t ∧ (t.getF F.TB_CTRL_DOM_EN).testBit n = false ∧ t.dom n = s.dom n ∧
      ∃ r, r ≠ [] ∧ t.scorepad.waiting = s.scorepad.waiting ++ r

/-! ### Reset and invariants -/

/-- The machine right after reset: every register at its reset value, no command waiting, taken or pending, no domain, context or fuse in use, and the memories in
their canonical form.
The model's own choices and readings in it: log entries 4, 5, 6. -/
def Obligations.ResetState : Prop :=
  (∀ off, State.reset.reg off = regDefault off) ∧ State.reset.pending = [] ∧ State.reset.now = 0 ∧ State.reset.host.taken = [] ∧ State.reset.host.due = [] ∧
  (∀ n, (State.reset.dom n).on = false ∧ (State.reset.dom n).run = false) ∧ (∀ a, State.reset.memByte a = 0#8) ∧ (∀ a, State.reset.otpByte a = 0) ∧
  State.reset.seq.bundle = none ∧ State.reset.sec.debug = none ∧ Memory.wf State.reset.mem ∧ Memory.wf State.reset.hostMem

/-- Every step keeps device memory and host memory in their canonical form.
The model's own choices and readings in it: log entry 4. -/
def Obligations.MemoryStaysCanonical : Prop :=
  ∀ s t : State, step s = .next t → Memory.wf s.mem → Memory.wf s.hostMem → Memory.wf t.mem ∧ Memory.wf t.hostMem

/-- A fuse that is blown stays blown under every step (R392), and a step takes from the queue the command at its front and no other. -/
def Obligations.FusesStayBlown : Prop :=
  ∀ s t : State, step s = .next t → t.pending = s.pending.tail ∧ ∀ a i, (s.otpByte a).testBit i = true → (t.otpByte a).testBit i = true
end

