-- ==== Sys2Proof/Laws/Maps.lean ====
section
/-! SUPPORT. Laws of the sparse maps: a read after a write, and the canonical form that every write keeps. -/

namespace Sys2Proof

variable {α : Type}

theorem SMap.find?_erase (m : SMap α) (k j : Nat) :
    SMap.find? (SMap.erase m k) j = if j = k then none else SMap.find? m j := by
  induction m with
  | nil => simp [SMap.erase, SMap.find?]
  | cons c m ih =>
    unfold SMap.erase at ih ⊢
    by_cases h : c.1 = k
    · have h1 : (c :: m).filter (fun c => c.1 != k) = m.filter (fun c => c.1 != k) := by simp [h]
      rw [h1, ih]
      by_cases hj : j = k
      · simp [hj]
      · simp [hj, SMap.find?, h]
    · have h1 : (c :: m).filter (fun c => c.1 != k) = c :: m.filter (fun c => c.1 != k) := by simp [h]
      rw [h1]
      by_cases hj : j = c.1
      · subst hj; simp [SMap.find?, h]
      · simp [SMap.find?, hj, ih]

theorem SMap.find?_insert (m : SMap α) (k j : Nat) (v : α) (h : SMap.find? m k = none) :
    SMap.find? (SMap.insert m k v) j = if j = k then some v else SMap.find? m j := by
  induction m with
  | nil => simp [SMap.insert, SMap.find?]
  | cons c m ih =>
    obtain ⟨a, b⟩ := c
    have hk : k ≠ a := fun e => by simp [SMap.find?, e] at h
    have hm : SMap.find? m k = none := by simpa [SMap.find?, hk] using h
    unfold SMap.insert
    by_cases hl : k < a
    · simp [hl, SMap.find?]
    · rw [if_neg hl]
      by_cases hj : j = a
      · subst hj; simp [SMap.find?, Ne.symm hk]
      · simp [SMap.find?, hj, ih hm]

/-- A read after a write: the value written at its key, the old value elsewhere. -/
theorem SMap.get_set [DecidableEq α] (d : Nat → α) (m : SMap α) (k j : Nat) (v : α) :
    SMap.get d (SMap.set d m k v) j = if j = k then v else SMap.get d m j := by
  unfold SMap.get SMap.set
  split
  · rename_i hv
    rw [SMap.find?_erase]
    split
    · rename_i hj; simp [hj, hv]
    · rfl
  · rw [SMap.find?_insert _ _ _ _ (by simp [SMap.find?_erase]), SMap.find?_erase]
    split <;> rfl

@[simp] theorem SMap.get_set_same [DecidableEq α] (d : Nat → α) (m : SMap α) (k : Nat) (v : α) :
    SMap.get d (SMap.set d m k v) k = v := by simp [SMap.get_set]

theorem SMap.get_set_other [DecidableEq α] (d : Nat → α) (m : SMap α) (k j : Nat) (v : α) (h : j ≠ k) :
    SMap.get d (SMap.set d m k v) j = SMap.get d m j := by simp [SMap.get_set, h]

theorem SMap.mem_insert (m : SMap α) (k : Nat) (v : α) (c : Nat × α) :
    c ∈ SMap.insert m k v ↔ c = (k, v) ∨ c ∈ m := by
  induction m with
  | nil => simp [SMap.insert]
  | cons a m ih =>
    obtain ⟨x, y⟩ := a
    unfold SMap.insert
    split
    · simp
    · simp only [List.mem_cons, ih]; exact ⟨fun h => by tauto, fun h => by tauto⟩

theorem SMap.pairwise_insert (m : SMap α) (k : Nat) (v : α) (h : m.Pairwise (fun a b => a.1 < b.1))
    (hk : ∀ c ∈ m, c.1 ≠ k) : (SMap.insert m k v).Pairwise (fun a b => a.1 < b.1) := by
  induction m with
  | nil => simp [SMap.insert]
  | cons a m ih =>
    obtain ⟨x, y⟩ := a
    have hx := List.pairwise_cons.mp h
    unfold SMap.insert
    split
    · rename_i hl
      refine List.pairwise_cons.mpr ⟨fun c hc => ?_, h⟩
      rcases List.mem_cons.mp hc with rfl | hc
      · exact hl
      · exact Nat.lt_trans hl (hx.1 c hc)
    · rename_i hl
      have hne : x ≠ k := hk (x, y) (List.mem_cons_self ..)
      refine List.pairwise_cons.mpr ⟨fun c hc => ?_, ih hx.2 (fun c hc => hk c (List.mem_cons_of_mem _ hc))⟩
      rcases (SMap.mem_insert _ _ _ _).mp hc with rfl | hc
      · show x < k; omega
      · exact hx.1 c hc

/-- A write keeps the canonical form. -/
theorem SMap.wf_set [DecidableEq α] (d : Nat → α) (m : SMap α) (k : Nat) (v : α) (h : SMap.wf d m) :
    SMap.wf d (SMap.set d m k v) := by
  have he : SMap.wf d (SMap.erase m k) :=
    ⟨h.1.filter _, fun c hc => h.2 c (List.mem_of_mem_filter hc)⟩
  have hne : ∀ c ∈ SMap.erase m k, c.1 ≠ k := fun c hc => by simpa using (List.mem_filter.mp hc).2
  unfold SMap.set
  split
  · exact he
  · rename_i hv
    refine ⟨SMap.pairwise_insert _ _ _ he.1 hne, fun c hc => ?_⟩
    rcases (SMap.mem_insert _ _ _ _).mp hc with rfl | hc
    · exact hv
    · exact he.2 c hc

/-- Dropping entries keeps the canonical form. -/
theorem SMap.wf_filter (d : Nat → α) (m : SMap α) (p : Nat × α → Bool) (h : SMap.wf d m) : SMap.wf d (m.filter p) :=
  ⟨h.1.filter _, fun c hc => h.2 c (List.mem_of_mem_filter hc)⟩

theorem SMap.wf_nil (d : Nat → α) : SMap.wf d ([] : SMap α) := ⟨List.Pairwise.nil, by simp⟩

end Sys2Proof
end

