-- ==== Sys2Proof/Laws/State.lean ====
section
/-! SUPPORT. What each named update of the state leaves alone: one rule per field, as one conjunction per update. -/

namespace Sys2Proof.Machine

variable (s : State)

@[simp] theorem setReg_fields (o : Nat) (v : Word32) :
    (s.setReg o v).pending = s.pending ∧ (s.setReg o v).now = s.now ∧ (s.setReg o v).freeIdx = s.freeIdx ∧ (s.setReg o v).mem = s.mem ∧
    (s.setReg o v).memErr = s.memErr ∧ (s.setReg o v).hostMem = s.hostMem ∧ (s.setReg o v).yu = s.yu ∧ (s.setReg o v).spad = s.spad ∧
    (s.setReg o v).rings = s.rings ∧ (s.setReg o v).movers = s.movers ∧ (s.setReg o v).bwr = s.bwr ∧ (s.setReg o v).shc = s.shc ∧
    (s.setReg o v).mc = s.mc ∧ (s.setReg o v).grid = s.grid ∧ (s.setReg o v).seq = s.seq ∧ (s.setReg o v).adapt = s.adapt ∧ (s.setReg o v).tt = s.tt ∧
    (s.setReg o v).tcc = s.tcc ∧ (s.setReg o v).raster = s.raster ∧ (s.setReg o v).host = s.host ∧ (s.setReg o v).sec = s.sec ∧
    (s.setReg o v).power = s.power ∧ (s.setReg o v).flash = s.flash ∧ (s.setReg o v).scorepad = s.scorepad ∧ (s.setReg o v).latched = s.latched := by
  and_intros <;> rfl

@[simp] theorem drawFree_fields  :
    (s.drawFree).pending = s.pending ∧ (s.drawFree).now = s.now ∧ (s.drawFree).regs = s.regs ∧ (s.drawFree).mem = s.mem ∧
    (s.drawFree).memErr = s.memErr ∧ (s.drawFree).hostMem = s.hostMem ∧ (s.drawFree).yu = s.yu ∧ (s.drawFree).spad = s.spad ∧
    (s.drawFree).rings = s.rings ∧ (s.drawFree).movers = s.movers ∧ (s.drawFree).bwr = s.bwr ∧ (s.drawFree).shc = s.shc ∧ (s.drawFree).mc = s.mc ∧
    (s.drawFree).grid = s.grid ∧ (s.drawFree).seq = s.seq ∧ (s.drawFree).adapt = s.adapt ∧ (s.drawFree).tt = s.tt ∧ (s.drawFree).tcc = s.tcc ∧
    (s.drawFree).raster = s.raster ∧ (s.drawFree).host = s.host ∧ (s.drawFree).sec = s.sec ∧ (s.drawFree).power = s.power ∧
    (s.drawFree).flash = s.flash ∧ (s.drawFree).scorepad = s.scorepad ∧ (s.drawFree).latched = s.latched := by
  and_intros <;> rfl

@[simp] theorem putMem_fields (a : Nat) (bs : List Byte) :
    (s.putMem a bs).pending = s.pending ∧ (s.putMem a bs).now = s.now ∧ (s.putMem a bs).freeIdx = s.freeIdx ∧ (s.putMem a bs).regs = s.regs ∧
    (s.putMem a bs).memErr = s.memErr ∧ (s.putMem a bs).hostMem = s.hostMem ∧ (s.putMem a bs).yu = s.yu ∧ (s.putMem a bs).spad = s.spad ∧
    (s.putMem a bs).rings = s.rings ∧ (s.putMem a bs).movers = s.movers ∧ (s.putMem a bs).bwr = s.bwr ∧ (s.putMem a bs).shc = s.shc ∧
    (s.putMem a bs).mc = s.mc ∧ (s.putMem a bs).grid = s.grid ∧ (s.putMem a bs).seq = s.seq ∧ (s.putMem a bs).adapt = s.adapt ∧
    (s.putMem a bs).tt = s.tt ∧ (s.putMem a bs).tcc = s.tcc ∧ (s.putMem a bs).raster = s.raster ∧ (s.putMem a bs).host = s.host ∧
    (s.putMem a bs).sec = s.sec ∧ (s.putMem a bs).power = s.power ∧ (s.putMem a bs).flash = s.flash ∧ (s.putMem a bs).scorepad = s.scorepad ∧
    (s.putMem a bs).latched = s.latched := by
  and_intros <;> rfl

@[simp] theorem putHost_fields (a : Nat) (bs : List Byte) :
    (s.putHost a bs).pending = s.pending ∧ (s.putHost a bs).now = s.now ∧ (s.putHost a bs).freeIdx = s.freeIdx ∧ (s.putHost a bs).regs = s.regs ∧
    (s.putHost a bs).mem = s.mem ∧ (s.putHost a bs).memErr = s.memErr ∧ (s.putHost a bs).yu = s.yu ∧ (s.putHost a bs).spad = s.spad ∧
    (s.putHost a bs).rings = s.rings ∧ (s.putHost a bs).movers = s.movers ∧ (s.putHost a bs).bwr = s.bwr ∧ (s.putHost a bs).shc = s.shc ∧
    (s.putHost a bs).mc = s.mc ∧ (s.putHost a bs).grid = s.grid ∧ (s.putHost a bs).seq = s.seq ∧ (s.putHost a bs).adapt = s.adapt ∧
    (s.putHost a bs).tt = s.tt ∧ (s.putHost a bs).tcc = s.tcc ∧ (s.putHost a bs).raster = s.raster ∧ (s.putHost a bs).host = s.host ∧
    (s.putHost a bs).sec = s.sec ∧ (s.putHost a bs).power = s.power ∧ (s.putHost a bs).flash = s.flash ∧ (s.putHost a bs).scorepad = s.scorepad ∧
    (s.putHost a bs).latched = s.latched := by
  and_intros <;> rfl

@[simp] theorem setErr_fields (w e : Nat) :
    (s.setErr w e).pending = s.pending ∧ (s.setErr w e).now = s.now ∧ (s.setErr w e).freeIdx = s.freeIdx ∧ (s.setErr w e).regs = s.regs ∧
    (s.setErr w e).mem = s.mem ∧ (s.setErr w e).hostMem = s.hostMem ∧ (s.setErr w e).yu = s.yu ∧ (s.setErr w e).spad = s.spad ∧
    (s.setErr w e).rings = s.rings ∧ (s.setErr w e).movers = s.movers ∧ (s.setErr w e).bwr = s.bwr ∧ (s.setErr w e).shc = s.shc ∧
    (s.setErr w e).mc = s.mc ∧ (s.setErr w e).grid = s.grid ∧ (s.setErr w e).seq = s.seq ∧ (s.setErr w e).adapt = s.adapt ∧ (s.setErr w e).tt = s.tt ∧
    (s.setErr w e).tcc = s.tcc ∧ (s.setErr w e).raster = s.raster ∧ (s.setErr w e).host = s.host ∧ (s.setErr w e).sec = s.sec ∧
    (s.setErr w e).power = s.power ∧ (s.setErr w e).flash = s.flash ∧ (s.setErr w e).scorepad = s.scorepad ∧ (s.setErr w e).latched = s.latched := by
  and_intros <;> rfl

@[simp] theorem putTable_fields (n o : Nat) (bs : List Byte) :
    (s.putTable n o bs).pending = s.pending ∧ (s.putTable n o bs).now = s.now ∧ (s.putTable n o bs).freeIdx = s.freeIdx ∧
    (s.putTable n o bs).regs = s.regs ∧ (s.putTable n o bs).mem = s.mem ∧ (s.putTable n o bs).memErr = s.memErr ∧
    (s.putTable n o bs).hostMem = s.hostMem ∧ (s.putTable n o bs).yu = s.yu ∧ (s.putTable n o bs).spad = s.spad ∧ (s.putTable n o bs).rings = s.rings ∧
    (s.putTable n o bs).movers = s.movers ∧ (s.putTable n o bs).bwr = s.bwr ∧ (s.putTable n o bs).shc = s.shc ∧ (s.putTable n o bs).mc = s.mc ∧
    (s.putTable n o bs).grid = s.grid ∧ (s.putTable n o bs).seq = s.seq ∧ (s.putTable n o bs).adapt = s.adapt ∧ (s.putTable n o bs).tt = s.tt ∧
    (s.putTable n o bs).raster = s.raster ∧ (s.putTable n o bs).host = s.host ∧ (s.putTable n o bs).sec = s.sec ∧ (s.putTable n o bs).power = s.power ∧
    (s.putTable n o bs).flash = s.flash ∧ (s.putTable n o bs).scorepad = s.scorepad ∧ (s.putTable n o bs).latched = s.latched := by
  and_intros <;> rfl

@[simp] theorem setSlotReady_fields (r i : Nat) (v : Bool) :
    (s.setSlotReady r i v).pending = s.pending ∧ (s.setSlotReady r i v).now = s.now ∧ (s.setSlotReady r i v).freeIdx = s.freeIdx ∧
    (s.setSlotReady r i v).regs = s.regs ∧ (s.setSlotReady r i v).mem = s.mem ∧ (s.setSlotReady r i v).memErr = s.memErr ∧
    (s.setSlotReady r i v).hostMem = s.hostMem ∧ (s.setSlotReady r i v).yu = s.yu ∧ (s.setSlotReady r i v).spad = s.spad ∧
    (s.setSlotReady r i v).movers = s.movers ∧ (s.setSlotReady r i v).bwr = s.bwr ∧ (s.setSlotReady r i v).shc = s.shc ∧
    (s.setSlotReady r i v).mc = s.mc ∧ (s.setSlotReady r i v).grid = s.grid ∧ (s.setSlotReady r i v).seq = s.seq ∧
    (s.setSlotReady r i v).adapt = s.adapt ∧ (s.setSlotReady r i v).tt = s.tt ∧ (s.setSlotReady r i v).tcc = s.tcc ∧
    (s.setSlotReady r i v).raster = s.raster ∧ (s.setSlotReady r i v).host = s.host ∧ (s.setSlotReady r i v).sec = s.sec ∧
    (s.setSlotReady r i v).power = s.power ∧ (s.setSlotReady r i v).flash = s.flash ∧ (s.setSlotReady r i v).scorepad = s.scorepad ∧
    (s.setSlotReady r i v).latched = s.latched := by
  and_intros <;> rfl

@[simp] theorem setSlotGen_fields (r i v : Nat) :
    (s.setSlotGen r i v).pending = s.pending ∧ (s.setSlotGen r i v).now = s.now ∧ (s.setSlotGen r i v).freeIdx = s.freeIdx ∧
    (s.setSlotGen r i v).regs = s.regs ∧ (s.setSlotGen r i v).mem = s.mem ∧ (s.setSlotGen r i v).memErr = s.memErr ∧
    (s.setSlotGen r i v).hostMem = s.hostMem ∧ (s.setSlotGen r i v).yu = s.yu ∧ (s.setSlotGen r i v).spad = s.spad ∧
    (s.setSlotGen r i v).movers = s.movers ∧ (s.setSlotGen r i v).bwr = s.bwr ∧ (s.setSlotGen r i v).shc = s.shc ∧ (s.setSlotGen r i v).mc = s.mc ∧
    (s.setSlotGen r i v).grid = s.grid ∧ (s.setSlotGen r i v).seq = s.seq ∧ (s.setSlotGen r i v).adapt = s.adapt ∧ (s.setSlotGen r i v).tt = s.tt ∧
    (s.setSlotGen r i v).tcc = s.tcc ∧ (s.setSlotGen r i v).raster = s.raster ∧ (s.setSlotGen r i v).host = s.host ∧ (s.setSlotGen r i v).sec = s.sec ∧
    (s.setSlotGen r i v).power = s.power ∧ (s.setSlotGen r i v).flash = s.flash ∧ (s.setSlotGen r i v).scorepad = s.scorepad ∧
    (s.setSlotGen r i v).latched = s.latched := by
  and_intros <;> rfl

@[simp] theorem setHq_fields (q : Nat) (l : List Nat) :
    (s.setHq q l).pending = s.pending ∧ (s.setHq q l).now = s.now ∧ (s.setHq q l).freeIdx = s.freeIdx ∧ (s.setHq q l).regs = s.regs ∧
    (s.setHq q l).mem = s.mem ∧ (s.setHq q l).memErr = s.memErr ∧ (s.setHq q l).hostMem = s.hostMem ∧ (s.setHq q l).yu = s.yu ∧
    (s.setHq q l).spad = s.spad ∧ (s.setHq q l).movers = s.movers ∧ (s.setHq q l).bwr = s.bwr ∧ (s.setHq q l).shc = s.shc ∧ (s.setHq q l).mc = s.mc ∧
    (s.setHq q l).grid = s.grid ∧ (s.setHq q l).seq = s.seq ∧ (s.setHq q l).adapt = s.adapt ∧ (s.setHq q l).tt = s.tt ∧ (s.setHq q l).tcc = s.tcc ∧
    (s.setHq q l).raster = s.raster ∧ (s.setHq q l).host = s.host ∧ (s.setHq q l).sec = s.sec ∧ (s.setHq q l).power = s.power ∧
    (s.setHq q l).flash = s.flash ∧ (s.setHq q l).scorepad = s.scorepad ∧ (s.setHq q l).latched = s.latched := by
  and_intros <;> rfl

@[simp] theorem setDom_fields (n : Nat) (d : Dom) :
    (s.setDom n d).pending = s.pending ∧ (s.setDom n d).now = s.now ∧ (s.setDom n d).freeIdx = s.freeIdx ∧ (s.setDom n d).regs = s.regs ∧
    (s.setDom n d).mem = s.mem ∧ (s.setDom n d).memErr = s.memErr ∧ (s.setDom n d).hostMem = s.hostMem ∧ (s.setDom n d).yu = s.yu ∧
    (s.setDom n d).spad = s.spad ∧ (s.setDom n d).rings = s.rings ∧ (s.setDom n d).movers = s.movers ∧ (s.setDom n d).bwr = s.bwr ∧
    (s.setDom n d).shc = s.shc ∧ (s.setDom n d).mc = s.mc ∧ (s.setDom n d).grid = s.grid ∧ (s.setDom n d).seq = s.seq ∧
    (s.setDom n d).adapt = s.adapt ∧ (s.setDom n d).tt = s.tt ∧ (s.setDom n d).tcc = s.tcc ∧ (s.setDom n d).host = s.host ∧
    (s.setDom n d).sec = s.sec ∧ (s.setDom n d).power = s.power ∧ (s.setDom n d).flash = s.flash ∧ (s.setDom n d).scorepad = s.scorepad ∧
    (s.setDom n d).latched = s.latched := by
  and_intros <;> rfl

@[simp] theorem setStrm_fields (n : Nat) (x : StreamRt) :
    (s.setStrm n x).pending = s.pending ∧ (s.setStrm n x).now = s.now ∧ (s.setStrm n x).freeIdx = s.freeIdx ∧ (s.setStrm n x).regs = s.regs ∧
    (s.setStrm n x).mem = s.mem ∧ (s.setStrm n x).memErr = s.memErr ∧ (s.setStrm n x).hostMem = s.hostMem ∧ (s.setStrm n x).yu = s.yu ∧
    (s.setStrm n x).spad = s.spad ∧ (s.setStrm n x).rings = s.rings ∧ (s.setStrm n x).movers = s.movers ∧ (s.setStrm n x).bwr = s.bwr ∧
    (s.setStrm n x).shc = s.shc ∧ (s.setStrm n x).mc = s.mc ∧ (s.setStrm n x).grid = s.grid ∧ (s.setStrm n x).seq = s.seq ∧
    (s.setStrm n x).adapt = s.adapt ∧ (s.setStrm n x).tt = s.tt ∧ (s.setStrm n x).tcc = s.tcc ∧ (s.setStrm n x).host = s.host ∧
    (s.setStrm n x).sec = s.sec ∧ (s.setStrm n x).power = s.power ∧ (s.setStrm n x).flash = s.flash ∧ (s.setStrm n x).scorepad = s.scorepad ∧
    (s.setStrm n x).latched = s.latched := by
  and_intros <;> rfl

@[simp] theorem setVcore_fields (n : Nat) (c : VCore) :
    (s.setVcore n c).pending = s.pending ∧ (s.setVcore n c).now = s.now ∧ (s.setVcore n c).freeIdx = s.freeIdx ∧ (s.setVcore n c).regs = s.regs ∧
    (s.setVcore n c).mem = s.mem ∧ (s.setVcore n c).memErr = s.memErr ∧ (s.setVcore n c).hostMem = s.hostMem ∧ (s.setVcore n c).spad = s.spad ∧
    (s.setVcore n c).rings = s.rings ∧ (s.setVcore n c).movers = s.movers ∧ (s.setVcore n c).bwr = s.bwr ∧ (s.setVcore n c).shc = s.shc ∧
    (s.setVcore n c).mc = s.mc ∧ (s.setVcore n c).grid = s.grid ∧ (s.setVcore n c).seq = s.seq ∧ (s.setVcore n c).adapt = s.adapt ∧
    (s.setVcore n c).tt = s.tt ∧ (s.setVcore n c).tcc = s.tcc ∧ (s.setVcore n c).raster = s.raster ∧ (s.setVcore n c).host = s.host ∧
    (s.setVcore n c).sec = s.sec ∧ (s.setVcore n c).power = s.power ∧ (s.setVcore n c).flash = s.flash ∧ (s.setVcore n c).scorepad = s.scorepad ∧
    (s.setVcore n c).latched = s.latched := by
  and_intros <;> rfl

@[simp] theorem setYctx_fields (n : Nat) (x : CtxId) (c : YCtx) :
    (s.setYctx n x c).pending = s.pending ∧ (s.setYctx n x c).now = s.now ∧ (s.setYctx n x c).freeIdx = s.freeIdx ∧ (s.setYctx n x c).regs = s.regs ∧
    (s.setYctx n x c).mem = s.mem ∧ (s.setYctx n x c).memErr = s.memErr ∧ (s.setYctx n x c).hostMem = s.hostMem ∧ (s.setYctx n x c).spad = s.spad ∧
    (s.setYctx n x c).rings = s.rings ∧ (s.setYctx n x c).movers = s.movers ∧ (s.setYctx n x c).bwr = s.bwr ∧ (s.setYctx n x c).shc = s.shc ∧
    (s.setYctx n x c).mc = s.mc ∧ (s.setYctx n x c).grid = s.grid ∧ (s.setYctx n x c).seq = s.seq ∧ (s.setYctx n x c).adapt = s.adapt ∧
    (s.setYctx n x c).tt = s.tt ∧ (s.setYctx n x c).tcc = s.tcc ∧ (s.setYctx n x c).raster = s.raster ∧ (s.setYctx n x c).host = s.host ∧
    (s.setYctx n x c).sec = s.sec ∧ (s.setYctx n x c).power = s.power ∧ (s.setYctx n x c).flash = s.flash ∧ (s.setYctx n x c).scorepad = s.scorepad ∧
    (s.setYctx n x c).latched = s.latched := by
  and_intros <;> rfl

@[simp] theorem pushCpl_fields (c : Cpl) :
    (s.pushCpl c).pending = s.pending ∧ (s.pushCpl c).now = s.now ∧ (s.pushCpl c).freeIdx = s.freeIdx ∧ (s.pushCpl c).regs = s.regs ∧
    (s.pushCpl c).mem = s.mem ∧ (s.pushCpl c).memErr = s.memErr ∧ (s.pushCpl c).hostMem = s.hostMem ∧ (s.pushCpl c).yu = s.yu ∧
    (s.pushCpl c).spad = s.spad ∧ (s.pushCpl c).rings = s.rings ∧ (s.pushCpl c).movers = s.movers ∧ (s.pushCpl c).bwr = s.bwr ∧
    (s.pushCpl c).shc = s.shc ∧ (s.pushCpl c).mc = s.mc ∧ (s.pushCpl c).grid = s.grid ∧ (s.pushCpl c).seq = s.seq ∧ (s.pushCpl c).adapt = s.adapt ∧
    (s.pushCpl c).tt = s.tt ∧ (s.pushCpl c).tcc = s.tcc ∧ (s.pushCpl c).raster = s.raster ∧ (s.pushCpl c).sec = s.sec ∧ (s.pushCpl c).power = s.power ∧
    (s.pushCpl c).flash = s.flash ∧ (s.pushCpl c).scorepad = s.scorepad ∧ (s.pushCpl c).latched = s.latched := by
  and_intros <;> rfl

@[simp] theorem vset_fields (k : Issue) (r : BitVec 5) (v : Vec) :
    (s.vset k r v).pending = s.pending ∧ (s.vset k r v).now = s.now ∧ (s.vset k r v).freeIdx = s.freeIdx ∧ (s.vset k r v).regs = s.regs ∧
    (s.vset k r v).mem = s.mem ∧ (s.vset k r v).memErr = s.memErr ∧ (s.vset k r v).hostMem = s.hostMem ∧ (s.vset k r v).spad = s.spad ∧
    (s.vset k r v).rings = s.rings ∧ (s.vset k r v).movers = s.movers ∧ (s.vset k r v).bwr = s.bwr ∧ (s.vset k r v).shc = s.shc ∧
    (s.vset k r v).mc = s.mc ∧ (s.vset k r v).grid = s.grid ∧ (s.vset k r v).seq = s.seq ∧ (s.vset k r v).adapt = s.adapt ∧ (s.vset k r v).tt = s.tt ∧
    (s.vset k r v).tcc = s.tcc ∧ (s.vset k r v).raster = s.raster ∧ (s.vset k r v).host = s.host ∧ (s.vset k r v).sec = s.sec ∧
    (s.vset k r v).power = s.power ∧ (s.vset k r v).flash = s.flash ∧ (s.vset k r v).scorepad = s.scorepad ∧ (s.vset k r v).latched = s.latched := by
  and_intros <;> rfl

@[simp] theorem setGridUnit_fields (u : Nat) (g : GridUnit) :
    (s.setGridUnit u g).pending = s.pending ∧ (s.setGridUnit u g).now = s.now ∧ (s.setGridUnit u g).freeIdx = s.freeIdx ∧
    (s.setGridUnit u g).regs = s.regs ∧ (s.setGridUnit u g).mem = s.mem ∧ (s.setGridUnit u g).memErr = s.memErr ∧
    (s.setGridUnit u g).hostMem = s.hostMem ∧ (s.setGridUnit u g).yu = s.yu ∧ (s.setGridUnit u g).spad = s.spad ∧ (s.setGridUnit u g).rings = s.rings ∧
    (s.setGridUnit u g).movers = s.movers ∧ (s.setGridUnit u g).bwr = s.bwr ∧ (s.setGridUnit u g).shc = s.shc ∧ (s.setGridUnit u g).mc = s.mc ∧
    (s.setGridUnit u g).seq = s.seq ∧ (s.setGridUnit u g).adapt = s.adapt ∧ (s.setGridUnit u g).tt = s.tt ∧ (s.setGridUnit u g).tcc = s.tcc ∧
    (s.setGridUnit u g).raster = s.raster ∧ (s.setGridUnit u g).host = s.host ∧ (s.setGridUnit u g).sec = s.sec ∧ (s.setGridUnit u g).power = s.power ∧
    (s.setGridUnit u g).flash = s.flash ∧ (s.setGridUnit u g).scorepad = s.scorepad ∧ (s.setGridUnit u g).latched = s.latched := by
  and_intros <;> rfl

@[simp] theorem setMover_fields (m : Nat) (v : Mover) :
    (s.setMover m v).pending = s.pending ∧ (s.setMover m v).now = s.now ∧ (s.setMover m v).freeIdx = s.freeIdx ∧ (s.setMover m v).regs = s.regs ∧
    (s.setMover m v).mem = s.mem ∧ (s.setMover m v).memErr = s.memErr ∧ (s.setMover m v).hostMem = s.hostMem ∧ (s.setMover m v).yu = s.yu ∧
    (s.setMover m v).spad = s.spad ∧ (s.setMover m v).rings = s.rings ∧ (s.setMover m v).bwr = s.bwr ∧ (s.setMover m v).shc = s.shc ∧
    (s.setMover m v).mc = s.mc ∧ (s.setMover m v).grid = s.grid ∧ (s.setMover m v).seq = s.seq ∧ (s.setMover m v).adapt = s.adapt ∧
    (s.setMover m v).tt = s.tt ∧ (s.setMover m v).tcc = s.tcc ∧ (s.setMover m v).raster = s.raster ∧ (s.setMover m v).host = s.host ∧
    (s.setMover m v).sec = s.sec ∧ (s.setMover m v).power = s.power ∧ (s.setMover m v).flash = s.flash ∧ (s.setMover m v).scorepad = s.scorepad ∧
    (s.setMover m v).latched = s.latched := by
  and_intros <;> rfl

@[simp] theorem resetRegs_fields (lo hi : Nat) :
    (s.resetRegs lo hi).pending = s.pending ∧ (s.resetRegs lo hi).now = s.now ∧ (s.resetRegs lo hi).freeIdx = s.freeIdx ∧
    (s.resetRegs lo hi).mem = s.mem ∧ (s.resetRegs lo hi).memErr = s.memErr ∧ (s.resetRegs lo hi).hostMem = s.hostMem ∧ (s.resetRegs lo hi).yu = s.yu ∧
    (s.resetRegs lo hi).spad = s.spad ∧ (s.resetRegs lo hi).rings = s.rings ∧ (s.resetRegs lo hi).movers = s.movers ∧ (s.resetRegs lo hi).bwr = s.bwr ∧
    (s.resetRegs lo hi).shc = s.shc ∧ (s.resetRegs lo hi).mc = s.mc ∧ (s.resetRegs lo hi).grid = s.grid ∧ (s.resetRegs lo hi).seq = s.seq ∧
    (s.resetRegs lo hi).adapt = s.adapt ∧ (s.resetRegs lo hi).tt = s.tt ∧ (s.resetRegs lo hi).tcc = s.tcc ∧ (s.resetRegs lo hi).raster = s.raster ∧
    (s.resetRegs lo hi).host = s.host ∧ (s.resetRegs lo hi).sec = s.sec ∧ (s.resetRegs lo hi).power = s.power ∧ (s.resetRegs lo hi).flash = s.flash ∧
    (s.resetRegs lo hi).scorepad = s.scorepad ∧ (s.resetRegs lo hi).latched = s.latched := by
  and_intros <;> rfl

@[simp] theorem setSeq_fields (q : Sequencer) :
    (s.setSeq q).pending = s.pending ∧ (s.setSeq q).now = s.now ∧ (s.setSeq q).freeIdx = s.freeIdx ∧ (s.setSeq q).regs = s.regs ∧
    (s.setSeq q).mem = s.mem ∧ (s.setSeq q).memErr = s.memErr ∧ (s.setSeq q).hostMem = s.hostMem ∧ (s.setSeq q).yu = s.yu ∧
    (s.setSeq q).spad = s.spad ∧ (s.setSeq q).rings = s.rings ∧ (s.setSeq q).movers = s.movers ∧ (s.setSeq q).bwr = s.bwr ∧ (s.setSeq q).shc = s.shc ∧
    (s.setSeq q).mc = s.mc ∧ (s.setSeq q).grid = s.grid ∧ (s.setSeq q).adapt = s.adapt ∧ (s.setSeq q).tt = s.tt ∧ (s.setSeq q).tcc = s.tcc ∧
    (s.setSeq q).raster = s.raster ∧ (s.setSeq q).host = s.host ∧ (s.setSeq q).sec = s.sec ∧ (s.setSeq q).power = s.power ∧
    (s.setSeq q).flash = s.flash ∧ (s.setSeq q).scorepad = s.scorepad ∧ (s.setSeq q).latched = s.latched := by
  and_intros <;> rfl

@[simp] theorem setAdapt_fields (a : Adapt) :
    (s.setAdapt a).pending = s.pending ∧ (s.setAdapt a).now = s.now ∧ (s.setAdapt a).freeIdx = s.freeIdx ∧ (s.setAdapt a).regs = s.regs ∧
    (s.setAdapt a).mem = s.mem ∧ (s.setAdapt a).memErr = s.memErr ∧ (s.setAdapt a).hostMem = s.hostMem ∧ (s.setAdapt a).yu = s.yu ∧
    (s.setAdapt a).spad = s.spad ∧ (s.setAdapt a).rings = s.rings ∧ (s.setAdapt a).movers = s.movers ∧ (s.setAdapt a).bwr = s.bwr ∧
    (s.setAdapt a).shc = s.shc ∧ (s.setAdapt a).mc = s.mc ∧ (s.setAdapt a).grid = s.grid ∧ (s.setAdapt a).seq = s.seq ∧ (s.setAdapt a).tt = s.tt ∧
    (s.setAdapt a).tcc = s.tcc ∧ (s.setAdapt a).raster = s.raster ∧ (s.setAdapt a).host = s.host ∧ (s.setAdapt a).sec = s.sec ∧
    (s.setAdapt a).power = s.power ∧ (s.setAdapt a).flash = s.flash ∧ (s.setAdapt a).scorepad = s.scorepad ∧ (s.setAdapt a).latched = s.latched := by
  and_intros <;> rfl

@[simp] theorem setDl_fields (d : DieLink) :
    (s.setDl d).pending = s.pending ∧ (s.setDl d).now = s.now ∧ (s.setDl d).freeIdx = s.freeIdx ∧ (s.setDl d).regs = s.regs ∧ (s.setDl d).mem = s.mem ∧
    (s.setDl d).memErr = s.memErr ∧ (s.setDl d).hostMem = s.hostMem ∧ (s.setDl d).yu = s.yu ∧ (s.setDl d).spad = s.spad ∧ (s.setDl d).rings = s.rings ∧
    (s.setDl d).movers = s.movers ∧ (s.setDl d).bwr = s.bwr ∧ (s.setDl d).shc = s.shc ∧ (s.setDl d).mc = s.mc ∧ (s.setDl d).grid = s.grid ∧
    (s.setDl d).seq = s.seq ∧ (s.setDl d).adapt = s.adapt ∧ (s.setDl d).tt = s.tt ∧ (s.setDl d).tcc = s.tcc ∧ (s.setDl d).host = s.host ∧
    (s.setDl d).sec = s.sec ∧ (s.setDl d).power = s.power ∧ (s.setDl d).flash = s.flash ∧ (s.setDl d).scorepad = s.scorepad ∧
    (s.setDl d).latched = s.latched := by
  and_intros <;> rfl

@[simp] theorem setTiler_fields (t : Nat) (x : Tiler) :
    (s.setTiler t x).pending = s.pending ∧ (s.setTiler t x).now = s.now ∧ (s.setTiler t x).freeIdx = s.freeIdx ∧ (s.setTiler t x).regs = s.regs ∧
    (s.setTiler t x).mem = s.mem ∧ (s.setTiler t x).memErr = s.memErr ∧ (s.setTiler t x).hostMem = s.hostMem ∧ (s.setTiler t x).yu = s.yu ∧
    (s.setTiler t x).spad = s.spad ∧ (s.setTiler t x).rings = s.rings ∧ (s.setTiler t x).movers = s.movers ∧ (s.setTiler t x).bwr = s.bwr ∧
    (s.setTiler t x).shc = s.shc ∧ (s.setTiler t x).mc = s.mc ∧ (s.setTiler t x).grid = s.grid ∧ (s.setTiler t x).seq = s.seq ∧
    (s.setTiler t x).adapt = s.adapt ∧ (s.setTiler t x).tt = s.tt ∧ (s.setTiler t x).raster = s.raster ∧ (s.setTiler t x).host = s.host ∧
    (s.setTiler t x).sec = s.sec ∧ (s.setTiler t x).power = s.power ∧ (s.setTiler t x).flash = s.flash ∧ (s.setTiler t x).scorepad = s.scorepad ∧
    (s.setTiler t x).latched = s.latched := by
  and_intros <;> rfl

@[simp] theorem setPart_fields (key : Nat) (l : List (List Nat)) :
    (s.setPart key l).pending = s.pending ∧ (s.setPart key l).now = s.now ∧ (s.setPart key l).freeIdx = s.freeIdx ∧ (s.setPart key l).regs = s.regs ∧
    (s.setPart key l).mem = s.mem ∧ (s.setPart key l).memErr = s.memErr ∧ (s.setPart key l).hostMem = s.hostMem ∧ (s.setPart key l).yu = s.yu ∧
    (s.setPart key l).spad = s.spad ∧ (s.setPart key l).rings = s.rings ∧ (s.setPart key l).movers = s.movers ∧ (s.setPart key l).bwr = s.bwr ∧
    (s.setPart key l).shc = s.shc ∧ (s.setPart key l).mc = s.mc ∧ (s.setPart key l).grid = s.grid ∧ (s.setPart key l).seq = s.seq ∧
    (s.setPart key l).adapt = s.adapt ∧ (s.setPart key l).tt = s.tt ∧ (s.setPart key l).raster = s.raster ∧ (s.setPart key l).host = s.host ∧
    (s.setPart key l).sec = s.sec ∧ (s.setPart key l).power = s.power ∧ (s.setPart key l).flash = s.flash ∧ (s.setPart key l).scorepad = s.scorepad ∧
    (s.setPart key l).latched = s.latched := by
  and_intros <;> rfl

@[simp] theorem setTokens_fields (m c v : Nat) :
    (s.setTokens m c v).pending = s.pending ∧ (s.setTokens m c v).now = s.now ∧ (s.setTokens m c v).freeIdx = s.freeIdx ∧
    (s.setTokens m c v).regs = s.regs ∧ (s.setTokens m c v).mem = s.mem ∧ (s.setTokens m c v).memErr = s.memErr ∧
    (s.setTokens m c v).hostMem = s.hostMem ∧ (s.setTokens m c v).yu = s.yu ∧ (s.setTokens m c v).spad = s.spad ∧ (s.setTokens m c v).rings = s.rings ∧
    (s.setTokens m c v).movers = s.movers ∧ (s.setTokens m c v).shc = s.shc ∧ (s.setTokens m c v).mc = s.mc ∧ (s.setTokens m c v).grid = s.grid ∧
    (s.setTokens m c v).seq = s.seq ∧ (s.setTokens m c v).adapt = s.adapt ∧ (s.setTokens m c v).tt = s.tt ∧ (s.setTokens m c v).tcc = s.tcc ∧
    (s.setTokens m c v).raster = s.raster ∧ (s.setTokens m c v).host = s.host ∧ (s.setTokens m c v).sec = s.sec ∧ (s.setTokens m c v).power = s.power ∧
    (s.setTokens m c v).flash = s.flash ∧ (s.setTokens m c v).scorepad = s.scorepad ∧ (s.setTokens m c v).latched = s.latched := by
  and_intros <;> rfl

@[simp] theorem setSeq_seq (q : Sequencer) : (s.setSeq q).seq = q := rfl

@[simp] theorem setAdapt_adapt (a : Adapt) : (s.setAdapt a).adapt = a := rfl

@[simp] theorem setDl_dl (d : DieLink) : (s.setDl d).raster.dl = d := rfl

end Sys2Proof.Machine
end

