-- ==== Sys2Proof/Laws/Operands.lean ====
section
/-! SUPPORT. What the issue of a Yuben instruction does, once for all instructions, and the reads after writes of its registers. -/

namespace Sys2Proof.Machine

theorem ctxKey_inj {j k : Issue} (h : ctxKey j = ctxKey k) : j.core = k.core ∧ j.ctx = k.ctx := by
  unfold ctxKey at h
  cases hj : j.ctx <;> cases hk : k.ctx <;> simp [ctxIdx, hj, hk] at h ⊢ <;> omega

/-! ### Registers -/

theorem sget_sset (s : State) (k : Issue) (d : BitVec 5) (v : Word64) :
    (s.sset k d v).sget k d = if d = 0#5 then 0#64 else v := by
  unfold State.sget State.sset
  split <;> simp

theorem sget_sset_other (s : State) (j k : Issue) (r d : BitVec 5) (v : Word64) (h : ctxKey j ≠ ctxKey k ∨ r ≠ d) :
    (s.sset k d v).sget j r = s.sget j r := by
  unfold State.sget State.sset
  split
  · rfl
  · split
    · rfl
    · apply SMap.get_set_other
      intro e
      have h1 := r.isLt
      have h2 := d.isLt
      rcases h with h | h
      · omega
      · exact h (BitVec.eq_of_toNat_eq (by omega))

theorem sset_frame (s : State) (k : Issue) (d : BitVec 5) (v : Word64) :
    s.sset k d v = { s with yu := { s.yu with sreg := (s.sset k d v).yu.sreg } } := by
  unfold State.sset; split <;> rfl

theorem vget_vset (s : State) (k : Issue) (d : BitVec 5) (v : Vec) : (s.vset k d v).vget k d = v := by
  simp [State.vget, State.vset]

theorem vget_vset_other (s : State) (j k : Issue) (r d : BitVec 5) (v : Vec) (h : ctxKey j ≠ ctxKey k ∨ r ≠ d) :
    (s.vset k d v).vget j r = s.vget j r := by
  apply SMap.get_set_other
  intro e
  have h1 := r.isLt
  have h2 := d.isLt
  rcases h with h | h
  · omega
  · exact h (BitVec.eq_of_toNat_eq (by omega))

theorem pget_pset (s : State) (k : Issue) (d : Nat) (v : Pred) (hd : d ≠ 0) : (s.pset k d v).pget k d = v := by
  simp [State.pget, State.pset, hd]

theorem pget_pset_other (s : State) (j k : Issue) (r d : Nat) (v : Pred) (hr : r < 8) (hd : d < 8)
    (h : ctxKey j ≠ ctxKey k ∨ r ≠ d) : (s.pset k d v).pget j r = s.pget j r := by
  unfold State.pget State.pset
  split
  · rfl
  · split
    · rfl
    · apply SMap.get_set_other
      omega

/-! ### Lanes of a built register -/

theorem vecOfAux_lt (f : Nat → Nat) (n : Nat) : vecOfAux f n < 2 ^ (32 * n) := by
  induction n with
  | zero => simp [vecOfAux]
  | succ n ih =>
    unfold vecOfAux
    rw [Nat.shiftLeft_eq]
    have h : f n % 4294967296 < 2 ^ 32 := Nat.mod_lt _ (by norm_num)
    have e : 2 ^ (32 * (n + 1)) = 2 ^ 32 * 2 ^ (32 * n) := by rw [← pow_add]; congr 1; ring
    rw [e]; nlinarith

theorem vecOfAux_lane (f : Nat → Nat) (n l : Nat) (h : l < n) :
    (vecOfAux f n >>> (32 * l)) % 4294967296 = f l % 4294967296 := by
  induction n with
  | zero => omega
  | succ n ih =>
    unfold vecOfAux
    rw [Nat.shiftLeft_eq]
    by_cases e : l = n
    · subst e
      rw [Nat.shiftRight_eq_div_pow, Nat.add_mul_div_right _ _ (by positivity), Nat.div_eq_of_lt (vecOfAux_lt f l)]
      simp
    · have hl : l < n := by omega
      rw [← ih hl, Nat.shiftRight_eq_div_pow, Nat.shiftRight_eq_div_pow]
      have e2 : 2 ^ (32 * n) = 2 ^ (32 * l) * (4294967296 * 2 ^ (32 * (n - l - 1))) := by
        rw [show (4294967296 : Nat) = 2 ^ 32 from by norm_num, ← pow_add, ← pow_add]; congr 1; omega
      rw [e2, show f n % 4294967296 * (2 ^ (32 * l) * (4294967296 * 2 ^ (32 * (n - l - 1)))) =
        2 ^ (32 * l) * (4294967296 * (f n % 4294967296 * 2 ^ (32 * (n - l - 1)))) from by ring,
        Nat.add_mul_div_left _ _ (by positivity), Nat.add_mul_mod_self_left]

theorem ofLanes_lane (f : Nat → Nat) (l : Nat) (h : l < 128) : (Vec.ofLanes f).lane l = f l % 2 ^ 32 := by
  unfold Vec.ofLanes Vec.lane
  rw [BitVec.toNat_ofNat, Nat.mod_eq_of_lt (vecOfAux_lt f 128)]
  exact vecOfAux_lane f 128 l h

theorem lane_lt (v : Vec) (l : Nat) : v.lane l < 2 ^ 32 := Nat.mod_lt _ (by norm_num)

/-! ### Completion -/

theorem setYctx_yctx (s : State) (n m : Nat) (x y : CtxId) (c : YCtx) :
    (s.setYctx n x c).yctx m y = if m = n ∧ y = x then c else s.yctx m y := by
  unfold State.yctx State.setYctx
  rw [SMap.get_set]
  congr 1
  cases x <;> cases y <;> simp [ctxIdx] <;> omega

theorem setVcore_vcore (s : State) (n m : Nat) (c : VCore) :
    (s.setVcore n c).vcore m = if m = n then c else s.vcore m := by
  unfold State.vcore State.setVcore
  exact SMap.get_set _ _ _ _ _

theorem putBytes_get (m : List Host.Cell) (a j : Nat) (bs : List Byte) (h : j < a ∨ a + bs.length ≤ j) :
    SMap.get zeroByte (putBytes m a bs) j = SMap.get zeroByte m j := by
  induction bs generalizing m a with
  | nil => rfl
  | cons b bs ih =>
    unfold putBytes
    simp only [List.length_cons] at h
    rw [ih _ _ (by omega), SMap.get_set_other _ _ _ _ _ (by omega)]

/-- The canonical form of a memory is kept by every write of bytes. -/
theorem putBytes_wf (m : List Host.Cell) (a : Nat) (bs : List Byte) (h : SMap.wf zeroByte m) :
    SMap.wf zeroByte (putBytes m a bs) := by
  induction bs generalizing m a with
  | nil => exact h
  | cons b bs ih => exact ih _ _ (SMap.wf_set _ _ _ _ h)

theorem leBytes_length (n v : Nat) : (leBytes n v).length = n := by
  induction n generalizing v with
  | zero => rfl
  | succ n ih => simp [leBytes, ih]

/-- Completing an instruction changes the context, the granted step of a halted core and the ISSUED count, and nothing else. -/
theorem issueAt_onlyCore (s : State) (k : Issue) (c : YCtx) : OnlyCore k s (s.issueAt k c) := by
  constructor
  · unfold State.issueAt State.retireAt State.spendStep State.countIssue
    cases k.ctx <;> (dsimp only; repeat' split)
    all_goals rfl
  · unfold State.issueAt State.retireAt State.spendStep State.countIssue
    cases k.ctx <;> (dsimp only; repeat' split)
    all_goals rfl
  · intro n x h
    have hc : (s.countIssue k).yctx n x = s.yctx n x := by
      unfold State.countIssue; cases k.ctx <;> (dsimp only; repeat' split)
      all_goals rfl
    unfold State.issueAt State.retireAt State.spendStep
    split
    · show ((s.countIssue k).setYctx k.core k.ctx c).yctx n x = _
      rw [setYctx_yctx, hc, if_neg (by tauto)]
    · rw [setYctx_yctx, hc, if_neg (by tauto)]
  · intro n
    have hv : (s.countIssue k).vcore n = s.vcore n := by
      unfold State.countIssue; cases k.ctx <;> (dsimp only; repeat' split)
      all_goals rfl
    have hw : ((s.countIssue k).setYctx k.core k.ctx c).vcore n = s.vcore n := hv
    have hk : ((s.countIssue k).setYctx k.core k.ctx c).vcore k.core = s.vcore k.core := by
      show (s.countIssue k).vcore k.core = _
      unfold State.countIssue; cases k.ctx <;> (dsimp only; repeat' split)
      all_goals rfl
    unfold State.issueAt State.retireAt State.spendStep
    split
    · rw [setVcore_vcore, hw, hk]
      split
      · rename_i e; rw [e]
      · rfl
    · rename_i h
      rw [hk] at h
      rw [hw]
      split
      · rename_i e
        rw [e]
        have hb : (s.vcore k.core).dbgStep = false := by simpa using h
        rw [← hb]
      · rfl
  · intro slot off ho h
    have ht : (s.issueAt k c).tcc.table = (s.countIssue k).tcc.table := by
      unfold State.issueAt State.retireAt State.spendStep; split <;> rfl
    unfold State.tableByte
    rw [ht]
    unfold State.countIssue
    cases hx : k.ctx with
    | line => rfl
    | batch =>
      dsimp only
      split
      · rfl
      · simp only [hx, State.ctxTask] at h
        apply putBytes_get
        rw [leBytes_length]
        rcases h with h | h | h | h
        · omega
        · cases h
        · by_cases e : slot = (s.vcore k.core).batchTask
          · subst e; omega
          · omega
        · by_cases e : slot = (s.vcore k.core).batchTask
          · subst e; omega
          · omega
  · intro a
    have hm : (s.issueAt k c).mem = s.mem := by
      unfold State.issueAt State.retireAt State.spendStep State.countIssue
      cases k.ctx <;> (dsimp only; repeat' split)
      all_goals rfl
    unfold State.memByte
    rw [hm]

@[simp] theorem issueAt_regs (s : State) (k : Issue) (c : YCtx) : KeepRegs s (s.issueAt k c) := by
  unfold KeepRegs State.issueAt State.retireAt State.spendStep State.countIssue
  cases k.ctx <;> (dsimp only; repeat' split)
  all_goals exact ⟨rfl, rfl, rfl⟩

/-- The frame of an instruction whose effect wrote registers only. -/
theorem OnlyCore.base {k : Issue} {s s' t : State} (h : OnlyCore k s' t) (e : s' = { s with yu := s'.yu })
    (e2 : s'.yu = { s.yu with sreg := s'.yu.sreg, vreg := s'.yu.vreg, preg := s'.yu.preg }) : OnlyCore k s t := by
  have hc : s'.yu.ctxs = s.yu.ctxs := by rw [e2]
  have hv : s'.yu.cores = s.yu.cores := by rw [e2]
  constructor
  · rw [h.outside, e]
  · rw [h.files, e2]
  · intro n x hn; rw [h.ctxs n x hn]; unfold State.yctx; rw [hc]
  · intro n; rw [h.cores n]; unfold State.vcore; rw [hv]
  · intro a b c d
    rw [h.table a b c]
    · unfold State.tableByte; rw [e]
    · have : s'.ctxTask k.core k.ctx = s.ctxTask k.core k.ctx := by unfold State.ctxTask State.vcore; rw [hv]
      rw [this]; exact d
  · intro a; rw [h.bytes a]; unfold State.memByte; rw [e]

theorem writesS_issueAt (s : State) (k : Issue) (d : BitVec 5) (v : Word64) (c : YCtx) :
    WritesS k d v s ((s.sset k d v).issueAt k c) := by
  have h := issueAt_regs (s.sset k d v) k c
  have hg : ∀ j r, ((s.sset k d v).issueAt k c).sget j r = (s.sset k d v).sget j r := by
    intro j r; unfold State.sget; rw [h.1]
  constructor
  · rw [hg, sget_sset]
  · intro j r hh; rw [hg, sget_sset_other _ _ _ _ _ _ hh]
  · rw [h.2.1, sset_frame]
  · rw [h.2.2, sset_frame]
  · exact OnlyCore.base (issueAt_onlyCore _ k c) (by rw [sset_frame]) (by rw [sset_frame])

theorem writesV_issueAt (s : State) (k : Issue) (w : YWord) (f : Nat → Nat) (c : YCtx) :
    WritesV k w f s ((s.vputLanes k w f).issueAt k c) := by
  have h := issueAt_regs (s.vputLanes k w f) k c
  have hg : ∀ j r, ((s.vputLanes k w f).issueAt k c).vget j r = (s.vputLanes k w f).vget j r := by
    intro j r; unfold State.vget; rw [h.2.1]
  constructor
  · intro l hl
    rw [hg]; unfold State.vputLanes
    rw [vget_vset, ofLanes_lane _ _ hl]
    split
    · rfl
    · exact Nat.mod_eq_of_lt (lane_lt _ _)
  · intro j r hh; rw [hg]; exact vget_vset_other _ _ _ _ _ _ hh
  · rw [h.1]; unfold State.vputLanes State.vset; dsimp only
  · rw [h.2.2]; unfold State.vputLanes State.vset; dsimp only
  · exact OnlyCore.base (issueAt_onlyCore _ k c) (by unfold State.vputLanes State.vset; dsimp only) (by unfold State.vputLanes State.vset; dsimp only)

theorem pset_frame (s : State) (k : Issue) (d : Nat) (v : Pred) :
    s.pset k d v = { s with yu := { s.yu with preg := (s.pset k d v).yu.preg } } := by
  unfold State.pset; split <;> rfl

theorem writesP_issueAt (s : State) (k : Issue) (d : Nat) (v : Pred) (c : YCtx) (h0 : d ≠ 0) (h8 : d < 8) :
    WritesP k d v s ((s.pset k d v).issueAt k c) := by
  have h := issueAt_regs (s.pset k d v) k c
  have hg : ∀ j r, ((s.pset k d v).issueAt k c).pget j r = (s.pset k d v).pget j r := by
    intro j r; unfold State.pget; rw [h.2.2]
  constructor
  · rw [hg, pget_pset _ _ _ _ h0]
  · intro j r hr hh; rw [hg, pget_pset_other _ _ _ _ _ _ hr h8 hh]
  · rw [h.1, pset_frame]
  · rw [h.2.1, pset_frame]
  · exact OnlyCore.base (issueAt_onlyCore _ k c) (by rw [pset_frame]) (by rw [pset_frame])

/-- THE ISSUE OF AN INSTRUCTION that runs: its effect decides, on the state as it stands. -/
theorem yuben_runs (k : Issue) (w : YWord) (sp : YSpec) (eff : Nat → State → YEffect) (s : State) (h : s.ready k)
    (he : sp.whole = true → s.enabled k w = true) (hw : sp.wordOk w = true) (hl : k.ctx = .line → sp.lineOk = true) :
    ∃ t, yuben k w sp eff s = (eff t s).finish k sp (s.yctx k.core k.ctx) t := by
  obtain ⟨h1, h2, h3, h4, h5⟩ := h
  refine ⟨issueCycle (s.yctx k.core k.ctx) sp w (s.divFree k.core), ?_⟩
  have c1 : (sp.whole && !s.enabled k w) = false := by
    cases hh : sp.whole with
    | false => rfl
    | true => simp [he hh]
  have c2 : (k.ctx == .line && !sp.lineOk) = false := by
    cases hh : k.ctx with
    | line => simp [hl hh]
    | batch => simp
  unfold yuben
  simp [h1, h2, h3, h4, h5, hw, State.strike, c1, c2]

end Sys2Proof.Machine
end

