-- ==== Sys2Proof/Tests/Slice0.lean ====
section
/-! SUPPORT. Tests: the checks of WellFormed refuse ill-formed commands, small results by hand calculation from the spec's tables, and a
witness for the hypotheses of every statement. -/

set_option Elab.async false

namespace Sys2Proof.Tests

open Sys2Proof.Machine

/-- The state an outcome holds; reset for the outcomes that hold none. -/
def after : Host.Outcome State Fault Refusal → State
  | .next t => t
  | _ => State.reset

/-! ### Well-formed commands -/

/-- Core `n`'s line context, and its batch context, with a clean fetch. -/
def line (n : Nat) : Issue := ⟨n, .line, .clean, []⟩
def batch (n : Nat) : Issue := ⟨n, .batch, .clean, []⟩
/-- A word of fields d, a, b and c, enabled by p0. -/
def word (d a b : BitVec 5) (c : BitVec 5 := 0#5) (ty : BitVec 4 := 0#4) (imm : BitVec 24 := 0#24) : YWord := ⟨d, a, b, c, 0#3, false, ty, imm⟩
/-- A flit of a class by a port. -/
def flit (port cls : Nat) (arg : Nat := 0) (payload : List Byte := []) : FlitIn := ⟨port, true, 1, 0, false, cls, 0, 0, 0, 0, 127, arg, payload⟩
/-- What boot finds on a whole part. -/
def found : BootFind := ⟨true, 8, 4, 3, false, 0xFFFF, 6, 1, false, false, false, 0xFFFF, 15, true, [4, 4, 4, 4], [], []⟩

theorem test_wf_issue : (Instr.add (line 15) (word 1 2 3)).wf = true ∧ (Instr.add (line 16) (word 1 2 3)).wf = false := by decide
theorem test_wf_core : (Instr.spanCheck 15).wf = true ∧ (Instr.spanCheck 16).wf = false ∧ (Instr.waitEnd 16 .line).wf = false := by decide
theorem test_wf_flit : (Instr.haloWrite (flit 3 1)).wf = true ∧ (Instr.haloWrite (flit 4 1)).wf = false ∧
    (Instr.idle { flit 0 2 with seq := 4096 }).wf = false ∧ (Instr.idle { flit 0 2 with ack := 4096 }).wf = false ∧
    (Instr.idle { flit 0 8 with arg := 0 }).wf = false ∧ (Instr.idle { flit 0 2 with dx := 64 }).wf = false ∧
    (Instr.idle { flit 0 2 with dy := 64 }).wf = false ∧ (Instr.idle { flit 0 2 with sx := 64 }).wf = false ∧
    (Instr.idle { flit 0 2 with sy := 64 }).wf = false ∧ (Instr.idle { flit 0 2 with hops := 128 }).wf = false ∧
    (Instr.idle (flit 0 2 (2 ^ 25))).wf = false ∧ (Instr.idle (flit 0 2 0 (List.replicate 65 0#8))).wf = false := by decide +kernel
theorem test_wf_boot : (Instr.bootStep found).wf = true ∧ (Instr.bootStep { found with modules := 4 }).wf = false ∧
    (Instr.bootStep { found with channels := 2 ^ 16 }).wf = false ∧ (Instr.bootStep { found with cores := 2 ^ 16 }).wf = false ∧
    (Instr.bootStep { found with quarters := 16 }).wf = false ∧ (Instr.bootStep { found with pcieGen := 5 }).wf = false ∧
    (Instr.bootStep { found with pcieWidth := 3 }).wf = false ∧ (Instr.bootStep { found with fab := [4, 4, 4, 4, 4] }).wf = false ∧
    (Instr.bootStep { found with dptx := [4, 4, 4, 4, 4] }).wf = false ∧ (Instr.bootStep { found with dprx := [4, 4, 4] }).wf = false ∧
    (Instr.bootStep { found with rate := 7 }).wf = false ∧ (Instr.bootStep { found with gib := 8 }).wf = false := by decide +kernel
/-- An NG5120-C has 12 cores, 14 channels, three quarters and quarter mode only (R5). -/
theorem test_wf_variantC :
    let c : BootFind := { found with variantC := true, channels := 0x3FFF, cores := 0xFFF, quarters := 11, whole := false }
    c.wf = true ∧ { c with channels := 0x7FFF }.wf = false ∧ { c with cores := 0x1FFF }.wf = false ∧ { c with quarters := 15 }.wf = false ∧
    { c with whole := true }.wf = false := by decide +kernel
theorem test_wf_units : (Instr.gridPassAdmit 4).wf = true ∧ (Instr.gridPassAdmit 5).wf = false ∧ (Instr.dieLinkFlit 2 ⟨true, false, [.mark], true⟩).wf = false ∧
    (Instr.moverDescriptorStart 16 []).wf = false ∧ (Instr.moverDescriptorComplete 0 5 [] []).wf = false ∧ (Instr.chainStage 0 8).wf = false ∧
    (Instr.channelRetryLimit 16).wf = false ∧ (Instr.crcStop 8).wf = false ∧ (Instr.fabricResponseTimeout 16).wf = false := by decide
theorem test_wf_domains : (Instr.roundBoundary 3).wf = true ∧ (Instr.roundBoundary 4).wf = false ∧ (Instr.flipDecision 4).wf = false ∧
    (Instr.tbDnCfgWrite 4 0#32).wf = false ∧ (Instr.tbDnRoundLoRead 4).wf = false ∧ (Instr.syncPinEdge 6 true 0).wf = false := by decide
theorem test_wf_streams : (Instr.layerFetchIssue 63 7).wf = true ∧ (Instr.layerFetchIssue 64 7).wf = false ∧ (Instr.layerFetchIssue 63 8).wf = false ∧
    (Instr.captureLineWritten 64 false).wf = false ∧ (Instr.dprxLineReceived 2 0 0 0 0 []).wf = false ∧ (Instr.dprxLineReceived 0 16 0 0 0 []).wf = false ∧
    (Instr.dptxHpd 4 false).wf = false ∧ (Instr.dprxLinkLoss 2 none).wf = false ∧ (Instr.dprxLinkTrained 0 1 3 0 false false).wf = false ∧
    (Instr.dprxLinkTrained 0 1 4 17 false false).wf = false := by decide
theorem test_wf_memories : (Instr.spadScrubRead 15 31 []).wf = true ∧ (Instr.spadScrubRead 16 0 []).wf = false ∧ (Instr.spadScrubRead 0 32 []).wf = false ∧
    (Instr.gatherEntryWrite 16 0).wf = false ∧ (Instr.bankPowerGate 0 32).wf = false ∧ (Instr.windowWrite 0 32 false 0#32 .host).wf = false ∧
    (Instr.accDiagnosticAccess 1024 0 0 16 false [] []).wf = false ∧ (Instr.accDiagnosticAccess 0 512 0 16 false [] []).wf = false ∧
    (Instr.accDiagnosticAccess 0 0 16 16 false [] []).wf = false ∧ (Instr.ringEnable 256 0#32).wf = false ∧ (Instr.paddingFillComplete 256 0).wf = false ∧
    (Instr.queTallyWrite 64 0#32).wf = false ∧ (Instr.cmpFenceWrite 64 0#32 .host).wf = false ∧ (Instr.vcIdataLoRead 16).wf = false := by decide
theorem test_wf_links : (Instr.linkTrained 3 4 1).wf = true ∧ (Instr.linkTrained 4 4 1).wf = false ∧ (Instr.linkTrained 3 3 1).wf = false ∧
    (Instr.laneRetrain 0 4 true).wf = false ∧ (Instr.laneRetrain 0 4 false).wf = true ∧ (Instr.portLost 0 8).wf = false ∧ (Instr.offer (flit 0 2) 4).wf = false ∧
    (Instr.idleSend 4).wf = false ∧ (Instr.pcieRetrain 3 1).wf = false ∧ (Instr.pcieRetrain 8 5).wf = false ∧
    (Instr.forwardTimeout 0xFFFFFF01).wf = false := by decide
theorem test_wf_host : (Instr.attest false 15).wf = true ∧ (Instr.attest false 16).wf = false ∧ (Instr.cancelBarrierComplete 16384).wf = false ∧
    (Instr.coldReset 16 true).wf = false ∧ (Instr.vddAonLoss 16 true).wf = false ∧ (Instr.wakeComplete (2 ^ 16) 0 0 0).wf = false ∧
    (Instr.wakeComplete 0 16 0 0).wf = false ∧ (Instr.wakeComplete 0 0 4 0).wf = false ∧ (Instr.wakeComplete 0 0 0 (2 ^ 16)).wf = false := by decide

/-! ### Vector cores -/

/-- A part with every core, its clocks running, and the line range of core 0 at words 0 to 99. -/
def part : State := { (State.reset.setF F.HUB_CAP0_VC_MASK 0xFFFF).setF (F.VC_n_CTRL_LINE_END 0) 100 with power := {} }
/-- Core 0 runs a kernel; its program counter is 5. -/
def sLine : State := (part.setVcore 0 { lineRun := true }).setYctx 0 .line { pc := 5 }
/-- Core 0 runs task 1 in its batch context at word 200. -/
def sBatch : State :=
  ((part.setF (F.VC_n_CTRL_BATCH_EN 0) 1).setVcore 0 { batchRun := true, batchTask := 1 }).setYctx 0 .batch { pc := 200 }
/-- Region 0 of a task: slice 0, bytes 0 to 65535, writable; every bank on and initialised. -/
def withRegion (slot : Nat) (s : State) : State :=
  (((s.putTable slot 0x10 (leBytes 4 0x80000000 ++ leBytes 4 1024)).setReg (R.SPAD_n_PWR_LO 0) 0#32).setReg (R.SPAD_n_PWR_HI 0) 0#32).setReg
    (R.SPAD_n_BANK 0) 0xFFFFFFFF#32
def sLineMem : State := withRegion 0 sLine
def sBatchMem : State := withRegion 1 sBatch
/-- Word of a store: a base, b data. -/
def store (c : BitVec 5) (imm : BitVec 24) : YWord := word 0 1 2 c 0 imm

theorem wit_ScalarRegisterForms : sLine.ready (line 0) ∧ sLine.enabled (line 0) (word 1 2 3) = true ∧ (word 1 2 3).plainRegs ∧
    sLine.enabled (line 0) (word 1 2 0) = true ∧ (word 1 2 0).plainRegs ∧ sBatch.ready (batch 0) ∧ sBatch.enabled (batch 0) (word 0 2 3) = true := by
  unfold State.ready YWord.plainRegs; decide +kernel
theorem wit_ScalarImmediateResults : sLine.ready (line 0) ∧ sLine.enabled (line 0) (word 1 2 0 0 0 0xFFFFFF) = true ∧ (word 1 2 0 0 0 0xFFFFFF).b = 0#5 ∧
    (word 1 0 0 0 0 5).a = 0#5 := by unfold State.ready; decide +kernel
theorem wit_SpecialRegisterReads : sLine.ready (line 0) ∧ sLine.enabled (line 0) (word 1 0 0 0 0 0x030) = true ∧ (word 1 0 0 0 0 0x030).imm.toNat = 0x030 ∧
    (word 1 0 0 0 0 0x003).imm.toNat ∉ [0x000, 0x001, 0x002, 0x010, 0x011, 0x012, 0x013, 0x014, 0x015, 0x020, 0x021, 0x030] := by
  unfold State.ready; decide +kernel
/-- Loads and stores at the last word of the region, one byte past it, and of an uncorrectable word. -/
theorem wit_ScalarMemory :
    sLineMem.ready (line 0) ∧ sLineMem.enabled (line 0) (word 1 2 0 0 0 65528) = true ∧
    sLineMem.checkTask 0 0 0 65528 8 8 false = .ok 0 65528 ∧ (sLineMem.readSlice 0 65528 8).2.2 = false ∧
    sLineMem.checkTask 0 0 0 65529 8 8 false = .refused ∧ sLineMem.checkTask 0 0 0 65536 1 1 true = .refused ∧
    ({ sLineMem with memErr := [((sliceAddr 0 0) / 8, 2)] } : State).checkTask 0 0 0 0 1 1 false = .ok 0 0 ∧
    (({ sLineMem with memErr := [((sliceAddr 0 0) / 8, 2)] } : State).readSlice 0 0 1).2.2 = true ∧
    sLineMem.checkTask 0 0 0 65532 4 4 true = .ok 0 65532 ∧ sLineMem.bankInit 0 (bankOf 65532) = true ∧ sLineMem.spad.gather = [] ∧
    (sLineMem.gatherOf 0).length < 16 ∧ sLineMem.slotFree (line 0) 0 65528 ∧ sLineMem.slotFree (line 0) 0 0 := by
  unfold State.ready State.slotFree; decide +kernel
/-- A store to a neighbour's slice, at the first byte and with no window. -/
theorem wit_ScalarStoreWindow : ((sLineMem.putTable 0 0x10 (leBytes 4 0x81000000)).setReg (R.SPAD_n_PWR_LO 1) 0#32).checkTask 0 0 0 0 4 4 true = .window := by
  decide +kernel
theorem wit_Predicates : sLine.ready (line 0) ∧ sLine.enabled (line 0) (word 1 2 3 5) = true ∧ 1 ≤ (word 7 2 3 5).d.toNat ∧ (word 7 2 3 5).d.toNat < 8 ∧
    scalarCond (word 7 2 3 5).c.toNat 1#64 2#64 = some false ∧ scalarCond 6 0#64 0#64 = none ∧ (word 7 7 7).a.toNat < 8 ∧ (word 7 7 7).b.toNat < 8 := by
  unfold State.ready; decide +kernel
theorem wit_JumpsAndBranches : sLine.ready (line 0) ∧ sLine.enabled (line 0) (word 0 1 2 5 0 0xFFFFFF) = true ∧
    (sLine.yctx 0 .line).loop0.count = 0 ∧ (sLine.yctx 0 .line).loop1.count = 0 ∧ scalarCond 5 (sLine.sget (line 0) 1) (sLine.sget (line 0) 2) = some true ∧
    predCond (word 0 7 0 0).c.toNat (sLine.pget (line 0) 7) = some false := by unfold State.ready; decide +kernel
/-- Core 0 in a level-0 body that ends at its program counter, with `n` iterations left. -/
def inLoop (n : Nat) : State := (part.setVcore 0 { lineRun := true }).setYctx 0 .line { pc := 5, loop0 := ⟨3, 5, n⟩ }
theorem wit_HardwareLoops : sLine.ready (line 0) ∧ sLine.enabled (line 0) (word 0 1 0 1 0 4095) = true ∧ 0 < (word 0 1 0 1 0 4095).imm.toNat % 4096 ∧
    (word 0 1 0 1 0 4095).imm.toNat < 4096 ∧ (word 0 0 0 0 0 0x2001).imm.toNat / 4096 = 2 ∧ (inLoop 1).ready (line 0) ∧
    (inLoop 1).enabled (line 0) (word 0 0 0) = true ∧ (word 0 0 0).plainRegs ∧ ((inLoop 1).yctx 0 .line).loop0.count ≤ 1 ∧
    ((inLoop 1).yctx 0 .line).loop1.count = 0 ∧ (inLoop 2).ready (line 0) ∧ 1 < ((inLoop 2).yctx 0 .line).loop0.count ∧
    ((inLoop 2).yctx 0 .line).loop0.stop = ((inLoop 2).yctx 0 .line).pc := by unfold State.ready YWord.plainRegs; decide +kernel
theorem wit_FreeSlices : (∀ n, sLine.sliceFree (line 0) n) ∧ (∀ n, sLineMem.sliceFree (line 0) n) ∧ (∀ n, sBatchMem.sliceFree (batch 0) n) :=
  ⟨fun n _ a h => absurd h (List.not_mem_nil), fun n _ a h => absurd h (List.not_mem_nil), fun n h => by cases h⟩
theorem wit_SystemInstructions : sLine.ready (line 0) ∧ sLine.enabled (line 0) (word 0 0 0) = true ∧ sBatch.ready (batch 0) ∧
    sBatch.enabled (batch 0) (word 0 0 0) = true ∧ (sBatch.yctx 0 .batch).dataErr = false ∧
    ({ sBatch with tcc := { sBatch.tcc with chains := [⟨0, some 0, 1, 0, []⟩] } } : State).workPending 1 = true := by unfold State.ready; decide +kernel
/-- A ring of four slots in slice 0 that the line task's list declares and task 1 holds, with a queue that task 1 holds. -/
def withRing (s : State) : State :=
  let s := s.setReg (R.QUE_RING_r_CFG 2) (BitVec.ofNat 32 (3 * 2 ^ 22 + 1))
  let s := s.putTable 1 0x90 [2#8, 1#8, 0#8, 0#8, 0#8, 4#8]
  { s with seq := { s.seq with list := { s.seq.list with rings := [⟨2, 0, 4, 1, 0, 0⟩] } } }
theorem wit_Waits : sLine.ready (line 0) ∧ sLine.enabled (line 0) (word 0 0 0 0 0 65535) = true ∧ (word 0 0 0 0 0 65535).imm.toNat < 65536 ∧
    sBatch.ready (batch 0) ∧ sBatch.enabled (batch 0) (word 0 0 0 0 0 16383) = true ∧ (withRing sLine).ready (line 0) ∧
    (withRing sLine).ownsRing 0 2 = true ∧ (withRing sLine).ownsQueue 0 9 = true := by unfold State.ready; decide +kernel
theorem wit_WaitsEnd : ((sLine.setYctx 0 .line { wait := some (.cycle 9) }).yctx 0 .line).wait = some (.cycle 9) ∧
    ((sLine.setYctx 0 .line { wait := some (.edge 9) }).yctx 0 .line).wait = some (.edge 9) ∧ sLine.slotReads 0 = true ∧
    ((sBatch.setYctx 0 .batch { wait := some (.turns 0) }).yctx 0 .batch).wait = some (.turns 0) ∧ 0 ≤ sBatch.tt.ordinal ∧
    ((sLine.setYctx 0 .line { wait := some (.ready 1 2 100) }).yctx 0 .line).wait = some (.ready 1 2 100) ∧
    ((sLine.setYctx 0 .line { wait := some (.handles 7 2 100) }).yctx 0 .line).wait = some (.handles 7 2 100) := by decide +kernel

theorem wit_VectorElements : sLine.ready (line 0) ∧ (word 1 2 3 0 5).ty.toNat ∈ [0x2, 0x3, 0x4, 0x5] ∧ (word 1 2 0 0 2).b = 0#5 ∧
    (word 1 2 3 4 0xB).ty.toNat ∈ [0x9, 0xA, 0xB] := by unfold State.ready; decide +kernel
theorem wit_ComparesAndMovement : sLine.ready (line 0) ∧ (word 7 2 3 5 0xB).ty.toNat ∈ [0x4, 0x5, 0xC, 0xB] ∧ 1 ≤ (word 7 2 3 5 0xB).d.toNat ∧
    (word 7 2 3 5 0xB).d.toNat < 8 ∧ vcmpCodeOk (word 7 2 3 5 0xB).elem 5 = true ∧ sLine.enabled (line 0) (word 7 2 3) = true := by
  unfold State.ready; decide +kernel
theorem wit_ReductionsAndPixels : sLine.ready (line 0) ∧ (word 1 2 0 0 3).ty.toNat ∈ [0x2, 0x3, 0x4, 0x5] ∧ (word 1 2 0 0 0xA).ty.toNat ∈ [0x9, 0xA, 0xB] ∧
    (word 1 2 3 0 0xC).ty.toNat = 0xC := by unfold State.ready; decide +kernel
/-- The head slot of ring 2 reserved and ready. -/
def withHead (s : State) : State := ((withRing s).setF (F.QUE_RING_r_PTR_USED 2) 1 |>.setF (F.QUE_RING_r_PTR_TAIL 2) 1).setSlotReady 2 0 true
theorem wit_RowLoads : sLineMem.ready (line 0) ∧ sLineMem.checkTask 0 0 0 65024 512 512 false = .ok 0 65024 ∧ sLineMem.slotFree (line 0) 0 65024 ∧
    (sLineMem.readSlice 0 65024 512).2.2 = false ∧ narrowSize (word 1 2 0 0 2) = 2 ∧ sLineMem.checkTask 0 0 0 65280 256 256 false = .ok 0 65280 ∧
    (sLineMem.readSlice 0 65280 256).2.2 = false ∧ narrowSize (word 1 2 0 0 3) = 2 ∧ narrowSize (word 1 2 0 0 1) = 1 := by
  unfold State.ready State.slotFree; decide +kernel
/-- A transposed read of 4-byte elements, declared K 32, from 32 segments 16 bytes apart. -/
def sStride : State := (sLineMem.sset (line 0) 3 16#64).sset (line 0) 2 64#64
theorem wit_StridedLoads :
    let offs := segOffsets (64 : Int) (sStride.sget (line 0) 3).toInt
    sStride.ready (line 0) ∧ (word 1 2 3 0 0 (32 + 2 * 64)).imm.toNat % 64 = 32 ∧ (sStride.sget (line 0) 3).toInt % 16 = 0 ∧
    portCycles (offs.map (fun x => 0 + x.toNat)) ≤ 32 ∧ segsInRegion (sStride.spadRegion 0 0) offs = true ∧
    (∀ x ∈ offs.map (fun x => 0 + x.toNat), sStride.checkSlice 0 0 x 16 false = .ok 0 x) ∧
    (readSegs sStride 0 (offs.map (fun x => 0 + x.toNat))).2.2 = false := by unfold State.ready; decide +kernel
/-- Handles of ring 2: a valid one of its head slot, and one whose slot is not ready. -/
theorem wit_SlotLoads :
    let s := withHead sLineMem
    let h := s.makeHandle 2 0
    s.ready (line 0) ∧ s.ownsRing 0 (handleRing h) = true ∧ s.handleValid h = true ∧ s.handleValid (s.makeHandle 2 1) = false ∧
    0 < s.ringRows (handleRing h) ∧ slotCheck s (line 0) (handleRing h) (handleSlot h) 0 false = .ok 0 0 ∧ s.slotFree (line 0) 0 0 ∧
    (s.readSlice 0 0 512).2.2 = false ∧ s.ringUsed 2 ≠ 0 ∧ s.headReady 2 = true ∧ (withRing sLineMem).ringUsed 2 = 0 := by
  unfold State.ready State.slotFree; decide +kernel
/-- A word of which no lane is enabled, and one with every lane: gather and scatter through zero offsets. -/
theorem wit_Gathers : sLineMem.ready (line 0) ∧ sLineMem.memErr = [] ∧ (∀ b, b < 32 → sLineMem.bankInit 0 b = true) ∧
    firstBadLane sLineMem (line 0) (word 1 2 3) false (List.range 128) = none ∧
    firstBadLane sLineMem (line 0) (word 1 2 3) true (List.range 128) = none ∧ (sLineMem.spadRegion 0 0).slice = (line 0).core := by
  unfold State.ready; decide +kernel
theorem wit_RowStores : sLineMem.ready (line 0) ∧ (word 0 2 3).d = 0#5 ∧ sLineMem.checkTask 0 0 0 65024 512 512 true = .ok 0 65024 ∧ 65024 % 4 = 0 ∧
    sLineMem.slotFree (line 0) 0 65024 ∧ sLineMem.checkTask 0 0 0 65408 128 128 true = .ok 0 65408 ∧ 65408 % narrowSize (word 0 2 3 0 1) = 0 := by
  unfold State.ready State.slotFree; decide +kernel
theorem wit_SlotStores :
    let s := withHead sLineMem
    let h := s.makeHandle 2 0
    s.ready (line 0) ∧ s.ownsRing 0 (handleRing h) = true ∧ s.handleCurrent h = true ∧ 0 < s.ringRows (handleRing h) ∧
    slotCheck s (line 0) (handleRing h) (handleSlot h) 0 true = .ok 0 0 ∧ s.slotFree (line 0) 0 0 := by
  unfold State.ready State.slotFree; decide +kernel
/-- Task 1's records lie in its region; a scale of 1.0 in FP16 in memory and in every entry of v3. -/
def sQuant : State := (sBatchMem.putMem (sliceAddr 0 0) [0x00#8, 0x3C#8]).vputLanes (batch 0) (word 3 0 0) (fun _ => 0x3C00)
theorem wit_ConversionResults : sQuant.ready (batch 0) ∧ ElemType.ofCode 0xB = some ElemType.fp32 ∧ (word 1 2 0 0xB 0).ty.toNat < 13 ∧
    ElemType.fp32 ≠ (word 1 2 0 0xB 0).elem ∧ 0 < min 8 (cvtParts .fp32 (word 1 2 0 0xB 0).elem) ∧
    (word 1 2 3 0 8).ty.toNat ∈ [0x0, 0x6, 0x7, 0x8] ∧ badEntryLane sQuant (batch 0) (word 1 2 3 0 8) 3 = none ∧ 0 < min 8 (word 1 2 3 0 8).elem.perLane ∧
    (word 1 2 3 0 1).ty.toNat < 2 ∧ (word 1 2 3 0 8 3).imm.toNat < min 8 (word 1 2 3 0 8 3).elem.perLane := by unfold State.ready; decide +kernel
/-- The same in a line kernel of core 0; and with a NaN among the values of v2. -/
def sQuantLine : State := (sLineMem.putMem (sliceAddr 0 0) [0x00#8, 0x3C#8]).vputLanes (line 0) (word 3 0 0) (fun _ => 0x3C00)
def withNaN (k : Issue) (s : State) : State := s.vputLanes k (word 2 0 0) (fun l => if l = 127 then 0x7FC00000 else 0)
theorem wit_TokenScales : sQuant.ready (batch 0) ∧ sQuantLine.ready (line 0) ∧ (word 1 2 3 0 0 16).ty.toNat ∈ [0x0, 0x6, 0x7, 0x8] ∧
    (word 1 2 3 0 0 0x100).imm.toNat = 256 + 0 * 16 ∧ (word 1 2 3 0 0 0).imm.toNat = 0 * 16 ∧
    recordCheck sQuant (batch 0) (word 1 2 3 0 0 0) = .ok 0 0 ∧ recordCheck sQuantLine (line 0) (word 1 2 3 0 0 0) = .ok 0 0 ∧
    recordCheck sQuant (batch 0) (word 1 2 3 0 0 0x100) = .ok 0 0 ∧ sQuantLine.slotFree (line 0) 0 0 ∧ (sQuant.readSlice 0 0 2).2.2 = false ∧
    ((positiveScale? (leNat (sQuant.readSlice 0 0 2).2.1)).map (fun a => ExactQ.lt ⟨1, 1⟩ a)) = some false ∧
    (tokenEntry .int4 ⟨1, 1⟩ (decodeFloat fmtFP32 0x7FC00000) (decodeFloat fmtFP32 0)).special = true ∧
    (tokenEntry .int4 ⟨1, 1⟩ (decodeFloat fmtFP32 0) (decodeFloat fmtFP32 0)).special = false ∧
    (((withNaN (line 0) sQuantLine).vget (line 0) 2#5).lane 127) = 0x7FC00000 ∧ (sQuantLine.vcore 0).commit = [] := by
  unfold State.ready State.slotFree; decide +kernel
theorem wit_TokenCodes : (word 1 2 3 0 0 0).ty.toNat ∈ [0x0, 0x6, 0x7, 0x8] ∧ badEntryLane sQuant (batch 0) (word 1 2 3 0 0 0) 3 = none ∧
    badEntryLane sQuantLine (line 0) (word 1 2 3 0 0 0) 3 = none ∧ (word 1 2 3 0 0 0x103).imm.toNat = 256 + 3 ∧
    (word 1 2 3 0 0 3).imm.toNat = 0 * 16 + 3 ∧ 3 < min 8 (word 1 2 3 0 0 3).elem.perLane ∧
    recordCheck sQuant (batch 0) (word 1 2 3 0 0 3) = .ok 0 0 ∧ recordCheck sQuantLine (line 0) (word 1 2 3 0 0 3) = .ok 0 0 := by decide +kernel
theorem wit_HadamardMix : sBatchMem.ready (batch 0) ∧ (word 0 2 3 0 0xB 3).ty.toNat = 0xB ∧ sBatchMem.memErr = [] ∧
    sBatchMem.checkTask 0 1 0 0 (512 * 64) 512 false = .ok 0 0 ∧ sBatchMem.checkTask 0 1 0 0 (512 * 64) 512 true = .ok 0 0 ∧
    sBatchMem.checkTask 0 1 0 32768 (512 * 64) 512 true = .ok 0 32768 ∧
    ((sBatchMem.putTable 1 0x14 (leBytes 4 2048)).checkTask 0 1 0 0 (512 * 256) 512 true) = .ok 0 0 := by unfold State.ready; decide +kernel

/-! ### Grid, movers, rings and queues -/

/-- Bytes of sixteen descriptor words, zero but for those listed. -/
def descBytes (l : List (Nat × Nat)) : List Byte := ((List.range 16).map (fun i => leBytes 4 (SMap.get (fun _ => 0) l i))).flatten
/-- A raw drain of one row of one column to offset 512 of slice 0. -/
def drainDesc : List Byte := descBytes [(0, 2 ^ 31 + 2 ^ 28), (3, 1), (4, 2 ^ 16), (10, 512)]
/-- A copy of 64 bytes within region 0, from offset 0 to offset 512. -/
def copyDesc : List Byte := descBytes [(0, 3 * 2 ^ 25), (3, 512), (5, 64), (6, 0x10001), (7, 1)]
/-- Task 1 may use the whole grid and 16 accumulator rows; a descriptor stands at offset 0. -/
def sGrid (bs : List Byte) : State :=
  ((((sBatchMem.setF F.HUB_CAP0_WHOLE 1).setF F.ACC_ROWS_ROWS 1024).putTable 1 0x08 (leBytes 4 0x100)).putTable 1 0x0C (leBytes 4 0x100000)).putMem (sliceAddr 0 0) bs
/-- A chain header of no stage. -/
def noStages : List Byte := List.replicate 16 0#8
theorem wit_GridAndMoverInstructions :
    (sGrid drainDesc).ready (batch 0) ∧ (sGrid drainDesc).enabled (batch 0) (word 0 2 4) = true ∧ (sGrid drainDesc).checkTask 0 1 0 0 64 64 false = .ok 0 0 ∧
    ((sGrid drainDesc).gridUnit 4).load < 2 ∧ ((sGrid drainDesc).readDescriptor 0 0).2.2 = false ∧
    ((sGrid drainDesc).readDescriptor 0 0).1.gridRefusal 4 (wordsOf 16 drainDesc) (0, 0) (0, 512) (.core 0) 1 = 0 ∧
    (sGrid []).corePasses 0 4 = false ∧ ((sGrid []).yctx 0 .batch).dataErr = false ∧ (sGrid copyDesc).moverFull 0 = false ∧
    ((sGrid copyDesc).readSlice 0 0 64).2.2 = false ∧ ((sGrid copyDesc).readSlice 0 0 64).1.reserveWaits 1 (wordsOf 16 copyDesc) = false ∧
    (sGrid drainDesc).tiler? 1 = none ∧ (sGrid noStages).checkTask 0 1 0 0 16 1 false = .ok 0 0 ∧ ((sGrid noStages).readSlice 0 0 16).2.2 = false ∧ (sGrid []).coreMoves 0 = false := by
  unfold State.ready; decide +kernel
/-- A tiled task of one product of INT8, with its operands and its result in region 0; `item` is what it has taken. -/
def tiledDesc : List Byte :=
  leBytes 4 0xB000 ++ leBytes 4 1 ++ leBytes 4 1 ++ leBytes 4 1 ++ leBytes 8 64 ++ leBytes 8 128 ++ leBytes 8 192 ++ List.replicate 72 0#8 ++
    leBytes 4 0x100 ++ List.replicate 12 0#8
def sTiled (item : Option Nat) : State := ((sGrid []).putTable 1 1 [0x10#8]).setTiler 1 { desc := tiledDesc, item := item }
/-- An effect goes on to a next state. -/
def effDone : YEffect → Bool
  | .done _ => true
  | _ => false
theorem wit_TiledTasks :
    let x : Tiler := { desc := tiledDesc }
    (sTiled none).ready (batch 0) ∧ (sTiled none).tiler? 1 = some x ∧ (sTiled none).tilerWork 1 x = none ∧
    (sTiled (some 0)).tiler? 1 = some { x with item := some 0 } ∧
    (match (sTiled (some 0)).tilerWork 1 { x with item := some 0 } with
     | some (wk, comb, steps) => (match steps[0]? with
       | some st => effDone ((sTiled (some 0)).issueTile 0 4 1 { x with item := some 0 } wk comb steps st)
       | none => false)
     | none => false) = true ∧ ((sTiled (some 0)).gridUnit 4).load < 2 ∧
    bitsOf (tWord tiledDesc 0x70) 5 0 = 0 ∧ (63 : Nat) ≠ bitsOf (tWord tiledDesc 0x70) 5 0 ∧ x.item = none ∧ (sTiled none).progressOk 1 = true ∧
    (sTiled none).getF (F.QUE_TALLY_i_VALUE 0) < ((sTiled none).tilePlan 1 tiledDesc).itemCount tiledDesc := by unfold State.ready; decide +kernel
theorem wit_GridWaits : ((sGrid []).setYctx 0 .batch { pc := 200, dataErr := true }).ready (batch 0) ∧
    (((sGrid []).setYctx 0 .batch { pc := 200, dataErr := true }).yctx 0 .batch).dataErr = true ∧ ((sGrid []).setYctx 0 .batch { pc := 200, mvFails := [(3, 2), (1, 9)] }).ready (batch 0) ∧
    (((sGrid []).setYctx 0 .batch { pc := 200, mvFails := [(3, 2), (1, 9)] }).yctx 0 .batch).mvFails ≠ [] := by unfold State.ready; decide +kernel
theorem wit_Rings :
    (withRing sLine).ready (line 0) ∧ (withRing sLine).enabled (line 0) (word 1 0 0 0 0 2) = true ∧ (withRing sLine).ownsRing 0 2 = true ∧
    ((withRing sLine).reserve 2).isSome = true ∧ (withHead sLine).ready (line 0) ∧ (withHead sLine).ringUsed 2 ≠ 0 ∧ (withHead sLine).headReady 2 = true ∧
    (withRing sLine).ringUsed 2 = 0 ∧ sLine.ownsRing 0 2 = false ∧ (withRing sBatch).ready (batch 0) ∧
    (withRing sBatch).ownsRing 1 (handleRing ((withRing sBatch).makeHandle 2 3)) = true ∧
    handleSlice ((withRing sBatch).makeHandle 2 3) = (withRing sBatch).ringSlice (handleRing ((withRing sBatch).makeHandle 2 3)) ∧
    ((withRing sLine).vcore 0).commit.length < 32 ∧ (withRing sLine).ringSlots 255 ≤ 1 ∧
    ((withRing sLine).setF (F.QUE_RING_r_PTR_USED 2) 4).reserve 2 = none := by unfold State.ready; decide +kernel
theorem wit_QueueInstructions :
    (withRing sBatch).ready (batch 0) ∧ (withRing sBatch).ownsQueue 1 3 = true ∧ ((withRing sBatch).hqOf 3).length < 64 ∧
    ({ withRing sBatch with rings := { hq := [(3, List.replicate 64 7)] } } : State).ownsQueue 1 3 = true ∧
    64 ≤ (({ withRing sBatch with rings := { hq := [(3, List.replicate 64 7)] } } : State).hqOf 3).length ∧ (withRing sLine).ready (line 0) ∧
    (withRing sLine).ownsQueue 0 255 = true ∧ ((withRing sLine).vcore 0).commit.length < 32 ∧ (withRing sBatch).hqOf 3 = [] ∧
    (word 1 2 0 0 0 63).imm.toNat < 64 := by unfold State.ready; decide +kernel
theorem wit_Uses : (word 1 2 3).uses true true true false false ∧ (word 0 0 0).uses false false false false false ∧
    (word 7 2 3 5).uses true true true true false ∧ (word 0 0 0 0 0 9).uses false false false false true ∧ (word 1 0 0).uses true false false false false ∧
    (word 0 2 3 4 0 9).uses false true true true true ∧ (word 1 2 0 4 0 9).uses true true false true true := by
  refine ⟨?_, ?_, ?_, ?_, ?_, ?_, ?_⟩ <;> simp [YWord.uses, word]
theorem wit_IssueChecks :
    sLine.ready (line 0) ∧ sLine.enabled (line 0) { word 1 2 3 with pn := true } = false ∧ sLine.enabled (line 0) (word 1 2 3 4) = true ∧
    (word 1 2 3 4).c ≠ 0#5 ∧ (word 1 2 3 0 1).ty.toNat ∉ [2, 3, 4, 5] ∧ sLine.issues (line 0) = true ∧
    (sLine.setYctx 0 .line { pc := 100 }).issues (line 0) = true ∧ (sLine.setYctx 0 .line { pc := 100 }).pcInRange (line 0) = false ∧
    ({ sLine with yu := { sLine.yu with imem := [(5, BitVec.ofNat 64 (8 * 2 ^ 58))] } } : State).opDefined (line 0) = false ∧
    ({ sLine with yu := { sLine.yu with imem := [(5, BitVec.ofNat 64 (8 * 2 ^ 58))] } } : State).issues (line 0) = true ∧
    sLine.issues { line 0 with fetch := .uncorrectable } = true ∧ part.issues (line 0) = false ∧ sBatch.ready (batch 0) ∧ (word 1 2 3).plainRegs := by
  unfold State.ready YWord.plainRegs; decide +kernel
theorem wit_CoreFaults : sLine.scorepad.waiting.length < 62 ∧ (sBatch.yctx 1 .batch).pc < 16384 ∧ (sBatch.vcore 1).batchTask = 0 ∧
    sBatch.flag (F.VC_n_FAULT_VALID 1) = false ∧ (sBatch.setF (F.VC_n_FAULT_VALID 1) 1).flag (F.VC_n_FAULT_VALID 1) = true := by decide +kernel

/-! ### The sequencer -/

/-- A started bundle in turn 0 whose move store holds one move. -/
def sMove (w : Nat) : State :=
  let s := withRegion 0 (sGrid drainDesc)
  { withRing { s with yu := {}, seq := {}, tt := { running := true } } with
    seq := { started := true, list := { moves := [w], rings := [⟨2, 0, 4, 1, 0, 0⟩] } } }
/-- A move of turn 0 at cycle 0: action, unit and low bits. -/
def move (action unit low : Nat) : Nat := unit * 2 ^ 90 + action * 2 ^ 84 + low
theorem wit_Launches : (sMove (move 1 3 0)).movesLeft = [(0, move 1 3 0)] ∧ (sMove (move 1 3 0)).sequencing = true ∧
    (sMove (move 1 3 0)).releasedAhead 0 = none ∧ ({ sMove (move 1 3 0) with seq := {} } : State).movesLeft = [] ∧ mvAction (move 1 3 0) ≠ 2 ∧
    ({ sMove (move 1 3 0) with tt := { isRepeat := true } } : State).sequencing = false ∧ mvSelects (sMove (move 1 3 0)).seq.list.ranges (move 1 3 0) 0 = true ∧ mvAction (move 1 3 0) = 1 ∧ (sMove (move 1 3 0)).unitUsable 3 = true ∧
    ((sMove (move 1 3 0)).vcore 3).lineRun = false ∧ (((sMove (move 1 3 0)).setVcore 3 { lineRun := true }).vcore 3).lineRun = true ∧
    ((sMove (move 1 3 0)).setVcore 3 { lineRun := true }).sequencing = true := by decide +kernel
theorem wit_Passes :
    let w := move 2 0x14 0
    let s := sMove w
    mvAction w = 2 ∧ w.testBit 63 = false ∧ w.testBit 47 = false ∧ s.sequencing = true ∧ (s.readDescriptor 0 (s.pairOffset 0 0 * 64)).2.2 = false ∧
    (s.readDescriptor 0 (s.pairOffset 0 0 * 64)).1.gridRefusal (s.passUnit (mvUnit w)) (wordsOf 16 drainDesc) (0, 0) (0, 512) .moveList 0 = 0 ∧
    (move 2 0x14 (2 ^ 63 + 2 * 2 ^ 48)).testBit 63 = true ∧ (sMove (move 2 0x14 (2 ^ 63 + 2 * 2 ^ 48))).headReady 2 = false := by decide +kernel
theorem wit_DescriptorMoves :
    let w := move 3 0x18 0
    mvAction w = 3 ∧ 0x18 ≤ mvUnit w ∧ mvUnit w < 0x28 ∧ w.testBit 63 = false ∧ (sMove w).sequencing = true ∧ ((sMove w).readDescriptor 0 0).2.2 = false ∧
    mSrcRing (wordsOf 16 drainDesc) = false ∧ mDstRing (wordsOf 16 drainDesc) = false ∧ mvUnit (move 3 0x27 0) = 0x27 := by decide +kernel
theorem wit_HaloMoves :
    let w := move 4 0 (2 * 2 ^ 64 + 512)
    mvAction w = 4 ∧ 0 < bitsOf w 23 0 ∧ (sMove w).sequencing = true ∧ ((sMove w).reserve (bitsOf w 71 64)).isSome = true ∧ mvAction (move 5 0 0) = 5 := by
  decide +kernel
theorem wit_SpansAndPadding : (sLine.vcore 0).lineRun = true ∧ (part.vcore 0).lineRun = false ∧
    ({ part with rings := { halo := [⟨2, 63, 0, 0, 64, 0, true⟩] } } : State).rings.halo.find? (fun a => a.ring == 2 && a.slot == 63 && a.filling) =
      some ⟨2, 63, 0, 0, 64, 0, true⟩ ∧ part.slotGen 2 63 = 0 := by decide +kernel

/-! ### Grid events, slices, banks and movers -/

/-- A pass of no task in unit 4. -/
def pass : GridPass := { unit := 4, words := wordsOf 16 drainDesc, issuer := .moveList, task := 0, act := (0, 0), drain := (0, 512) }
theorem wit_GridEvents : (part.setGridUnit 4 { waiting := [pass] }).gridUnit 4 = { waiting := [pass] } ∧
    (part.setGridUnit 4 { passes := [pass] }).gridUnit 4 = { passes := [pass] } ∧
    (part.setGridUnit 4 { passes := [pass] }).pushWaits (pass.pushes (part.setGridUnit 4 { passes := [pass] })) = false ∧
    pass.unit = 4 ∧ part.lineGrid = false ∧ (sMove 0).lineGrid = true ∧ (sMove 0).gapFits pass = true ∧ [pass, pass].length = 2 ∧
    (sMove (move 2 0x14 0)).gapFits pass = false ∧ keepRefused pass.words (ownerOf pass.issuer pass.task) (none, none) = false ∧
    keepRefused [2 ^ 14] (ownerOf .moveList 0) (none, none) = true ∧
    (part.setF F.ACC_SCRUB_EN 1).bankInPass 511 = false ∧ (part.setGridUnit 4 { passes := [pass] }).bankInPass 0 = true ∧
    (part.setF F.ACC_SCRUB_EN 0).flag F.ACC_SCRUB_EN = false ∧ (part.setF F.ACC_SCRUB_EN 1).flag F.ACC_SCRUB_EN = true ∧ (part.setF F.ACC_SCRUB_EN 1).grid.accWriteBack = [] := by decide +kernel
/-- A gather-buffer entry of the last block of slice 15. -/
def entry : GatherEntry := ⟨15, 65535, 15, true, [(63, 7#8)], 0⟩
theorem wit_ScratchpadContents : ({ part with spad := { gather := [entry] } } : State).spad.gather.find? (fun e => e.slice == 15 && e.block == 65535) = some entry ∧
    (∀ x ∈ [entry], x.slice = 15 → x.block = 65535 → x = entry) ∧ (∀ c ∈ entry.bytes, c.1 < 64) ∧ (entry.bytes.map (fun c => c.1)).Nodup ∧
    (∀ a ∈ part.spad.slots, a.2.1 = entry.core ∨ a.2.2.1 ≠ 15) ∧ bankSpan (63 * 16384) 16384 = 1 ∧
    (∀ i, i < 8 → part.errAt (firstWord (sliceAddr 15 (65535 * 64)) + i) ≠ 2) ∧ ((part.setReg (R.SPAD_n_BANK 0) 0#32).bankInit 0 (bankOf 0)) = false ∧
    (sLineMem.setF F.SPAD_SCRUB_EN 1).flag F.SPAD_SCRUB_EN = true ∧ (sLineMem.setF F.SPAD_SCRUB_EN 1).unitUsable 0 = true ∧
    (sLineMem.setF F.SPAD_SCRUB_EN 1).bankOn 0 31 = true ∧ (sLineMem.setF F.SPAD_SCRUB_EN 1).bankInit 0 31 = true ∧
    SMap.get (fun _ => []) ({ part with spad := { writeBack := [(3, [99])] } } : State).spad.writeBack 3 = [99] := by decide +kernel
theorem wit_BankPower : Requester.host ≠ .rulebook ∧ badCodes (BitVec.toNat 0xAAAAAAAA#32) = false ∧
    ({ part with spad := { bankMoves := [⟨15, 31, 2⟩] } } : State).spad.bankMoves.find? (fun m => m.slice == 15 && m.bank == 31 && m.target != 0) = some ⟨15, 31, 2⟩ ∧
    ({ part with spad := { bankMoves := [⟨15, 31, 2⟩] } } : State).bankBusy 15 31 = false ∧
    ({ part with spad := { bankMoves := [⟨0, 0, 0⟩] } } : State).spad.bankMoves.any (fun m => m.slice == 0 && m.bank == 0 && m.target == 0) = true ∧
    (∀ m ∈ ([⟨0, 0, 0⟩] : List BankMove), m.slice = 0 → m.bank = 0 → m.target = 0) ∧
    (part.setReg (R.SPAD_n_PWR_LO 0) 2#32).bankCode 0 0 = 2 := by decide +kernel
theorem wit_WindowsRingsAndCache : (Requester.unit 15 = .unit 15 ∨ Requester.unit 15 = .tcc ∨ Requester.unit 15 = .rulebook) ∧
    ¬(Requester.host = .unit 15 ∨ Requester.host = .tcc ∨ Requester.host = .rulebook) ∧ part.flag (F.QUE_RING_r_CFG_EN 255) = false ∧
    (BitVec.toNat 0x00800001#32) % 2 = 1 ∧ 3 ≤ bitsOf (BitVec.toNat 0x00800001#32) 27 22 + 1 ∧ part.unitUsable (bitsOf (BitVec.toNat 0x00800001#32) 31 28) = true ∧
    bitsOf (BitVec.toNat 0x00800001#32) 13 1 * 512 + (bitsOf (BitVec.toNat 0x00800001#32) 27 22 + 1) * (bitsOf (BitVec.toNat 0x00800001#32) 21 14 + 1) * 512 ≤ sliceSize ∧
    (withRing part).flag (F.QUE_RING_r_CFG_EN 2) = true := by decide +kernel
/-- Mover 0 with the copy of task 1 in its queue, and with it started. -/
def copy : MoverDesc := { words := wordsOf 16 copyDesc, issuer := .core 0, task := 1 }
def sMover : State := (((sGrid []).setMover 0 { queue := [copy] }).setF (F.BWR_n_c_UNLIM 0 3) 1)
theorem wit_MoverStarts :
    let s1 := sMover.setMover 0 { (sMover.mover 0) with queue := [], wrr := (sMover.pickDesc 0).elim 0 (fun p => p.2) }
    (sMover.pickDesc 0).map (fun p => p.1) = some copy ∧ mSrcRing copy.words = false ∧ mDstRing copy.words = false ∧ mKind copy.words ≠ 2 ∧
    s1.startCode 0 copy = 0 ∧ copy.code = 0 ∧
    s1.remoteSide { copy with banks := s1.dstBanks copy } (s1.srcSide copy) (mSrcAddr copy.words) false = none ∧
    s1.remoteSide { copy with banks := s1.dstBanks copy } (s1.dstSide copy) (mDstAddr copy.words) true = none := by decide +kernel
theorem wit_MoverCompletes :
    let s := (sGrid []).setMover 0 { busy := [copy] }
    let bad : MoverDesc := { copy with code := 2 }
    (s.mover 0).busy.find? (fun d => servedClass d == servedClass copy) = some copy ∧ copy.outstanding = false ∧ s.pushWaits (s.pushesTo copy) = false ∧
    mKind copy.words ≠ 1 ∧ ((s.setMover 0 {}).transfer 0 copy).code = 0 ∧ bad.code ≠ 0 ∧ bad.outstanding = false ∧ s.owes 0 copy = false ∧
    s.retrains copy = false ∧ (∀ d ∈ (s.mover 0).busy, d.owed = 0) := by decide +kernel
theorem wit_ChainStages :
    let g : ChainStage := { unit := 4, inQ := 3, outQ := 4, outRing := 2, last := true, desc := 0, region := 0, left := 1 }
    let s : State := { withRing (sGrid []) with tcc := { (withRing (sGrid [])).tcc with chains := [⟨0, some 0, 1, 0, [g]⟩] } }
    let h := s.makeHandle 2 0
    let s1 : State := { s.setSlotReady 2 0 true with rings := { (s.setSlotReady 2 0 true).rings with hq := [(3, [h])] } }
    s.tcc.chains.find? (fun c => c.id == 0) = some ⟨0, some 0, 1, 0, [g]⟩ ∧ s.hqOf g.inQ = [] ∧ s1.stageRoom g = true ∧
    (s1.popHandle 3).isSome = true ∧ s1.handleValid h = true ∧ s1.ownsQueue 1 3 = true ∧ s.handleValid h = false := by decide +kernel
theorem wit_ChannelsAndDieLink : (part.setF (F.MC_CHc_STAT_STATE 15) 1).getF (F.MC_CHc_STAT_STATE 15) = 1 ∧
    ((part.setF (F.MC_CHc_STAT_STATE 15) 2).setF (F.MC_CHc_STAT_RATE 15) 5).getF (F.MC_CHc_STAT_STATE 15) = 2 ∧
    4 < ((part.setF (F.MC_CHc_STAT_STATE 15) 2).setF (F.MC_CHc_STAT_RATE 15) 5).getF (F.MC_CHc_STAT_RATE 15) ∧
    (part.setF F.DL_STATUS_DL1_UP 1).moduleUp 1 = true ∧ (DlMsg.mk (.linkIn 0 []) 2 false 0 none).isNotice = false ∧
    (SMap.get (fun _ => []) part.raster.dl.replay 3).length < 64 ∧
    SMap.get (fun _ => []) (part.setDl { replay := [(3, [.reg])] }).raster.dl.replay 3 ≠ [] ∧ part.now ≤ 0 + 200 ∧
    0 + 200 < ({ part with now := 201 } : State).now := by decide +kernel
/-- R13: a MARK goes before a REG flit; beyond the reservation a RASTER flit waits for the HOST place (R14). -/
theorem test_link_order : dlPick false [.reg, .mark] 0 = some (.mark, 0) ∧ dlPick false [.reg, .raster] 0 = some (.raster, 0) ∧
    dlPick true [.raster, .halo] 0 = some (.halo, 0) ∧ dlPick true [.raster, .batch] 0 = some (.batch, 2) ∧
    dlPick true [.raster, .batch] 3 = some (.raster, 0) := by decide
/-- Task slot 16383 in a state. -/
def sTask (st : Nat) : State := part.setTaskState 16383 st
/-- The same with memory in service. -/
def memTask (st : Nat) : State := { ((sTask st).setF (F.MC_CHc_STAT_STATE 0) 1) with mc := { installed := 2 ^ 30, mapping := [0] } }
def sectionsRead : Except Nat (List SaveSection) → Bool
  | .ok _ => true
  | .error _ => false
theorem wit_TaskEnds : (sTask 10).taskState 16383 = 10 ∧ (sTask 10).workPending 16383 = false ∧ bitsOf ((sTask 10).slotField 16383 0 4) 15 12 ≠ 2 ∧
    (sTask 3).taskState 16383 = 3 ∧ 16383 ∉ (sTask 3).tcc.autoResume ∧ (sTask 5).taskState 16383 = 5 ∧ (sTask 5).tcc.cancelReq = [] ∧
    (sTask 5).saveWaits 16383 = false ∧ (sTask 5).saveRefused 16383 = true ∧ (memTask 5).saveRefused 16383 = false ∧ (memTask 5).saveWaits 16383 = false ∧
    sectionsRead ((memTask 5).sectionsOf 16383).2 = true ∧ (memTask 7).saveRefused 16383 = false ∧ findReq 16383 (memTask 5).tcc.cancelReq = none ∧
    16383 ∉ (sTask 5).tcc.autoResume ∧
    ((restoreDirs 16383 (saveDirs ((memTask 7).memBytes ((memTask 7).saveBase 16383) 4096)) (memTask 7)).restoreKept 16383).taskState 16383 = 7 ∧
    (sTask 7).taskState 16383 = 7 ∧ 16383 ∉ (sTask 7).tcc.restored ∧ part.flag F.TASK_FAULT_VALID = false ∧
    (part.setF F.TASK_FAULT_VALID 1).flag F.TASK_FAULT_VALID = true := by decide +kernel

/-! ### Host commands -/

/-- A command of the host's page: opcode, arguments, flags (1: due at round 20). -/
def cmd (op : Nat) (args : List Nat) (flags : Nat := 0) : HostCmd :=
  { seq := 5, opcode := op, flags := flags, vec := 0, due := if flags % 2 = 1 then 20 else 0, tag := 9, fenceK := 63, fenceValue := 2 ^ 32 - 1, args := args, first := 11 }
/-- A state in which only `c` is taken. -/
def sCmd (c : HostCmd) (s : State := part) : State := { s with host := { s.host with taken := [c] } }
theorem fronts_sCmd (c : HostCmd) (op : Nat) (s : State) (h : c.opcode = op ∧ c.origin = .host) : (sCmd c s).fronts c op := ⟨rfl, h.1, h.2⟩
/-- The lead domain is in round 10, the function is a bus master. -/
def sRun : State :=
  let s := part.setF F.PCI_STATUS_BME 1
  { s with raster := { doms := [(0, { on := true, run := true, round := 10, start := 1000, bmin := 400000 })] } }
/-- A due command and its lead, checked as the fields of `admits`. -/
theorem admits_of (s : State) (c : HostCmd) (lead : Nat)
    (h : (s.dom s.leadDom).on = true ∧ (s.dom s.leadDom).run = true ∧ c.flags.testBit 0 = true ∧ c.first + lead ≤ c.due ∧ (s.dom s.leadDom).round < c.due ∧
      c.due ≤ (s.dom s.leadDom).round + 2 ^ 24 ∧ s.host.due.length < 64) : s.admits c lead :=
  ⟨h.1, h.2.1, h.2.2.1, h.2.2.2.1, h.2.2.2.2.1, h.2.2.2.2.2.1, h.2.2.2.2.2.2⟩
/-- A move list of no moves that the whole grid carries, and an unsigned bundle of that one list. -/
def list0 : List Byte := leBytes 4 0 ++ leBytes 4 834 ++ List.replicate 132 0#8
def image0 : List Byte :=
  leBytes 4 0x4442474E ++ leBytes 2 1 ++ [0#8, 0#8] ++ leBytes 8 428 ++ leBytes 8 428 ++ List.replicate 18 0#8 ++ [1#8, 1#8] ++ leBytes 4 834 ++
    leBytes 4 109225 ++ List.replicate 204 0#8 ++ leBytes 2 1 ++ List.replicate 6 0#8 ++ leBytes 8 288 ++ leBytes 8 140 ++ leBytes 8 (3 * 2 ^ 60) ++ list0
/-- A bundle of one empty list. -/
def bundle : Bundle := { ident := 0, hash := [], domain := 0, retain := false, lMin := 834, lMax := 109225, bw := [], runSeed := 0, adaptSeed := 0, area := 0, lists := [list0], regions := [], setups := [], adapt := [], images := [], conf := [], sealed := [] }
def loaded (s : State) : State := { s with seq := { s.seq with bundle := some bundle } }
def started (s : State) : State := { s with seq := { s.seq with bundle := some bundle, started := true } }
/-- The turn length of domain 0 and the whole grid, as START_AT wants them. -/
def timed (s : State) : State := ((s.setF (F.TB_Dn_TURN_LEN 0) 8000).setF F.HUB_CAP0_WHOLE 1).setF F.HUB_ACLK_MHZ 600

theorem wit_SessionCommands : (sCmd (cmd 0x01 [257])).fronts (cmd 0x01 [257]) 0x01 ∧ (sCmd (cmd 0x02 [0, 1]) sRun).fronts (cmd 0x02 [0, 1]) 0x02 ∧
    (sCmd (cmd 0x02 [0, 1]) sRun).flag F.PCI_STATUS_BME = true := ⟨fronts_sCmd _ _ _ ⟨rfl, rfl⟩, fronts_sCmd _ _ _ ⟨rfl, rfl⟩, by decide +kernel⟩
theorem wit_CommandFences : (cmd 0x01 [] 8).fenceK < 64 ∧ (cmd 0x01 [] 8).fenceValue < 2 ^ 32 ∧ (cmd 0x01 [] 8).flags.testBit 3 = true ∧
    (cmd 0x01 []).flags.testBit 3 = false := by decide +kernel
theorem wit_DueCommandsWait :
    (cmd 0x04 [] 1).flags.testBit 1 = false ∧ (sCmd (cmd 0x04 [] 1) (loaded sRun)).fronts (cmd 0x04 [] 1) 0x04 ∧
    (sCmd (cmd 0x04 [] 1) (loaded sRun)).seq.bundle.isSome = true ∧ (sCmd (cmd 0x04 [] 1) (loaded sRun)).admits (cmd 0x04 [] 1) 0 ∧
    (sCmd (cmd 0x06 [] 1) (started sRun)).seq.started = true ∧ (sCmd (cmd 0x06 [] 1) (started sRun)).admits (cmd 0x06 [] 1) 0 :=
  ⟨rfl, fronts_sCmd _ _ _ ⟨rfl, rfl⟩, rfl, admits_of _ _ _ (by decide +kernel), rfl, admits_of _ _ _ (by decide +kernel)⟩
/-- A check has passed. -/
def passes {α : Type} (x : Except Code α) : Bool := match x with | .ok _ => true | .error _ => false
theorem exists_of_passes {α : Type} : ∀ (x : Except Code α), passes x = true → ∃ a, x = .ok a
  | .ok a, _ => ⟨a, rfl⟩
theorem wit_StartWaits : (∃ x, ((sCmd (cmd 0x05 [] 1) (timed (loaded sRun))).setTaken []).startCheck = .ok x) ∧
    (sCmd (cmd 0x05 [] 1) (timed (loaded sRun))).admits (cmd 0x05 [] 1) 2 :=
  ⟨exists_of_passes _ (by decide +kernel), admits_of _ _ _ (by decide +kernel)⟩
theorem wit_AdaptWaits :
    [1, 2, 3, 4, 5, 6, 7].map (fun k => adSub (cmd 0x0E [k] 1)) = [1, 2, 3, 4, 5, 6, 7] ∧
    (sCmd (cmd 0x0E [7, 0, 0, 0, 0, 4] 1) (loaded sRun)).admits (cmd 0x0E [7, 0, 0, 0, 0, 4] 1) 0 ∧
    (cmd 0x0E [7, 0, 0, 0, 0, 4] 1).arg 5 = setSize (sCmd (cmd 0x0E [7] 1) (loaded sRun)).adaptTable + 4 ∧
    (sCmd (cmd 0x0E [7] 1) (loaded sRun)).flag F.PCI_STATUS_BME = true := by
  and_intros <;> first | exact admits_of _ _ _ (by decide +kernel) | decide +kernel
theorem wit_ClockAndPower :
    (cmd 0x0F [299] 1).arg 0 < 300 ∧ (cmd 0x0F [575] 1).arg 0 % 25 = 0 ∧ (∃ x, ((sCmd (cmd 0x0F [575] 1) sRun).setTaken []).clockCode 575 = .ok x) ∧
    (sCmd (cmd 0x0F [575] 1) sRun).admits (cmd 0x0F [575] 1) 1 ∧ (sCmd (cmd 0x10 [1] 1) sRun).powerSettled 1 = false ∧ sRun.power.step = .idle ∧ sRun.pstate = 0 ∧
    (sCmd (cmd 0x10 [2] 1) sRun).powerSettled 2 = false ∧ (sCmd (cmd 0x10 [2] 1) sRun).host.background = [] ∧
    (sCmd (cmd 0x10 [0]) sRun).powerSettled 0 = true ∧ (cmd 0x10 [0x100, 15] 1).arg 1 < 16 ∧ sRun.unitUsable 15 = true ∧
    ((cmd 0x10 [0x100, 15] 1).arg 0).testBit 8 = true := by
  and_intros <;> first | exact ⟨none, rfl⟩ | exact admits_of _ _ _ (by decide +kernel) | decide +kernel | rfl
/-- HOLD is in force. -/
def held : State := sRun.setF F.PWR_STATE_STATE 1
theorem wit_PowerToRun : (sCmd (cmd 0x10 [0] 1) held).powerSettled 0 = false ∧ held.pstate = 1 ∧ held.temp < Int.ofNat held.warnLevel ∧
    (held.dom held.leadDom).start ≠ held.now ∧ (sCmd (cmd 0x10 [0] 1) held).admits (cmd 0x10 [0] 1) 1 := by
  and_intros <;> first | exact admits_of _ _ _ (by decide +kernel) | decide +kernel
theorem wit_TaskCommands :
    0 < (cmd 0x0A [16383]).arg 0 ∧ (cmd 0x0A [16383]).arg 0 < 16384 ∧ (sCmd (cmd 0x0A [16383]) (sTask 2)).taskState 16383 = 2 ∧
    findReq 16383 (sTask 2).tcc.pauseReq = none ∧ (sCmd (cmd 0x0A [16383]) (sTask 4)).taskState 16383 ≠ 2 ∧ (sTask 4).taskState 16383 = 4 ∧
    (sTask 4).power.stopped = false ∧ (sTask 6).taskState 16383 = 6 ∧
    (let s := (part.putTable 1 0 [4#8, 0x10#8]).putTable 1 0x88 (leBytes 4 1); s.taskState 1 = 4 ∧ s.saveFits 1 = true) ∧
    (cmd 0x0D [0, 16383]).arg 0 % 4 = 0 ∧ (cmd 0x0D [1, 3]).arg 0 = 1 ∧
    [(⟨{ cmd 0x04 [] 1 with seq := 3 }, 20, 0, []⟩ : DueCmd)].find? (fun d => d.cmd.seq == 3 && d.cmd.origin == .host) = some ⟨{ cmd 0x04 [] 1 with seq := 3 }, 20, 0, []⟩ := by
  decide +kernel
/-- An image of a BATCH task on core 0. -/
def taskImage : List Byte := leBytes 4 0x300 ++ List.replicate 252 0#8
theorem wit_TaskSubmission :
    let c := cmd 0x09 [0, 0, 1, 4096]
    let s := sCmd c { sRun with hostMem := putBytes [] 0 taskImage }
    let bs := entriesAt (s.hostBytes (argAddr c 0) (256 * c.arg 2)) 0 256 (c.arg 2)
    bs.any imageBad = false ∧ groupsBad bs = false ∧ bs.any s.imageRows = false ∧ bs.any s.imageAbsent = false ∧ bs.any s.imageDenied = false ∧
    bs.any (fun b => imgGroup b != 0 && s.usedSlots.any (fun t => s.slotGroup t == imgGroup b)) = false ∧ s.freeSlots 1 16383 1 = [1] ∧ [1].Nodup ∧
    s.flag F.PCI_STATUS_BME = true := by decide +kernel
theorem wit_SecurityCommands :
    (cmd 0x15 [2 ^ 31]).flags.testBit 3 = false ∧ ((cmd 0x15 [2 ^ 31]).arg 0).testBit 31 = true ∧ (part.setF F.SEC_STATUS_RNG_OK 1).flag F.SEC_STATUS_RNG_OK = true ∧
    part.flag F.SEC_STATUS_RNG_OK = false ∧ ((cmd 0x15 [1]).arg 0).testBit 31 = false ∧ (cmd 0x15 [1]).arg 3 = 0 ∧
    ({ part with sec := { debug := some ⟨1, false, 0, 0, 0, 0, none⟩ } } : State).sec.debug ≠ none ∧
    (part.setF F.SEC_STATUS_LC 1).lc ≠ 3 ∧ (part.setF F.SEC_STATUS_LC 1).lc ≠ 2 ∧ part.seq.bundle = none ∧ (cmd 0x18 [0, 0, 0]).arg 2 = 0 ∧
    (part.setF F.SEC_STATUS_LC 3).lc = 3 ∧ 3156 ≤ (cmd 0x14 [0, 0, 0, 0, 4096]).arg 4 := by decide +kernel

/-! ### Records and scans -/

theorem wit_RecordsAreKept :
    let s : State := { part with scorepad := { counted := true, waiting := [⟨0x304, 1⟩] } }
    s.scorepad.counted = true ∧ s.scorepad.waiting = [⟨0x304, 1⟩] ∧ s.triggerOf 0x304 = none ∧ 1 ≤ 0x304 / 256 ∧ 0x304 / 256 ≤ 5 ∧ s.scorepad.ledger.length < 2048 ∧
    s.triggerOf 0x709 = none ∧ 5 < 0x709 / 256 ∧ s.scorepad.trace.length < 6144 ∧
    2048 ≤ (List.replicate 2048 (⟨1, 0, 0xFF, 0, 0, 0x304, 0, 0, 0, 0, []⟩ : Record)).length := by decide +kernel
/-- A flash directory whose ledger area lies at 0x10000. -/
def withLedgerArea (s : State) : State :=
  putFlash (leBytes 4 0x4446474E ++ leBytes 4 1 ++ leBytes 8 0 ++ leBytes 8 0 ++ leBytes 8 0x10000) 0 { s with flash := { fitted := true } }
theorem wit_RecordCommands : (withLedgerArea part).flashDir 2 ≠ 0 ∧ (cmd 0x11 [1, 6143, 1]).arg 0 ≤ 1 ∧
    (cmd 0x11 [1, 6143, 1]).arg 1 + (cmd 0x11 [1, 6143, 1]).arg 2 ≤ recCapacity 1 ∧ sRun.flag F.PCI_STATUS_BME = true ∧ (cmd 0x12 [1]).arg 0 = 1 ∧
    (part.setF F.SEC_STATUS_LC 2).lc = 2 ∧ (part.setF F.SEC_STATUS_LC 2).debugLevel < 2 ∧ part.lc ≠ 2 := by decide +kernel
theorem wit_CheckValueEngines :
    let s := part.setF (F.CRC_e_CTRL_BUSY 7) 1
    part.flag (F.CRC_e_CTRL_OWNED 7) = false ∧ part.flag (F.CRC_e_CTRL_BUSY 7) = false ∧ (part.setF (F.CRC_e_CTRL_OWNED 7) 1).flag (F.CRC_e_CTRL_OWNED 7) = true ∧
    s.flag (F.CRC_e_CTRL_BUSY 7) = true ∧ s.flag (F.CRC_e_CTRL_STOP 7) = false ∧
    argAddr (cmd 0x13 [7, 0, 0, 2 ^ 31, 1]) 1 + argAddr (cmd 0x13 [7, 0, 0, 2 ^ 31, 1]) 3 ≤ 2 ^ 48 ∧
    (scanRange (s.getF (F.CRC_e_CTRL_POLY 7)) 2 0 0 (s.crcVal 7) s).2.2.2 = 0 ∧ (scanRange (s.getF (F.CRC_e_CTRL_POLY 7)) 2 0 0 (s.crcVal 7) s).2.2.1 < 2 ^ 64 ∧
    s.crcLen 7 = 0 := by decide +kernel

/-! ### The fabric -/

/-- Port `p` is up and carries traffic. -/
def up (p : Nat) (s : State := part) : State := (s.setF (F.FAB_Pp_STATUS_UP p) 1).setF (F.FAB_Pp_STATUS_LANES p) 4
theorem accepts_of (s : State) (f : FlitIn) (cls : Nat) (h : (s.receiveFlit f).2 = true ∧ f.cls = cls) : s.accepts f cls (s.receiveFlit f).1 :=
  ⟨Prod.ext rfl h.1, h.2⟩
theorem acceptsHere_of (s : State) (f : FlitIn) (cls : Nat) (h : ((s.receiveFlit f).2 = true ∧ f.cls = cls) ∧ (s.receiveFlit f).1.portOpen f.port = true ∧
    f.dx % 64 = (s.receiveFlit f).1.ownX ∧ f.dy % 64 = (s.receiveFlit f).1.ownY) : s.acceptsHere f cls (s.receiveFlit f).1 := ⟨accepts_of s f cls h.1, h.2.1, h.2.2⟩
theorem wit_FlitAcceptance : (flit 3 2).port < 4 ∧ (up 3).portUp 3 = true ∧ (flit 3 2).crcOk = true ∧ (flit 3 2).nak = false ∧
    (flit 3 2).seq = (((up 3).fport 3).rxSeq + 1) % 4096 ∧ ((up 3).fport 3).rxSeq < 4096 ∧ { flit 3 2 with crcOk := false }.crcOk = false ∧
    { flit 3 2 with seq := 4095 }.seq ≠ (((up 3).fport 3).rxSeq + 1) % 4096 ∧ ((up 3).receiveFlit { flit 3 2 with seq := 4095 }).2 = false ∧
    ((up 3).receiveFlit (flit 3 2)).2 = true ∧ (flit 3 4).cls ≠ 0 := by decide +kernel
/-- A flit sent and not acknowledged. -/
def sent (tries : Nat) : State := (up 2).setFport 2 { replay := [(1, (up 2).peerFlit 2 0x1F 0 [])], nextSeq := 2, tries := tries }
theorem wit_LinkEvents : ((part.setF F.FAB_CTRL_PORT_EN 15).getF F.FAB_CTRL_PORT_EN).testBit 3 = true ∧ (part.setF F.FAB_CTRL_PORT_EN 15).portUp 3 = false ∧
    part.getF F.PWR_BOOT_STEP ≠ 7 ∧ ((up 2).setFport 2 { retrain := true }).portUp 2 = true ∧ (((up 2).setFport 2 { retrain := true }).fport 2).retrain = true ∧
    2 < ((up 2).setFport 2 { retrain := true }).getF (F.FAB_Pp_STATUS_LANES 2) ∧ (sent 7).portUp 2 = true ∧ ((sent 7).fport 2).replay ≠ [] ∧
    ((sent 7).fport 2).retrain = false ∧ ((sent 7).fport 2).tries < 8 ∧ 8 ≤ ((sent 8).fport 2).tries := by decide +kernel
/-- A joined device that is not the origin, with its parent on port 1. -/
def joined : State :=
  let s := ((((up 1).setF F.FAB_STATUS_JOINED 1).setF F.FAB_PARENT_VALID 1).setF F.FAB_PARENT_PORT 1)
  s.setFab { s.fab with disc := .joined }
theorem wit_LostPorts : (up 3).portUp 3 = true ∧ ({ up 3 with raster := sRun.raster } : State).portUp 3 = true ∧
    (({ up 3 with raster := sRun.raster } : State).dom ({ up 3 with raster := sRun.raster } : State).leadDom).run = true ∧ joined.flag F.FAB_PARENT_VALID = true ∧
    joined.getF F.FAB_PARENT_PORT = 1 ∧ joined.portUp 1 = true ∧ joined.fab.disc = .joined ∧ joined.flag F.FAB_STATUS_ORIGIN = false ∧ joined.beaconPort ≠ none ∧
    joined.flag F.FAB_STATUS_JOINED = true := by decide +kernel
/-- A device in a state of discovery, with port 1 up. -/
def inDisc (d : Disc) : State := (up 1).setFab { (up 1).fab with disc := d, best := 3 * 2 ^ 128 }
/-- What a flit leaves once taken. -/
def recv (s : State) (f : FlitIn) : State := (s.receiveFlit f).1
def pay (bs : List Byte) : List Byte := (bs ++ List.replicate 64 0#8).take 64
theorem wit_DiscoveryFlits :
    let h := flit 1 2 0 (pay [])
    let a := flit 1 2 0 (pay [2#8])
    (inDisc .electing).accepts h 2 (recv (inDisc .electing) h) ∧ (recv (inDisc .electing) h).anyDomain = false ∧ (recv (inDisc .electing) h).fab.disc = .electing ∧
    fieldAt h.payload 33 1 * 2 ^ 128 + fieldAt h.payload 17 16 < (recv (inDisc .electing) h).fab.best ∧ (inDisc .waiting).accepts h 2 (recv (inDisc .waiting) h) ∧
    (recv (inDisc .waiting) h).fab.disc = .waiting ∧ inRange (impliedAt 1 0 0) = true ∧ (inDisc .offered).accepts h 2 (recv (inDisc .offered) h) ∧
    (recv (inDisc .offered) h).fab.disc = .offered ∧ impliedAt 1 1 0 = (coord (recv (inDisc .offered) h).ownX, coord (recv (inDisc .offered) h).ownY) ∧
    impliedAt 1 0 0 ≠ (coord (recv (inDisc .offered) h).ownX, coord (recv (inDisc .offered) h).ownY) ∧ (2 : Nat) ≠ opposite 1 ∧
    fieldAt (pay [1#8]) 0 1 = 1 ∧ (up 2 joined).accepts { a with port := 2 } 2 (recv (up 2 joined) { a with port := 2 }) ∧
    fieldAt a.payload 0 1 = 2 ∧ (recv (up 2 joined) { a with port := 2 }).fab.disc = .joined ∧
    ((recv (up 2 joined) { a with port := 2 }).setFab { (recv (up 2 joined) { a with port := 2 }).fab with counts := [(2, 0)] }).subtreeDone = true := by
  and_intros <;> first | exact accepts_of _ _ _ (by decide +kernel) | decide +kernel
theorem wit_HelloInARun : ({ up 1 with raster := sRun.raster } : State).accepts (flit 1 2) 2 (recv { up 1 with raster := sRun.raster } (flit 1 2)) ∧
    (recv { up 1 with raster := sRun.raster } (flit 1 2)).anyDomain = true := ⟨accepts_of _ _ _ (by decide +kernel), by decide +kernel⟩
theorem wit_DiscoveryTimers :
    ((inDisc .electing).setFab { (inDisc .electing).fab with best := 2 * 2 ^ 128 }).fab.best / 2 ^ 128 = 2 ∧ (inDisc .electing).fab.best / 2 ^ 128 ≠ 2 ∧
    ((inDisc .electing).setF F.PWR_CAUSE_ORIGIN 1).ownKey = 0 ∧
    (((inDisc .electing).setF F.PWR_CAUSE_ORIGIN 1).setFab { (inDisc .electing).fab with best := 0 }).fab.best / 2 ^ 128 ≠ 2 ∧
    (inDisc .electing).fab.best ≠ (inDisc .electing).ownKey ∧
    bestOffer (((inDisc .offered).setFab { (inDisc .offered).fab with offers := [(1, 0, 0, 126)] }).fab.offers.filter (fun o => (inDisc .offered).portOpen o.1)) =
      some (126, 1) ∧ (inDisc .waiting).fab.disc = .waiting ∧
    ({ inDisc .waiting with host := { background := [cmd 0x19 [1]] } } : State).host.background = [cmd 0x19 [1]] := by decide +kernel
theorem wit_DiscoverCommands : (sCmd (cmd 0x19 [0]) (up 1)).fronts (cmd 0x19 [0]) 0x19 ∧ (sCmd (cmd 0x19 [0]) sRun).anyDomain = true ∧
    (sCmd (cmd 0x19 [0]) (up 1)).anyDomain = false ∧ (sCmd (cmd 0x19 [1]) (up 1)).flag F.FAB_STATUS_JOINED = false ∧ (cmd 0x19 [1]).flags.testBit 0 = false ∧
    (sCmd (cmd 0x19 [1] 1) (sRun.setF F.FAB_STATUS_JOINED 1)).admits (cmd 0x19 [1] 1) 2 ∧
    (sCmd (cmd 0x19 [1] 1) (sRun.setF F.FAB_STATUS_JOINED 1)).flag F.FAB_STATUS_JOINED = true := by
  and_intros <;> first | exact fronts_sCmd _ _ _ ⟨rfl, rfl⟩ | exact admits_of _ _ _ (by decide +kernel) | decide +kernel
theorem wit_Beacons :
    ((joined.setF F.FAB_STATUS_ORIGIN 1).flag F.FAB_STATUS_ORIGIN = true ∧ (joined.setF F.FAB_STATUS_ORIGIN 1).flag F.FAB_STATUS_JOINED = true ∧ 1024 % 1024 = 0 ∧
      joined.now ≤ 1024) ∧ joined.accepts (flit 1 0 0 (pay [])) 0 (recv joined (flit 1 0 0 (pay []))) ∧ (recv joined (flit 1 0 0 (pay []))).fab.disc = .joined ∧
    (recv joined (flit 1 0 0 (pay []))).flag F.FAB_STATUS_ORIGIN = false ∧ (recv joined (flit 1 0 0 (pay []))).portOpen 1 = true ∧
    (recv joined (flit 1 0 0 (pay []))).beaconPort = some 1 ∧ (recv joined (flit 1 0 0 (pay []))).fab.stepNext = false := by
  and_intros <;> first | exact accepts_of _ _ _ (by decide +kernel) | decide +kernel
/-- An orphan, and a device that steps its counter at the next beacon. -/
def orphan : State := (joined.setF F.FAB_PARENT_VALID 0).setFab { joined.fab with orphan := true }
def stepper : State := joined.setFab { joined.fab with stepNext := true }
theorem wit_NewParents : orphan.accepts (flit 1 0 0 (pay [1#8])) 0 (recv orphan (flit 1 0 0 (pay [1#8]))) ∧ (recv orphan (flit 1 0 0 (pay [1#8]))).beaconPort = none ∧
    (recv orphan (flit 1 0 0 (pay [1#8]))).fab.orphan = true ∧ (recv orphan (flit 1 0 0 (pay [1#8]))).fab.bseq < fieldAt (pay [1#8]) 0 8 ∧
    ((recv orphan (flit 1 0 0 (pay [1#8]))).dom (recv orphan (flit 1 0 0 (pay [1#8]))).leadDom).run = false ∧
    (recv stepper (flit 1 0 0 (pay []))).fab.stepNext = true ∧ (recv stepper (flit 1 0 0 (pay []))).anyDomain = false := by
  and_intros <;> first | exact accepts_of _ _ _ (by decide +kernel) | decide +kernel
theorem wit_LinkDelays : (up 0).accepts (flit 0 0) 0 (recv (up 0) (flit 0 0)) ∧ ((recv (up 0) (flit 0 0)).fport 0).samples.length < 15 ∧
    ((recv ((up 0).setFport 0 { samples := List.replicate 15 160 }) (flit 0 0)).fport 0).samples.length = 15 ∧
    (∀ y ∈ List.replicate 15 160 ++ [(500 - 180) / 2], 160 ≤ y ∧ y ≤ 160) := by
  and_intros <;> first | exact accepts_of _ _ _ (by decide +kernel) | decide +kernel
/-- Port 1's neighbour may write the last block of slice 0. -/
def haloOpen : State :=
  ((up 1 sLineMem).setReg (R.SPAD_n_WIN_w 0 31) 0x8000FFFF#32).setReg (R.SPAD_n_WIN_w_MASK 0 31) (BitVec.ofNat 32 (2 ^ 20 + 2 ^ 17))
def haloFlit : FlitIn := flit 1 1 (65535 * 32) (List.replicate 64 7#8)
theorem wit_HaloWrites : haloOpen.accepts haloFlit 1 (recv haloOpen haloFlit) ∧ bitsOf haloFlit.arg 20 5 * 64 = 65535 * 64 ∧ (recv haloOpen haloFlit).portOpen 1 = true ∧
    haloFlit.dx % 64 = (recv haloOpen haloFlit).ownX ∧ haloFlit.sx % 64 = (recv haloOpen haloFlit).getF (F.FAB_Pp_STATUS_PEER_X 1) ∧
    (recv haloOpen haloFlit).power.tensorOff = false ∧ (recv haloOpen haloFlit).banksOn 0 (65535 * 64) 64 = true ∧
    (recv haloOpen haloFlit).windowOpen 0 17 (65535 * 64) (65535 * 64 + 64) = true ∧ (recv haloOpen haloFlit).bankInit 0 (bankOf (65535 * 64)) = true ∧
    { haloFlit with dx := 1 }.dx % 64 ≠ (recv haloOpen { haloFlit with dx := 1 }).ownX := by
  and_intros <;> first | exact accepts_of _ _ _ (by decide +kernel) | decide +kernel

/-- A device whose neighbour on port 1 may use its exported window; its memory is in service. -/
def exporting : State :=
  let s := ((((up 1 sRun).setF F.FAB_EXPORT_EN 1).setF F.FAB_EXPORT_WEN 1).setF F.DL_STATUS_DL0_UP 1).setF (F.MC_CHc_STAT_STATE 0) 1
  { s with mc := { s.mc with installed := 2 ^ 30, mapping := [0] } }
def bulk : FlitIn := flit 1 4 (2 ^ 22 - 1) (pay [])
theorem wit_BulkFlits : exporting.acceptsHere (flit 1 4 5 (pay [1#8])) 4 (recv exporting (flit 1 4 5 (pay [1#8]))) ∧
    (recv exporting (flit 1 4 5 (pay [1#8]))).exportRefuses 5 true = false ∧ (flit 1 4 5 (pay [])).arg.testBit 22 = false ∧
    (up 1).acceptsHere bulk 4 (recv (up 1) bulk) ∧ (recv (up 1) bulk).exportRefuses bulk.arg true = true ∧
    (recv exporting (flit 1 4 5 (pay [1#8]))).exportRefuses (bitsOf 5 21 0) false = false ∧ fieldAt (flit 1 4 5 (pay [1#8])).payload 0 1 = 1 ∧
    (recv exporting (flit 1 4 5 (pay [1#8]))).portOpen ((recv exporting { flit 1 4 5 (pay [1#8]) with sx := 1 }).routePort 1 0) = true := by
  and_intros <;> first | exact acceptsHere_of _ _ _ (by decide +kernel) | decide +kernel
/-- Stream 63 captures from the fabric. -/
def capturing : State :=
  let s := ((up 1 sRun).setF (F.STR_n_CFG_EN 63) 1).setF (F.STR_n_CFG_KIND 63) 1
  (s.setF (F.STR_n_FRM_CFG_SRC 63) 2).setStrm 63 { sender := some 0 }
theorem wit_PixelFlits : (up 1).acceptsHere (flit 1 3) 3 (recv (up 1) (flit 1 3)) ∧ (recv (up 1) (flit 1 3)).isCapture (bitsOf (flit 1 3).arg 24 19) = false ∧
    capturing.acceptsHere (flit 1 3 (63 * 2 ^ 19)) 3 (recv capturing (flit 1 3 (63 * 2 ^ 19))) ∧ (recv capturing (flit 1 3 (63 * 2 ^ 19))).isCapture 63 = true ∧
    (recv capturing (flit 1 3 (63 * 2 ^ 19))).getF (F.STR_n_FRM_CFG_SRC 63) = 2 ∧ (recv capturing (flit 1 3 (63 * 2 ^ 19))).flag (F.STR_n_STATUS_SHED 63) = false ∧
    ((recv capturing (flit 1 3 (63 * 2 ^ 19))).strm 63).sender = some 0 ∧ (63 * 2 ^ 19).testBit 4 = false ∧ (63 * 2 ^ 19).testBit 3 = false := by
  and_intros <;> first | exact acceptsHere_of _ _ _ (by decide +kernel) | decide +kernel
/-- Mover 15 waits for the block 5 of device 0, and for an acknowledgement. -/
def waiting : State := (up 1).setMover 15 { busy := [{ copy with remote := some { dev := 0, need := [windowAddr 0 5], ack := true } }] }
theorem wit_RemoteAnswers : ((recv waiting (flit 1 4 5)).mover 15).busy = [{ copy with remote := some { dev := 0, need := [windowAddr 0 5], ack := true } }] ∧
    (∀ j, j < 15 → ((recv waiting (flit 1 4 5)).mover j).busy = []) ∧ mKind copy.words ≠ 2 ∧ waiting.acceptsHere (flit 1 4 5) 4 (recv waiting (flit 1 4 5)) ∧
    flitDev (flit 1 4 5) = 0 ∧ windowAddr (flitDev (flit 1 4 5)) (bitsOf 5 21 0) ∈ [windowAddr 0 5] ∧
    ({ copy with remote := some { dev := 0, need := [windowAddr 0 5], ack := true } } : MoverDesc).outstanding = true ∧
    ({ dev := 0, need := [windowAddr 0 5], ack := true } : Remote).later = [] := by
  and_intros <;> first | exact acceptsHere_of _ _ _ (by decide +kernel) | decide +kernel
/-- A forward to device 1 with the inner opcode 2 and tag 7. -/
def forward (taken : Bool) : Forward := ⟨cmd 0x1B [1], 1, 2, 7, none, taken⟩
def withForward (taken : Bool) (s : State := up 1) : State := { s with host := { s.host with forwards := [forward taken] } }
def answer (op : Nat) : FlitIn := { flit 1 2 0 (pay ([0#8, 0#8, 0#8, 0#8, BitVec.ofNat 8 op, 0#8, 0#8, 0#8, 7#8])) with sx := 1 }
theorem wit_ControlFlits : (up 1).acceptsHere (flit 1 2 63 (pay [])) 2 (recv (up 1) (flit 1 2 63 (pay []))) ∧
    (recv ((up 1).setF F.FAB_STATUS_ORIGIN 1) (flit 1 2)).flag F.FAB_STATUS_ORIGIN = true ∧
    (withForward false).acceptsHere (answer 0x1B) 2 (recv (withForward false) (answer 0x1B)) ∧ (fieldAt (answer 0x1B).payload 6 1).testBit 1 = false ∧
    (recv (withForward false) (answer 0x1B)).host.forwards = [forward false] ∧ (forward false).dev = flitDev (answer 0x1B) ∧
    (forward false).tag = fieldAt (answer 0x1B).payload 8 4 ∧ fieldAt (answer 0x1B).payload 4 1 = 0x1B ∧ fieldAt (answer 2).payload 4 1 = (forward true).opcode := by
  and_intros <;> first | exact acceptsHere_of _ _ _ (by decide +kernel) | decide +kernel
theorem wit_ForwardsAndRoutes :
    let c := cmd 0x1B [63 * 256 + 63, 0, 0]
    (sCmd c (up 1 sRun)).fronts c 0x1B ∧ c.arg 0 < 16384 ∧ (c.arg 0).testBit 6 = false ∧ (c.arg 0).testBit 7 = false ∧ 63 ≠ (sCmd c (up 1 sRun)).ownX ∧
    (sCmd c (up 1 sRun)).flag F.PCI_STATUS_BME = true ∧ (cmd 0x1B [0]).arg 0 = part.ownY * 256 + part.ownX ∧ (withForward false).host.forwards = [forward false] ∧
    (forward false).cmd.origin = .host ∧ (cmd 0x1A [0, 0]).arg 1 = 0 ∧ 64 < (cmd 0x1A [1, 64]).arg 0 + (cmd 0x1A [1, 64]).arg 1 ∧
    (cmd 0x1A [63, 1, 0, 0] 1).arg 0 + (cmd 0x1A [63, 1, 0, 0] 1).arg 1 ≤ 64 ∧ (sCmd (cmd 0x1A [63, 1, 0, 0] 1) sRun).admits (cmd 0x1A [63, 1, 0, 0] 1) 1 ∧
    routesBad ((sCmd (cmd 0x1A [63, 1, 0, 0] 1) sRun).hostBytes 0 8) 1 = false ∧ Requester.unit 3 ≠ .host ∧ Requester.unit 3 ≠ .rulebook := by
  refine ⟨fronts_sCmd _ _ _ ⟨rfl, rfl⟩, ?_⟩
  and_intros <;> first | exact admits_of _ _ _ (by decide +kernel) | decide +kernel

/-! ### Domains and rounds -/

/-- Domain `n` in force. -/
def withDom (n : Nat) (d : Dom) (s : State := part) : State := s.setDom n d
theorem wit_Triggers : ((withDom 3 { on := true, set := { src := 9 } }).dom 3).on = true ∧ ((withDom 3 { on := true, set := { src := 9 } }).dom 3).set.src = 9 ∧
    ((withDom 3 { on := true, set := { src := 7, edge := true } }).dom 3).set.src = 5 + 2 ∧ (2 : Nat) ≤ 5 ∧ (5 : Nat) < 6 ∧
    ((part.setF (F.TB_Dn_PSMON_EN 3) 1).setF (F.TB_Dn_PSMON_PIN 3) 3).getF (F.TB_Dn_PSMON_PIN 3) = 5 - 2 := by decide +kernel
theorem wit_FrameStarts :
    ((withDom 3 { on := true }).dom 3).on = true ∧ ((withDom 3 { on := true }).dom 3).decided = none ∧ ((withDom 3 { on := true }).dom 3).set.src = 0 ∧
    ((withDom 3 { on := true, set := { src := 9 }, cand := 400000, trigs := [10, 20] }).dom 3).set.src = 9 ∧
    earliest ((withDom 3 { on := true, set := { src := 9 }, cand := 400000, trigs := [10, 20] }).decisionTick 3) [10, 20] = some 10 ∧
    earliest ((withDom 3 { on := true, set := { src := 9 }, cand := 5 }).decisionTick 3) [] = none ∧
    ([⟨3, 400000, true, false, false⟩] : List Announce).find? (fun a => a.start == 400000) = some ⟨3, 400000, true, false, false⟩ := by decide +kernel
theorem wit_Turns : (part.dom 3).on = false ∧ ((withDom 3 { on := true, next := 5, cand := 8005 }).dom 3).run = false ∧
    ((withDom 3 { on := true, next := 5, cand := 8005 }).dom 3).next < ((withDom 3 { on := true, next := 5, cand := 8005 }).dom 3).cand ∧
    ((withDom 3 { on := true, run := true, fresh := true }).dom 3).fresh = true ∧ part.leadDom = 0 ∧ part.getF F.PWR_STATE_STATE ≠ 2 := by decide +kernel
theorem wit_RoundStarts : ((withDom 3 { on := true, next := 9, decided := some ⟨9, true, none⟩ }).dom 3).decided = some ⟨9, true, none⟩ ∧
    (part.getF F.TB_CTRL_DOM_EN).testBit 3 = false ∧ ((part.setF F.TB_CTRL_DOM_EN 8).getF F.TB_CTRL_DOM_EN).testBit 3 = true ∧
    ((withDom 3 { on := true, next := 9, decided := some ⟨9, true, none⟩ }).dom 3).set.src ≠ 8 ∧ 3 ≠ (part.setF F.TB_CTRL_DOM_EN 8).leadDom ∧
    (part.setF F.TB_CTRL_DOM_EN 8).host.due = [] ∧ (part.setF F.TB_CTRL_DOM_EN 8).raster.staged = [] ∧ (part.setF F.TB_CTRL_DOM_EN 8).raster.flips = [] := by decide +kernel
/-- An output stream of domain 0 with a DRAM layer 7 whose line 2 is to be fetched, with the time `now`. -/
def fetching (now : Nat) : State :=
  let s := ((((sRun.setF (F.STR_n_CFG_EN 63) 1).setF (F.STR_n_Ll_CFG_EN 63 7) 1).setF (F.STR_n_Ll_SIZE_H 63 7) 4).setF (F.STR_n_Ll_SIZE_W 63 7) 4)
  let s := ((s.setF (F.STR_n_SIZE_W 63) 4).setF (F.STR_n_SIZE_H 63) 4)
  { (s.setStrm 63 { fetchAt := [(7, (10, 2))] }) with now := now }
theorem wit_FlipsAndFetches : (sRun.dom 0).run = true ∧ (sRun.dom 0).flipsDecided = false ∧ (fetching 0).isOutput 63 = true ∧
    ((fetching 0).dom ((fetching 0).strDom 63)).run = true ∧ (fetching 0).isShed 63 = false ∧ (fetching 0).pstate ≠ 2 ∧
    ((fetching 0).strm 63).fetchAt.any (fun c => c.1 == 7) = true ∧ SMap.get (fun _ => (0, 0)) ((fetching 0).strm 63).fetchAt 7 = (10, 2) ∧
    2 < (fetching 0).fetchLines 63 7 ∧ (fetching 0).layerSrc 63 7 ≠ 1 ∧ (fetching 0).fetches 63 7 = true ∧ (fetching 0).bufferedLines 63 7 < 19 ∧
    (fetching 1000000).stripesWait ((fetching 1000000).lineSpan 63 7 2 none).1 ((fetching 1000000).lineSpan 63 7 2 none).2 = false ∧
    (fetching 1000000).fetchTick 63 7 2 ((fetching 1000000).dom 0).bmin0 ≤ 1000000 := by decide +kernel
/-- The marks of a lead domain, with one module in service. -/
def marked (tt : TensorTime) : State := { (part.setF F.DL_STATUS_DL0_UP 1) with tt := tt }
def mark1 : Mark := ⟨10, 1, false, 9000⟩
theorem wit_TensorTimebase : (marked { marks := [mark1] }).tt.marks = [mark1] ∧ part.adapt.pend = none ∧ (marked { marks := [mark1] }).moduleUp 0 = true ∧ 0 ∉ ([1] : List Nat) ∧
    (marked { marks := [mark1], running := true, round := 9 }).markMatches mark1 = false ∧
    ¬(((marked { marks := [mark1] }).moduleUp 0 = true ∧ 0 ∉ [0]) ∨ ((marked { marks := [mark1] }).moduleUp 1 = true ∧ 1 ∉ [0])) ∧
    (marked { marks := [mark1] }).tt.last = none ∧ (marked { marks := [mark1], last := some mark1 }).tt.last = some mark1 ∧
    (after (exec (.markAction ⟨[], []⟩) { marked { marks := [mark1] } with tcc := (sTask 5).tcc })).taskState 16383 = 5 ∧
    findReq 16383 (after (exec (.markAction ⟨[], []⟩) { marked { marks := [mark1] } with tcc := (sTask 5).tcc })).tcc.cancelReq = none ∧
    (after (exec (.markAction ⟨[], []⟩) { marked { marks := [mark1] } with tcc := (sTask 4).tcc })).taskState 16383 = 4 ∧
    (after (exec (.markAction ⟨[], []⟩) (marked { marks := [mark1] }))).scorepad.waiting.length < 64 := by decide +kernel

/-! ### Capture and ports -/

/-- Stream 5 captures 2 by 2 pixels from sub-stream 0 of receive port 1. -/
def receiving : State :=
  let s := ((part.setF (F.DPI_p_CFG_EN 1) 1).setF (F.DPI_p_STATUS_TRAINED 1) 1).setF (F.STR_n_CFG_EN 5) 1
  let s := ((s.setF (F.STR_n_CFG_KIND 5) 1).setF (F.STR_n_FRM_CFG_SRC 5) 1).setF (F.STR_n_SIZE_W 5) 2
  (s.setF (F.STR_n_SIZE_H 5) 2).setF (F.STR_n_FRM_CFG_NBUF 5) 3
/-- Its frame 7 in buffer 0, line 0 of which has arrived; line `l` waits for its write, after `done` lines. -/
def writing (l : Nat) (done : List Nat) : State :=
  let f : CapFrame := { id := 7, buf := 0, start := 0, received := 1, lines := done }
  { (receiving.setStrm 5 { frames := [f], writes := [⟨7, l, [1#8, 2#8]⟩] }) with mc := { installed := 2 ^ 30 } }
theorem wit_CapturedLines : part.flag (F.DPI_p_CFG_EN 1) = false ∧ receiving.flag (F.DPI_p_CFG_EN 1) = true ∧ receiving.flag (F.DPI_p_STATUS_TRAINED 1) = true ∧
    receiving.captureOf 1 0 = [5] ∧ 3 * receiving.strW 5 ≤ 6 ∧ 1 < receiving.strH 5 ∧ (receiving.nextBuffer 5).isSome = true ∧
    ((writing 1 []).strm 5).openFrame = some { id := 7, buf := 0, start := 0, received := 1 } := by decide +kernel
theorem wit_CaptureWrites : ((writing 1 [0]).strm 5).writes = [⟨7, 1, [1#8, 2#8]⟩] ∧
    ((writing 1 [0]).strm 5).frame? 7 = some { id := 7, buf := 0, start := 0, received := 1, lines := [0] } ∧
    (writing 1 [0]).stripesWait ((writing 1 [0]).frameLine 5 0 1) 2 = false ∧
    ((writing 1 [0]).setF (F.MC_CHc_STAT_STATE 0) 2).stripesWait ((writing 1 [0]).frameLine 5 0 1) 2 = true ∧
    (writing 1 [0]).stripesLost ((writing 1 [0]).frameLine 5 0 1) 2 = false ∧ [0].length + 1 = (writing 1 [0]).strH 5 ∧ ([] : List Nat).length + 1 ≠ (writing 0 []).strH 5 ∧
    popNotice ([⟨.notice 5 7, 1, false, 3, none⟩] : List DlMsg) = some ((5, 7, 3), []) := by decide +kernel
/-- Stream 63 is an output stream whose cube of 17 entries a side begins at entry 0. -/
def coloured : State := ((part.setF (F.STR_n_CFG_EN 63) 1).setF (F.FIN_n_CFG_CV_EN 63) 1).setF (F.FIN_n_CV_SIZE 63) 1
theorem wit_ColourScrub : (part.setF F.FIN_SCRUB_EN 1).flag F.FIN_SCRUB_EN = true ∧ part.raster.cvScrub < 531441 ∧ cvOk (part.cvEntry 531440) = true ∧
    cvOk (({ part with raster := { cv := [(0, 2 ^ 63)] } } : State).cvEntry 0) = false ∧ part.cubeOwner 0 = none ∧
    (coloured.cubeOwner 0).isSome = true ∧ coloured.flag F.FIN_CV_ERR_VALID = false := by decide +kernel
theorem wit_DisplayPorts : (part.setF (F.DPO_p_CFG_EN 3) 1).flag (F.DPO_p_CFG_EN 3) = true ∧ part.flag (F.DPO_p_CFG_EN 3) = false ∧
    ((part.setF (F.DPO_p_CFG_EN 3) 1).setF (F.DPO_p_STATUS_HPD 3) 1).flag (F.DPO_p_STATUS_HPD 3) = true ∧
    2 ≤ ((part.setF (F.DPO_p_CFG_RATE 3) 2).getF (F.DPO_p_CFG_RATE 3)) ∧ (part.setF (F.DPO_p_STATUS_TRAINED 3) 1).flag (F.DPO_p_STATUS_TRAINED 3) = true ∧
    0 < (part.setF (F.DPI_p_STATUS_SUBS 1) 1).getF (F.DPI_p_STATUS_SUBS 1) ∧
    4 ≤ ((part.setF (F.DPI_p_CFG_EN 1) 1).setF (F.DPI_p_CFG_LANES 1) 4).getF (F.DPI_p_CFG_LANES 1) := by decide +kernel

/-! ### Bundles, streams and the command page -/

theorem wit_BundleLoad :
    (loaded part).seq.bundle.isSome = true ∧ bitsOf ((cmd 0x03 [0, 0, 428, 0]).arg 3) 31 2 = 0 ∧ part.flag F.PCI_STATUS_BME = false ∧ sRun.flag F.PCI_STATUS_BME = true ∧
    passes ((sCmd (cmd 0x03 [0, 0, 428, 0]) sRun).checkImage (cmd 0x03 [0, 0, 428, 0]) [1#8]) = false := by decide +kernel
theorem wit_BundlePasses : passes ((sCmd (cmd 0x03 [0, 0, 428, 0]) (timed sRun)).checkImage (cmd 0x03 [0, 0, 428, 0]) image0) = true := by decide +kernel
/-- A SET_STREAM whose block changes nothing, and one whose block sets a reserved bit. -/
def setCmd (flags : Nat) : HostCmd := cmd 0x07 [0, 0, 2048] flags
theorem wit_StreamSettings : (sCmd (setCmd 1) sRun).fronts (setCmd 1) 0x07 ∧ (cmd 0x07 [0, 0, 2047]).arg 2 ≠ 2048 ∧
    (let s := (sCmd (setCmd 1) sRun).setTaken []
     let t := s.putWaiting (s.dueRound (setCmd 1) 2)
     t.streamCode t ((sCmd (setCmd 1) sRun).hostBytes 0 2048) = 0) ∧
    (sCmd (setCmd 1) sRun).admits (setCmd 1) 2 ∧
    (let s : State := { sRun with hostMem := putBytes [] 0 [0x40#8] }
     let t := (s.setTaken []).putWaiting 0
     t.streamCode t (s.hostBytes 0 2048) ≠ 0) ∧
    (part.setF F.PCI_STATUS_BME 1).streamCode (part.setF F.PCI_STATUS_BME 1).withStaged (part.hostBytes 0 2048) = 0 ∧ (part.dom part.leadDom).on = false ∧ (setCmd 0).flags.testBit 0 = false := by
  and_intros <;> first | exact fronts_sCmd _ _ _ ⟨rfl, rfl⟩ | exact admits_of _ _ _ (by decide +kernel) | decide +kernel
/-- A set of one entry that disables layer 7 of stream 63, with its deadline. -/
def flipCmd (deadline : Nat) : HostCmd := cmd 0x08 [0, 0, 63, 2 ^ 32 - 1, deadline, 0]
def flipBlock : List Byte := 1#8 :: List.replicate 31 0#8 ++ leBytes 4 (63 + 7 * 256 + 2 ^ 19) ++ List.replicate 28 0#8
def sFlip (deadline : Nat) : State :=
  sCmd (flipCmd deadline) { (sRun.setF (F.STR_n_CFG_EN 63) 1) with hostMem := putBytes [] 0 flipBlock }
theorem wit_FlipSets : (sFlip 20).fronts (flipCmd 20) 0x08 ∧ (flipCmd 20).arg 2 < 64 ∧ argAddr (flipCmd 20) 4 < 2 ^ 48 ∧ (sFlip 20).flag F.PCI_STATUS_BME = true ∧
    fieldAt ((sFlip 20).hostBytes 0 32) 0 1 = 1 ∧ flipEntries ((sFlip 20).hostBytes 0 64) = some [⟨63, 7, none, none, none, some false, none⟩] ∧
    ((sFlip 20).putFlips [⟨63, 7, none, none, none, some false, none⟩]).flipBad ⟨63, 7, none, none, none, some false, none⟩ = false ∧
    (sFlip 20).flipTooLate 0 20 = false ∧ (sFlip 10).flipTooLate 0 10 = true ∧ (sFlip 20).raster.flips.length < 32 ∧
    32 ≤ (List.replicate 32 (⟨flipCmd 20, 0, 63, 1, 20, [], none, false⟩ : FlipSet)).length := by
  and_intros <;> first | exact fronts_sCmd _ _ _ ⟨rfl, rfl⟩ | decide +kernel
/-- The page is in use, slot SEQ `q` mod 256 holds a command of opcode `op`. -/
def paged (q op : Nat) : State :=
  let s := (part.setF F.CMD_CTRL_EN 1).setReg R.CMD_NEXT (BitVec.ofNat 32 q)
  { s with host := { s.host with page := putBytes [] (q % 256 * 64) (leBytes 4 q ++ [BitVec.ofNat 8 op]) } }
def arrived : HostCmd := { cmd 0x02 [0, 0] with origin := .fabric 1 0 7 }
theorem wit_PollPoints : part.flag F.CMD_CTRL_EN = false ∧ (paged 1 2).flag F.CMD_CTRL_EN = true ∧ ((paged 1 2).reg R.CMD_NEXT).toNat = 1 ∧
    (slotCmd ((paged 1 2).pageBytes 1) .host).seq = 1 ∧ (slotCmd ((paged 1 2).pageBytes 2) .host).seq ≠ 2 ∧
    (slotCmd ((paged 1 2).pageBytes 1) .host).malformed = false ∧ (paged 1 2).gated (slotCmd ((paged 1 2).pageBytes 1) .host) = false ∧
    (slotCmd ((paged 1 0).pageBytes 1) .host).malformed = true ∧ (slotCmd ((paged 0xFFFFFF00 2).pageBytes 0) .host).seq = 0xFFFFFF00 ∧
    (slotCmd ((paged 0xFFFFFF00 2).pageBytes (nextSeq 0xFFFFFF00 % 256)) .host).seq ≠ nextSeq 0xFFFFFF00 ∧ arrived.malformed = false ∧
    (part.setF F.CMD_CTRL_EN 1).gated arrived = false ∧ (slotCmd ((part.setF F.CMD_CTRL_EN 1).pageBytes 1) .host).seq ≠ 1 ∧
    (part.reg R.CMD_NEXT).toNat = 1 := by decide +kernel
/-- A completion record waits. -/
def cpl (o : Origin := .host) : Cpl := ⟨5, 2, 0, 1, 9, 0, 10, 0, none, o⟩
def completing (s : State) (o : Origin := .host) : State := { s.setReg R.CMD_CPL_LO (s.reg R.CMD_CPL_LO ||| 4096#32) with host := { s.host with cpl := [cpl o] } }
theorem wit_CompletionRecords : (cpl).flags.testBit 1 = false ∧ ((completing sRun).host.cplNext - 1 + 2 ^ 32 - ((completing sRun).reg R.CMD_CPL_ACK).toNat) % 2 ^ 32 < 256 ∧
    (completing sRun).flag F.PCI_STATUS_D3 = false ∧ (completing sRun).flag F.CMD_CPL_LO_EN = false ∧
    (completing (sRun.setF F.CMD_CPL_LO_EN 1)).flag F.CMD_CPL_LO_EN = true ∧ (completing (sRun.setF F.CMD_CPL_LO_EN 1)).flag F.PCI_STATUS_BME = true ∧
    (completing (part.setF F.CMD_CPL_LO_EN 1)).flag F.PCI_STATUS_BME = false ∧ (completing sRun).cntAddr + 8 ≤ (completing sRun).cplAddr ∧
    (completing (sRun.setF F.PCI_STATUS_D3 1)).flag F.PCI_STATUS_D3 = true ∧ 256 ≤ (257 - 1 + 2 ^ 32 - ((completing sRun).reg R.CMD_CPL_ACK).toNat) % 2 ^ 32 ∧
    (completing (up 1 sRun) (.fabric 1 0 7)).portOpen ((completing (up 1 sRun) (.fabric 1 0 7)).routePort 1 0) = true := by decide +kernel

/-! ### Power, resets and boot -/

/-- A transition of power in progress, for a command. -/
def moving (st : PowerStep) (s : State := part) (ok : Bool := true) : State :=
  { s with power := { s.power with step := st, cmd := some (cmd 0x10 [2]), tpwrEn := true, tpwrOk := ok, modules := 3 } }
theorem wit_PowerTransitions : (moving .draining).power.cmd = some (cmd 0x10 [2]) ∧ (cmd 0x10 [2]).origin = .host ∧ (moving .draining).drained = true ∧
    (moving .draining).getF F.PWR_STATE_TARGET ≠ 2 ∧ (moving .draining (part.setF F.PWR_STATE_TARGET 2)).getF F.PWR_STATE_TARGET = 2 ∧
    (moving .draining (part.setMover 15 { busy := [copy] })).drained = false ∧ (moving .entering).power.step = .entering ∧ (moving .waking).power.tpwrOk = true ∧
    clearMask (moving .waking).power.modules 3 % 4 = 0 ∧ clearMask (moving .waking).power.modules 1 % 4 ≠ 0 ∧
    ((moving .waking sRun).dom (moving .waking sRun).leadDom).on = true ∧ ((moving .waking).dom (moving .waking).leadDom).on = false ∧
    (moving .waking).power.thenRun = false ∧ (moving .waking).seq.bundle = none ∧ (moving .waking).getF F.PWR_BOOT_STEP ≠ 4 ∧
    (moving .waking part false).power.tpwrOk = false := by decide +kernel
theorem wit_ThermalAndRails : part.temp < Int.ofNat part.warnLevel ∧ Int.ofNat part.warnLevel ≤ 127 ∧ part.pstate = 0 ∧ (sRun.dom sRun.leadDom).on = true ∧
    (part.dom part.leadDom).on = false ∧ held.pstate ≠ 0 ∧ held.power.step ≠ .restarting ∧ (moving .idle).power.tpwrEn = true ∧ part.power.tpwrEn = false ∧
    (moving .idle part false).power.tpwrOk = false ∧ (moving .idle).power.tpwrOk = true := by decide +kernel
theorem wit_Resets : ({ part with power := { tripped := true } } : State).power.tripped = true ∧ (part.setF F.PWR_CAUSE_LAST 5).getF F.PWR_CAUSE_LAST = 5 ∧
    part.power.tripped = false ∧ bitsOf (0xC0DE0001#32).toNat 31 16 = 0xC0DE ∧ (0xC0DE0003#32).toNat.testBit 0 = true ∧
    (0xC0DE0002#32).toNat.testBit 0 = false ∧ (0xC0DE0002#32).toNat.testBit 1 = true ∧ bitsOf (0xC0DD0001#32).toNat 31 16 ≠ 0xC0DE ∧
    part.scorepad.waiting.length < 64 := by decide +kernel
/-- Boot is at a step. -/
def booting (n : Nat) (s : State := part) : State := s.setF F.PWR_BOOT_STEP n
/-- Boot over the fabric, and from a slot of the image. -/
def fabBoot : State := booting 7 ((up 1).setF F.PWR_CAUSE_BOOTSEL 2)
def slotted (c : HostCmd) (fail : Bool := false) : State := let s := booting 9; { s with power := { s.power with bootSlots := [c], bootFail := fail } }
theorem wit_BootSteps : (booting 1).power.tripped = false ∧ (booting 1).flag F.PWR_BOOT_DONE = false ∧ (booting 8).getF F.PWR_BOOT_STEP = 8 ∧
    (booting 2).flag F.PWR_CAUSE_TESTMODE = false ∧ (booting 2).lcOfOtp ≠ 3 ∧ found.rngOk = true ∧
    ({ booting 2 (part.setF F.PWR_CAUSE_TESTMODE 1) with sec := { otp := [(0x300, 0x1F#8)] } } : State).lcOfOtp = 1 ∧ found.pcieWidth < 16 ∧ found.pcieGen < 16 ∧
    (booting 4).getF F.PWR_BOOT_ERR ≠ 1 ∧ (booting 4 (moving .idle)).power.tpwrOk = true ∧ found.modules % 4 ≠ 0 ∧ { found with modules := 0 }.modules % 4 = 0 ∧
    (partFound found).channels = 65535 ∧ (partFound found).channels ≠ 0 ∧ (partFound { found with variantC := true }).quarters = 7 ∧ found.rate ≠ 0 ∧ found.channels.testBit 15 = true ∧ fabBoot.fabricBoots = true ∧
    (slotted (cmd 0x09 [0, 0, 1, 4096])).power.bootFail = false ∧ ({ cmd 0x09 [0, 0, 1, 4096] with origin := .boot } : HostCmd).malformed = false ∧
    (slotted (cmd 0x09 [])).gated { cmd 0x09 [0, 0, 1, 4096] with origin := .boot } = false ∧ (slotted (cmd 9 []) true).power.bootFail = true ∧
    (booting 9).power.bootSlots = [] ∧ (booting 9).host.taken = [] := by decide +kernel
/-- A boot image of 64 bytes with no slots, unsigned. -/
def bootHeader : List Byte := pay (leBytes 4 0x4942474E ++ leBytes 2 1 ++ [0#8, 0#8] ++ leBytes 8 64)
def serving : State := ((up 1 (part.setF F.FAB_CTRL_BOOT_SERVE 1)).setF F.PWR_BOOT_DONE 1).setF F.PWR_BOOT_SRC 2
def fabBoot1 : State := { fabBoot with mc := { installed := 2 ^ 30 } }
theorem wit_BootImages : (booting 4 (moving .idle part false)).power.tpwrOk = false ∧ (booting 4).getF F.PWR_BOOT_ERR = 0 ∧
    (up 1).accepts (flit 1 2) 2 (recv (up 1) (flit 1 2)) ∧ (recv (up 1) (flit 1 2)).flag F.FAB_CTRL_BOOT_SERVE = false ∧
    serving.accepts (flit 1 2) 2 (recv serving (flit 1 2)) ∧ (recv serving (flit 1 2)).flag F.FAB_CTRL_BOOT_SERVE = true ∧
    (recv serving (flit 1 2)).flag F.PWR_BOOT_DONE = true ∧ (recv serving (flit 1 2)).getF F.PWR_BOOT_SRC = 2 ∧
    (up 1).accepts (flit 1 4) 4 (recv (up 1) (flit 1 4)) ∧ (recv (up 1) (flit 1 4)).fabricBoots = false ∧
    fabBoot1.accepts (flit 1 4 0 bootHeader) 4 (recv fabBoot1 (flit 1 4 0 bootHeader)) ∧ (recv fabBoot1 (flit 1 4 0 bootHeader)).fabricBoots = true ∧
    (recv fabBoot1 (flit 1 4)).power.bootBytes = [] ∧ bootHeader.length = 64 ∧ (2 ^ 22 - 1) % 2 ^ 22 ≠ 0 ∧ fieldAt bootHeader 8 8 = 64 ∧
    (recv fabBoot1 (flit 1 4)).bootCheck bootHeader = 0 ∧ (recv fabBoot1 (flit 1 4)).power.bootFailed = [] ∧ (recv fabBoot1 (flit 1 4)).power.bootPorts = [] := by
  and_intros <;> first | exact accepts_of _ _ _ (by decide +kernel) | decide +kernel

/-! ### The host link and registers -/

/-- MSI-X on, vector 31 not masked and pending. -/
def messages (s : State) : State :=
  { s with host := { s.host with msixEn := true, msixPend := [31], msixTable := [(124, 64#32), (126, 7#32), (127, 0#32)] } }
theorem wit_HostLink : part.power.tripped = false ∧ part.host.msixPend = [] ∧ (messages sRun).host.msixEn = true ∧ (messages sRun).host.msixMask = false ∧
    (messages sRun).host.msixPend = [31] ∧ (messages sRun).msixWord 31 3 % 2 = 0 ∧ (messages sRun).flag F.PCI_STATUS_BME = true ∧
    (messages part).flag F.PCI_STATUS_D3 = false ∧ (part.setF F.PCI_STATUS_D3 1).flag F.PCI_STATUS_D3 = true ∧
    exporting.flag F.PCI_STATUS_D3 = false ∧ exporting.getF F.PCI_BAR2_WIN_BASE * 2 ^ 30 + (2 ^ 30 - 1) + 1 ≤ exporting.dramEnd ∧
    (2 ^ 30 - 1) + 1 ≤ 2 ^ (30 + exporting.host.bar2) ∧ exporting.confMeets (2 ^ 30 - 1) 1 = false ∧ exporting.moduleUp 0 = true ∧
    exporting.stripesLost (2 ^ 30 - 1) 1 = false ∧ exporting.stripesWait (2 ^ 30 - 1) 1 = false ∧
    (exporting.setF (F.MC_CHc_STAT_STATE 0) 2).stripesWait (2 ^ 30 - 1) 1 = true ∧ 2 ^ (30 + exporting.host.bar2) < 2 ^ 30 + 1 ∧
    ({ exporting with sec := { conf := [(0, 64)] } } : State).confMeets 63 1 = true := by decide +kernel
theorem wit_PlainRegisters : part.flag F.PCI_STATUS_D3 = false ∧
    barReg (R.GRID_FAULT + 0x1000000) = some R.GRID_FAULT ∧ isMsixTable (R.GRID_FAULT + 0x1000000) = false ∧ R.GRID_FAULT + 0x1000000 < 0x2000000 ∧
    (R.GRID_FAULT + 0x1000000) % 4 = 0 ∧ (regRow? R.GRID_FAULT).isSome = true ∧ part.pstate ≠ 2 ∧ pictureReg R.GRID_FAULT = false ∧ ruleReg R.GRID_FAULT = false ∧
    (part.ownWrite R.GRID_FAULT (2 ^ 31) .host).isNone = true ∧ R.GRID_FAULT ≠ R.MC_RSV ∧ R.GRID_FAULT ≠ R.DBG_MEM_DATA_HI ∧ R.GRID_FAULT < 0x120000 ∧ windowOf R.GRID_FAULT = none ∧
    part.regAnswers R.GRID_FAULT = true ∧ part.latchGroup R.GRID_FAULT = part ∧ isPba (R.GRID_FAULT + 0x1000000) = false ∧ R.GRID_FAULT ≠ R.DBG_MEM_DATA_LO ∧
    barReg 0x1FFFFFC = some 0xFFFFFC ∧ (regRow? 0xFFFFFC).isNone = true ∧ 0x1FFFFFD % 4 ≠ 0 ∧ 0x3FC0 % 4 = 0 ∧ 0x3FC0 + (List.replicate 64 7#8).length ≤ 0x4000 ∧
    barReg (R.STR_n_CFG 63 - 0x1000000) = some (R.STR_n_CFG 63) ∧ pictureReg (R.STR_n_CFG 63) = true ∧ (regRow? (R.STR_n_CFG 63)).isSome = true ∧ Requester.unit 3 ≠ .host := by decide +kernel
/-- Domain `n` has a turn of 8000 ticks and an announce distance of 50 turns; the lead domain is 0. -/
def settable (n : Nat) (s : State := part) : State :=
  (((s.setF (F.TB_Dn_TURN_LEN n) 8000).setF (F.TB_Dn_CFG_ANNOUNCE n) 50).setF (F.TB_Dn_VTOT_VT_MIN n) 100).setF (F.TB_Dn_VTOT_VT_MAX n) 200
theorem wit_DomainWrites :
    (settable 3).getF F.TB_CTRL_DOM_EN = 0 ∧ ((settable 3).dom 3).on = false ∧ (0x80#32).toNat % 4 = (settable 3).leadDom ∧ bitsOf (0x80#32).toNat 7 4 = 2 ^ 3 ∧
    (settable 3).domOk 3 = true ∧ (settable 3).getF (F.TB_Dn_CFG_TRIG_SRC 3) ≠ 8 ∧
    ((settable 3).setF F.TB_CTRL_DOM_EN 8).getF F.TB_CTRL_DOM_EN = 2 ^ 3 ∧ bitsOf (0#32).toNat 7 4 = 0 ∧
    ((withDom 3 { on := true, run := true }).dom 3).run = true ∧ (2#32).toNat % 4 ≠ part.leadDom ∧ part.seq.started = false ∧ (started part).seq.started = true ∧
    part.turnLen ((2#32).toNat % 4) ≤ 109225 ∧ ((withDom 3 { on := true }).dom 3).on = true ∧ 9 < (15#32).toNat % 16 ∧
    bitsOf (0x00630063#32).toNat 13 0 ≤ bitsOf (0x00630063#32).toNat 29 16 ∧ bitsOf (0x00620063#32).toNat 29 16 < bitsOf (0x00620063#32).toNat 13 0 ∧
    (part.dom 3).shown < 2 ^ 48 := by decide +kernel
theorem wit_LatchingReads : part.regAnswers R.TB_NOW_LO = true ∧ part.regAnswers (R.TB_Dn_ROUND_LO 3) = true ∧ part.regAnswers R.TT_ROUND_LO = true ∧
    part.regAnswers R.GRID_OCC_LO = true ∧ part.regAnswers (R.VC_n_IDATA_LO 15) = true ∧ part.regAnswers (R.CRC_e_VAL_LO 7) = true := by decide +kernel
/-- A debug session of level 2 with every permission over all of memory. -/
def debugging (s : State) : State := { s with sec := { s.sec with debug := some ⟨2, true, 0xFF, 0, 0, 2 ^ 48, none⟩ } }
theorem wit_DiagnosticWrites : part.seq.started = false ∧ part.gridIdle = true ∧ (1#32).toNat.testBit 0 = true ∧ (started part).seq.started = true ∧ part.lc ≠ 2 ∧
    (part.setF F.SEC_STATUS_LC 2).lc = 2 ∧ (part.setF F.SEC_STATUS_LC 2).debugPerm 5 = false ∧ (debugging (part.setF F.SEC_STATUS_LC 2)).debugPerm 5 = true ∧
    part.accPresent 0 0 = false ∧ ((part.setF F.ACC_ROWS_ROWS 1024).setF F.HUB_CAP0_Q_MASK 8).accPresent 1023 511 = true ∧ part.sec.conf = [] ∧
    part.passHolds (1023 * 512 + 511) = false ∧ (part.readAcc (1023 * 512 + 511)).2.isSome = true ∧ accForm 12 4 = true ∧ (12 : Nat) % 4 = 0 ∧
    ((sGrid drainDesc).setGridUnit 4 { passes := [pass] }).passHolds 0 = true ∧
    ((part.putAcc 5 (part.accWord 5 ^^^ 3#128)).readAcc 5).2 = none ∧ (List.replicate 16 7#8).length = 16 ∧
    part.mayWriteCode .rulebook = true ∧ part.codeFree 15 = true ∧ part.mayWriteCode .host = false ∧ (started part).codeFree 0 = false := by decide +kernel
theorem wit_DebugRegisters : (debugging part).regAnswers R.DBG_CTRL = true ∧ (debugging part).debugPerm 0 = true ∧ part.regAnswers R.DBG_CTRL = false ∧
    part.debugPerm 0 = false ∧ (debugging part).regAnswers R.DBG_MEM_DATA_LO = true ∧ (debugging part).debugPerm 2 = true ∧
    (debugging part).debugWaits = false ∧
    (debugging (((sGrid drainDesc).setGridUnit 4 { passes := [pass] }).setF F.DBG_MEM_ADDR_LO_ADDR (0x08000000 / 8) |>.setF F.DBG_MEM_ADDR_HI_ADDR 0x10)).debugWaits = true ∧
    isCvAddr 0x1104000000 = true ∧ isRegAddr 0x1104000000 = false ∧ isAccAddr 0x1104000000 = false ∧ isHostWindow 0x1104000000 = false ∧
    (debugging (sRun.setF F.DBG_MEM_ADDR_HI_ADDR 0x20)).debugRead.2 = some 0 ∧ (debugging (sRun.setF F.DBG_MEM_ADDR_HI_ADDR 0x20)).debugAddr + 8 < 2 ^ 48 ∧
    ({ part with sec := { debug := some ⟨2, true, 0, 0, 0, 2 ^ 48, none⟩ } } : State).regAnswers R.DBG_MEM_DATA_LO = true ∧
    ({ part with sec := { debug := some ⟨2, true, 0, 0, 0, 2 ^ 48, none⟩ } } : State).debugPerm 2 = false ∧
    ({ part with sec := { debug := some ⟨2, true, 0, 0, 0, 2 ^ 48, none⟩ } } : State).debugPerm 3 = false ∧ (debugging part).debugPerm 3 = true ∧
    (debugging (sRun.setF F.DBG_MEM_ADDR_HI_ADDR 0x20)).debugScope = true ∧ (debugging sRun).confMeets 0x2000000000 8 = false ∧ isHostWindow 0x2000000000 = true ∧
    (debugging sRun).flag F.PCI_STATUS_BME = true ∧ (debugging (sRun.setF F.DBG_MEM_ADDR_HI_ADDR 0x20)).debugAddr = 0x2000000000 ∧ 2 ≤ (debugging part).debugLevel := by
  decide +kernel
/-- The fuse supply is present. -/
def fused (lc : Nat) : State := (part.setF F.SEC_STATUS_LC lc).setF F.SEC_STATUS_FUSE_PWR 1
theorem wit_FusesAndSessions : part.otpOpen = true ∧ 2 ≤ (fused 3).lc ∧ (fused 3).scorepad.waiting.length < 64 ∧ (fused 1).lc < 2 ∧
    ((fused 1).setF F.SEC_OTP_CMD_BUSY 1).flag F.SEC_OTP_CMD_BUSY = true ∧ part.otpRefusal 0x6C 1 = 3 ∧ (fused 0).otpRefusal 0x6C 1 = 0 ∧ (fused 0).otpRefusal 0x70 1 = 1 ∧
    (part.setF F.SEC_STATUS_LC 1).lc ≠ 0 ∧ (fused 0).lc = 0 ∧ (fused 0).anyBlown 0x100 32 = false ∧ (fused 0).flag F.SEC_STATUS_FUSE_PWR = true ∧
    ((fused 0).setF F.SEC_STATUS_RNG_OK 1).flag F.SEC_STATUS_RNG_OK = true ∧ (fused 0).flag F.SEC_STATUS_RNG_OK = false ∧
    ({ part with sec := { otpCmd := some (2, 0x6C, 1) } } : State).sec.otpCmd = some (2, 0x6C, 1) ∧
    ({ part with sec := { otpCmd := some (3, 0x100, 0) } } : State).sec.otpCmd = some (3, 0x100, 0) ∧
    ({ part with sec := { debug := some ⟨2, true, 0, 0, 0, 0, some 9⟩ } } : State).sec.debug = some ⟨2, true, 0, 0, 0, 0, some 9⟩ := by decide +kernel
theorem wit_TurnLengthRange : (0x80#32).toNat % 4 = part.leadDom ∧ (0x80#32).toNat.testBit (4 + 3) = true ∧ (part.dom 3).on = false ∧
    (part.getF F.TB_CTRL_DOM_EN).testBit 3 = false ∧ (part.setF (F.TB_Dn_TURN_LEN 3) 833).turnLen 3 = 833 ∧ part.scorepad.waiting.length ≤ 60 := by decide +kernel

/-! ### The queue and the invariants -/

theorem wit_StepRunsQueue : ({ State.reset with pending := [.rngTestPass] } : State).pending = [.rngTestPass] ∧ State.reset.pending = [] := ⟨rfl, rfl⟩
/-- Every step from this state stays within the invariants: memory lists two bytes, fuses are blown. -/
def kept : State := { State.reset with mem := [(0, 7#8), (9, 1#8)], hostMem := [(4096, 255#8)], sec := { otp := [(0x300, 0x1F#8)] }, pending := [.rngTestPass] }
theorem wit_Invariants : (∃ t, step kept = .next t) ∧ Memory.wf kept.mem ∧ Memory.wf kept.hostMem ∧ (kept.otpByte 0x300).testBit 4 = true ∧
    (after (step kept)).pending = [] := ⟨⟨_, rfl⟩, by decide, by decide, by decide +kernel, rfl⟩

/-! ### Results by hand calculation and from the spec's examples -/

/-- A kernel with two source values in s1 and s2; an instruction on them writes s3. -/
def operands (a b : Word64) : State := (sLine.sset (line 0) 1 a).sset (line 0) 2 b
def result (f : Issue → YWord → Instr) (a b : Word64) (imm : BitVec 24 := 0#24) : Word64 :=
  (after (exec (f (line 0) (word 3 1 2 0 0 imm)) (operands a b))).sget (line 0) 3
def result1 (f : Issue → YWord → Instr) (a : Word64) (imm : BitVec 24 := 0#24) : Word64 :=
  (after (exec (f (line 0) (word 3 1 0 0 0 imm)) (operands a 0#64))).sget (line 0) 3

/-- R167: sums wrap, high products, division toward zero and by zero, shifts by the low six bits. -/
theorem test_add_wraps : result .add (-1) 2 = 1 := by decide +kernel
theorem test_sub_wraps : result .sub 0 1 = -1 := by decide +kernel
theorem test_mulh : result .mulh (-1) (-1) = 0 := by decide +kernel
theorem test_mulhu : result .mulhu (-1) (-1) = 0xFFFFFFFFFFFFFFFE := by decide +kernel
theorem test_div : result .divS (-7) 2 = -3 := by decide +kernel
theorem test_div_by_zero : result .divu 7 0 = -1 := by decide +kernel
theorem test_rem : result .remS (-7) 2 = -1 := by decide +kernel
theorem test_rem_by_zero : result .remu 7 0 = 7 := by decide +kernel
theorem test_sra : result .sra (-8) 65 = -4 := by decide +kernel
theorem test_srl : result .srl (-8) 65 = 0x7FFFFFFFFFFFFFFC := by decide +kernel
theorem test_slt : result .slt (-1) 1 = 1 := by decide +kernel
theorem test_sltu : result .sltu (-1) 1 = 0 := by decide +kernel
theorem test_clz : result1 .clz 1 = 63 := by decide +kernel
theorem test_popc : result1 .popc 0xF0F = 8 := by decide +kernel
theorem test_addi : result1 .addi 5 0xFFFFFF = 4 := by decide +kernel
theorem test_lim : result1 .lim 0x12 0x345678 = 0x12345678 := by decide +kernel
/-- R171: a byte load extends its sign, the unsigned one does not. -/
theorem test_loads :
    let s := sLineMem.putMem (sliceAddr 0 8) [0x80#8]
    (after (exec (.lb (line 0) (word 3 0 0 0 0 8)) s)).sget (line 0) 3 = -128 ∧
    (after (exec (.lbu (line 0) (word 3 0 0 0 0 8)) s)).sget (line 0) 3 = 128 := by decide +kernel
/-- R173: a branch that is taken goes to PC + imm, JAL writes PC + 1. -/
theorem test_branch : ((after (exec (.br (line 0) (word 0 1 2 0 0 0xFFFFFE)) (operands 7 7))).yctx 0 .line).pc = 3 := by decide +kernel
theorem test_jal : (after (exec (.jal (line 0) (word 3 0 0 0 0 4)) sLine)).sget (line 0) 3 = 6 := by decide +kernel
/-- R66 to R72: FP16 1.5 + 0.5, 1 / 3, the largest value doubled; FP32 overflow; E4M3 saturates at 448. -/
theorem test_fp16 : fAdd fmtFP16 0x3E00 0x3800 = 0x4000 ∧ fDiv fmtFP16 0x3C00 0x4200 = 0x3555 ∧ fMul fmtFP16 0x7BFF 0x4000 = 0x7C00 := by decide +kernel
theorem test_convert : convertElem .fp32 .e4m3 0x44FA0000 = 0x7E ∧ convertElem .fp32 .int8 0xC0200000 = 0xFD := by decide +kernel
/-- The spec's example of one token: scale 7/256, zero point -55, and its codes. -/
theorem test_token : [⟨3, 4⟩, ⟨-1, 2⟩, ⟨2, 1⟩, ⟨5, 4⟩, ⟨-1, 8⟩, ⟨0, 1⟩, ⟨7, 2⟩, ⟨1, 1⟩].map
      (fun x => signedOf 8 (quantElem .int8 ⟨7, 256⟩ (-55) x).1) = [-28, -73, 18, -9, -60, -55, 73, -18] := by decide +kernel
theorem test_token_entry : (tokenEntry .int8 ⟨1, 128⟩ (decodeFloat fmtFP16 0xB800) (decodeFloat fmtFP16 0x4300)).zp = -55 := by decide +kernel
/-- R453: the check value of "123456789" for each polynomial. -/
def digits : List Byte := (List.range 9).map (fun i => BitVec.ofNat 8 (0x31 + i))
theorem test_crc32c : polyRun 0 0 digits = 0xE3069283 ∧ polyRun 1 0 digits = 0xCBF43926 := by decide +kernel
theorem test_crc64 : polyRun 2 0 digits = 0x6C40DF5F0B497347 ∧ polyRun 3 0xFFFF digits = 0x29B1 := by decide +kernel
/-- R307 and the spec's example of one red component: 41,416.125 from the tetrahedron, gain 496, code 626. -/
theorem test_path : cvPath 64 192 32 ≠ cvPath 192 64 32 ∧ roundNat .rna (41416 * 496) 512 = 40122 ∧ narrowCode 10 40122 = 626 := by decide +kernel
/-- FIPS 180-4: SHA-256 of "abc". -/
theorem test_sha256 : (sha256 [0x61#8, 0x62#8, 0x63#8]).take 4 = [0xBA#8, 0x78#8, 0x16#8, 0xBF#8] := by decide +kernel
/-- R137: tallies add modulo 2^32; R35: TB_NOW counts ticks. -/
theorem test_idle : (after (step State.reset)).now = 1 := by decide +kernel
/-- HELLO at level 1.1 agrees a level and completes with OK; CAPS without bus mastering completes with IO_ERROR. -/
theorem test_hello : ((after (exec .hello (sCmd (cmd 0x01 [257])))).host.cpl.map (fun c => c.code)) = [ccOk] := by decide +kernel
theorem test_caps : ((after (exec (.caps false) (sCmd (cmd 0x02 [0, 1])))).host.cpl.map (fun c => c.code)) = [ccIo] := by decide +kernel

end Sys2Proof.Tests
end

/-! PROOFS. Bits of register fields: what `bitsOf` reads of a word, what `withBits` and `setBit` replace. -/

section

namespace Sys2Proof

theorem testBit_bitsOf (v hi lo i : Nat) :
    (bitsOf v hi lo).testBit i = (decide (i < hi + 1 - lo) && v.testBit (lo + i)) := by
  rw [bitsOf, Nat.testBit_mod_two_pow, Nat.testBit_shiftRight]

/-- The word with bits `hi : lo` replaced, cut into what stands above the field, the field and what stands below it. -/
theorem withBits_eq_parts (v hi lo x : Nat) :
    withBits v hi lo x =
      2 ^ lo * (2 ^ (hi + 1 - lo) * (v / 2 ^ lo / 2 ^ (hi + 1 - lo)) + x % 2 ^ (hi + 1 - lo)) + v % 2 ^ lo := by
  have hword := Nat.div_add_mod v (2 ^ lo)
  have hupper := congrArg (2 ^ lo * ·) (Nat.div_add_mod (v / 2 ^ lo) (2 ^ (hi + 1 - lo)))
  simp only [Nat.mul_add] at hupper
  simp only [withBits, bitsOf, Nat.shiftRight_eq_div_pow, Nat.shiftLeft_eq, Nat.mul_comm _ (2 ^ lo), Nat.mul_add]
  omega

theorem testBit_withBits (v hi lo x i : Nat) :
    (withBits v hi lo x).testBit i = if lo ≤ i ∧ i < lo + (hi + 1 - lo) then x.testBit (i - lo) else v.testBit i := by
  have hlow : v % 2 ^ lo < 2 ^ lo := Nat.mod_lt _ (by positivity)
  have hfield : x % 2 ^ (hi + 1 - lo) < 2 ^ (hi + 1 - lo) := Nat.mod_lt _ (by positivity)
  rw [withBits_eq_parts, Nat.testBit_two_pow_mul_add _ hlow, Nat.testBit_two_pow_mul_add _ hfield]
  by_cases hbelow : i < lo
  · simp [hbelow, Nat.testBit_mod_two_pow]
  · by_cases hin : i - lo < hi + 1 - lo
    · simp [hbelow, hin, Nat.testBit_mod_two_pow, show lo ≤ i ∧ i < lo + (hi + 1 - lo) by omega]
    · rw [if_neg hbelow, if_neg hin, if_neg (by omega), Nat.testBit_div_two_pow, Nat.testBit_div_two_pow]
      congr 1; omega

end Sys2Proof

namespace Sys2Proof.Machine

theorem setBit_eq_withBits (m k : Nat) (b : Bool) : setBit m k b = withBits m k k b.toNat := by
  have hold : bitsOf m k k = (m.testBit k).toNat := by
    simp [bitsOf, Nat.toNat_testBit, Nat.shiftRight_eq_div_pow]
  rw [setBit, clearMask, withBits, hold, Nat.and_two_pow, Nat.shiftLeft_eq, Nat.shiftLeft_eq]
  cases b <;> simp

theorem testBit_setBit_other {j k : Nat} (m : Nat) (b : Bool) (h : j ≠ k) : (setBit m k b).testBit j = m.testBit j := by
  rw [setBit_eq_withBits, testBit_withBits, if_neg (by omega)]

end Sys2Proof.Machine
end

/-! PROOFS. Reads of registers, fields and domains after the writes that a write of TB_CTRL is made of. -/

section

namespace Sys2Proof.Machine

theorem reg_setReg_same (s : State) (off : Nat) (v : Word32) : (s.setReg off v).reg off = v :=
  SMap.get_set_same ..

theorem reg_setReg_other {off o : Nat} (s : State) (v : Word32) (h : o ≠ off) : (s.setReg off v).reg o = s.reg o :=
  SMap.get_set_other _ _ _ _ _ h

theorem getF_setF_other {f g : Fld} (s : State) (v : Nat) (h : g.off ≠ f.off) : (s.setF f v).getF g = s.getF g := by
  rw [State.getF, State.setF, reg_setReg_other s _ h, State.getF]

/-- Bit `i` of a field after a write of the same field. -/
theorem testBit_getF_setF {f : Fld} (s : State) (v i : Nat) (hi : i < f.hi + 1 - f.lo) (hw : f.hi < 32) :
    ((s.setF f v).getF f).testBit i = v.testBit i := by
  have hword : f.lo + i < 32 := by omega
  rw [State.getF, State.setF, reg_setReg_same, testBit_bitsOf, BitVec.toNat_ofNat, Nat.testBit_mod_two_pow, testBit_withBits,
    if_pos (by omega)]
  simp [hi, hword]

theorem getF_congr {s t : State} (h : t.regs = s.regs) (f : Fld) : t.getF f = s.getF f := by
  rw [State.getF, State.getF, State.reg, State.reg, h]

theorem dom_setDom_other {n m : Nat} (s : State) (d : Dom) (h : n ≠ m) : (s.setDom m d).dom n = s.dom n :=
  SMap.get_set_other _ _ _ _ _ h

/-- An event is recorded while the recorder has room (R447). -/
theorem record_waiting (s : State) (g i d : Nat) (h : s.scorepad.waiting.length < 64) :
    s.record g i d = { s with scorepad := { s.scorepad with waiting := s.scorepad.waiting ++ [⟨g * 256 + i % 256, d⟩] } } :=
  if_pos h

theorem turnLen_off_ne (n : Nat) : (F.TB_Dn_TURN_LEN n).off ≠ R.TB_CTRL := by
  show 0x1010104 + n * 0x100 ≠ 0x1010000
  omega

theorem not_domOk_of_short {n : Nat} {s : State} (h : s.turnLen n < 834) : s.domOk n = false := by
  simp [State.domOk, h]

end Sys2Proof.Machine
end

/-! PROOFS. A write of DOM_EN, bit by bit: what each bit leaves of a domain whose enable is refused (R38). -/

section

namespace Sys2Proof.Machine

/-- From `s` to `t`, domain `n` keeps its state, its turn length and its bit of DOM_EN, and at least `lo`, at most `hi` events
are recorded. -/
structure KeepsDomain (n lo hi : Nat) (s t : State) : Prop where
  dom : t.dom n = s.dom n
  turnLen : t.turnLen n = s.turnLen n
  enabled : (t.getF F.TB_CTRL_DOM_EN).testBit n = (s.getF F.TB_CTRL_DOM_EN).testBit n
  events : ∃ r, lo ≤ r.length ∧ r.length ≤ hi ∧ t.scorepad.waiting = s.scorepad.waiting ++ r

variable {n m lo hi lo' hi' : Nat} {s t u : State}

/-- A change outside the registers, the recorder and the domain itself. -/
theorem KeepsDomain.of_frame (hd : t.dom n = s.dom n) (hr : t.regs = s.regs) (hw : t.scorepad = s.scorepad) :
    KeepsDomain n 0 0 s t :=
  ⟨hd, getF_congr hr _, by rw [getF_congr hr], [], by simp [hw]⟩

theorem KeepsDomain.trans (h : KeepsDomain n lo hi s t) (h' : KeepsDomain n lo' hi' t u) :
    KeepsDomain n (lo + lo') (hi + hi') s u := by
  obtain ⟨r, hlo, hhi, hr⟩ := h.events
  obtain ⟨r', hlo', hhi', hr'⟩ := h'.events
  refine ⟨h'.dom.trans h.dom, h'.turnLen.trans h.turnLen, h'.enabled.trans h.enabled, r ++ r', ?_, ?_, ?_⟩
  · rw [List.length_append]; omega
  · rw [List.length_append]; omega
  · rw [hr', hr, List.append_assoc]

/-- The bounds on the events may be widened. -/
theorem KeepsDomain.mono (h : KeepsDomain n lo hi s t) (hlo : lo' ≤ lo) (hhi : hi ≤ hi') : KeepsDomain n lo' hi' s t := by
  obtain ⟨r, h1, h2, hr⟩ := h.events
  exact ⟨h.dom, h.turnLen, h.enabled, r, hlo.trans h1, h2.trans hhi, hr⟩

theorem KeepsDomain.waiting_length_le (h : KeepsDomain n lo hi s t) :
    t.scorepad.waiting.length ≤ s.scorepad.waiting.length + hi := by
  obtain ⟨r, -, hhi, hr⟩ := h.events
  rw [hr, List.length_append]; omega

theorem recordNoEffect_keepsDomain (off : Nat) (h : s.scorepad.waiting.length < 64) :
    KeepsDomain n 1 1 s (s.recordNoEffect off) := by
  rw [State.recordNoEffect, record_waiting s _ _ _ h]
  exact ⟨rfl, rfl, rfl, [_], Nat.le_refl 1, Nat.le_refl 1, rfl⟩

theorem setDomEn_keepsDomain (b : Bool) (hn : n < 4) (hm : n ≠ m) :
    KeepsDomain n 0 0 s (s.setF F.TB_CTRL_DOM_EN (setBit (s.getF F.TB_CTRL_DOM_EN) m b)) where
  dom := rfl
  turnLen := getF_setF_other s _ (turnLen_off_ne n)
  enabled := by rw [testBit_getF_setF (f := F.TB_CTRL_DOM_EN) s _ n hn (by decide), testBit_setBit_other _ _ hm]
  events := ⟨[], by simp [State.setF]⟩

theorem startDom_keepsDomain (hm : n ≠ m) : KeepsDomain n 0 0 s (s.startDom m) :=
  .of_frame (dom_setDom_other s _ hm) rfl rfl

theorem stopDom_keepsDomain (hm : n ≠ m) : KeepsDomain n 0 0 s (s.stopDom m) := by
  unfold State.stopDom
  dsimp only
  split <;> exact .of_frame (dom_setDom_other s _ hm) rfl rfl

theorem writeDomBit_other_keepsDomain (b : Bool) (hn : n < 4) (hm : n ≠ m) (hroom : s.scorepad.waiting.length < 64) :
    KeepsDomain n 0 1 s (s.writeDomBit m b) := by
  have hset : ∀ b, KeepsDomain n 0 0 s (s.setF F.TB_CTRL_DOM_EN (setBit (s.getF F.TB_CTRL_DOM_EN) m b)) :=
    fun b => setDomEn_keepsDomain b hn hm
  cases b
  case true =>
    simp only [State.writeDomBit, if_true]
    split_ifs with hon hok
    · exact (hset true).mono (by omega) (by omega)
    · exact ((hset true).trans (startDom_keepsDomain hm)).mono (by omega) (by omega)
    · exact (recordNoEffect_keepsDomain _ hroom).mono (by omega) (by omega)
  case false =>
    simp only [State.writeDomBit, Bool.false_eq_true, if_false]
    split_ifs with hstop
    · exact ((hset false).trans (stopDom_keepsDomain hm)).mono (by omega) (by omega)
    · exact (hset false).mono (by omega) (by omega)

/-- An enable of a stopped domain with too short a turn is recorded and has no effect (R38). -/
theorem writeDomBit_short_keepsDomain (hoff : (s.dom n).on = false) (hshort : s.turnLen n < 834)
    (hroom : s.scorepad.waiting.length < 64) : KeepsDomain n 1 1 s (s.writeDomBit n true) := by
  simpa [State.writeDomBit, hoff, not_domOk_of_short hshort] using recordNoEffect_keepsDomain R.TB_CTRL hroom

/-- The low `k` bits of DOM_EN, of which the bit of domain `n` would enable it: where that bit is among them, the refusal is
recorded. -/
theorem writeDomBits_short_keepsDomain {v : Nat} (hn : n < 4) (hv : v.testBit n = true) (hoff : (s.dom n).on = false)
    (hshort : s.turnLen n < 834) (k : Nat) (hroom : s.scorepad.waiting.length + k ≤ 64) :
    KeepsDomain n (if n < k then 1 else 0) k s (writeDomBits v k s) := by
  induction k with
  | zero => exact .of_frame rfl rfl rfl
  | succ k ih =>
    have hlow := ih (by omega)
    have hroom' : (writeDomBits v k s).scorepad.waiting.length < 64 := by
      have := hlow.waiting_length_le
      omega
    by_cases hk : n = k
    · subst hk
      have hbit : KeepsDomain n 1 1 (writeDomBits v n s) ((writeDomBits v n s).writeDomBit n (v.testBit n)) := by
        rw [hv]
        exact writeDomBit_short_keepsDomain (by rw [hlow.dom, hoff]) (by rw [hlow.turnLen]; exact hshort) hroom'
      simpa [writeDomBits] using hlow.trans hbit
    · refine (hlow.trans (writeDomBit_other_keepsDomain (v.testBit k) hn hk hroom')).mono ?_ (Nat.le_refl _)
      split_ifs <;> omega

/-- Settles O57: the write of each bit of DOM_EN keeps a domain whose turn is too short as it is, and its own bit records the
refusal. -/
theorem turnLengthRange : Obligations.TurnLengthRange := by
  intro n v s hn hlead hbit hoff hdis hshort hroom
  have hfield : (bitsOf v.toNat 7 4).testBit n = true := by simp [testBit_bitsOf, hn, hbit]
  have hkeeps : KeepsDomain n 1 4 s (s.writeTbCtrl v.toNat) := by
    have hbits := writeDomBits_short_keepsDomain hn hfield hoff hshort 4 (by omega)
    rw [if_pos hn] at hbits
    rwa [State.writeTbCtrl, if_pos hlead]
  obtain ⟨r, hr, -, hwaiting⟩ := hkeeps.events
  exact ⟨_, rfl, hkeeps.enabled.trans hdis, hkeeps.dom, r, List.ne_nil_of_length_pos hr, hwaiting⟩

end Sys2Proof.Machine
end

/-! PROOFS. Fence counters: what a write of one leaves of each counter and of the flip sets (R287), and which write the
completion of a command makes (R379). -/

section

namespace Sys2Proof.Machine

/-- A field reads back what was written to it, cut to its width. -/
theorem getF_setF_same {f : Fld} (s : State) (v : Nat) (hw : f.hi < 32) :
    (s.setF f v).getF f = v % 2 ^ (f.hi + 1 - f.lo) := by
  refine Nat.eq_of_testBit_eq fun i => ?_
  rw [Nat.testBit_mod_two_pow]
  by_cases hi : i < f.hi + 1 - f.lo
  · rw [testBit_getF_setF s v i hi hw]
    simp [hi]
  · rw [State.getF, testBit_bitsOf]
    simp [hi]

theorem fence_off_ne {j k : Nat} (h : j ≠ k) : (F.CMP_FENCE_k_VALUE j).off ≠ (F.CMP_FENCE_k_VALUE k).off := by
  show 0x1040100 + j * 0x4 ≠ 0x1040100 + k * 0x4
  omega

theorem getF_writeFence_same (s : State) (k v : Nat) : (s.writeFence k v).getF (F.CMP_FENCE_k_VALUE k) = v % 2 ^ 32 :=
  getF_setF_same (f := F.CMP_FENCE_k_VALUE k) s v (by decide : 31 < 32)

theorem getF_writeFence_other {j k : Nat} (s : State) (v : Nat) (h : j ≠ k) :
    (s.writeFence k v).getF (F.CMP_FENCE_k_VALUE j) = s.getF (F.CMP_FENCE_k_VALUE j) :=
  getF_setF_other s v (fence_off_ne h)

theorem flips_writeFence (s : State) (k v : Nat) :
    (s.writeFence k v).raster.flips = stampFlips k (v % 2 ^ 32) s.now s.raster.flips := rfl

/-- The fence write of a command that completes with a code, where it makes one (R379). -/
def State.afterFence (s : State) (c : HostCmd) (code : Nat) : State :=
  if code = 0 ∧ c.flags.testBit 3 then s.writeFence (c.fenceK % 64) c.fenceValue else s

theorem afterFence_ok {s : State} {c : HostCmd} {code : Nat} (hok : code = 0) (hfence : c.flags.testBit 3 = true)
    (hk : c.fenceK < 64) : s.afterFence c code = s.writeFence c.fenceK c.fenceValue := by
  rw [State.afterFence, if_pos ⟨hok, hfence⟩, Nat.mod_eq_of_lt hk]

theorem afterFence_none {s : State} {c : HostCmd} {code : Nat} (h : code ≠ 0 ∨ c.flags.testBit 3 = false) :
    s.afterFence c code = s :=
  if_neg fun ⟨hok, hfence⟩ => h.elim (· hok) fun hoff => Bool.false_ne_true (hoff.symm.trans hfence)

/-- Beside the fence write, a completion touches the mark of a failed boot and the waiting records: no register and nothing of
the raster die. -/
theorem complete_regs_raster (s : State) (c : HostCmd) (code result detail : Nat) :
    (s.complete c code result detail).regs = (s.afterFence c code).regs ∧
      (s.complete c code result detail).raster = (s.afterFence c code).raster := by
  unfold State.complete
  dsimp only
  rw [← State.afterFence]
  generalize s.afterFence c code = t
  split_ifs <;> exact ⟨rfl, rfl⟩

/-- Settles O32: of registers and raster die, a completion changes what its fence write changes, and nothing where it makes
none. -/
theorem commandFences : Obligations.CommandFences := by
  intro s c code result hk hv
  obtain ⟨hregs, hraster⟩ := complete_regs_raster s c code result 0
  refine ⟨fun hok hfence => ?_, fun hnone k _ => ?_⟩
  · rw [afterFence_ok hok hfence hk] at hregs hraster
    refine ⟨?_, fun k _ hne => ?_, ?_⟩
    · rw [getF_congr hregs, getF_writeFence_same, Nat.mod_eq_of_lt hv]
    · rw [getF_congr hregs, getF_writeFence_other s _ hne]
    · rw [hraster, flips_writeFence, Nat.mod_eq_of_lt hv]
  · rw [afterFence_none hnone] at hregs
    exact getF_congr hregs _

end Sys2Proof.Machine
end
